-- ==== Sys2Proof/Word.lean ====
section
/-! DEFINITION. The word types of the Plynen core (R9: little-endian, bit 0 least significant). -/

namespace Sys2Proof

/-- One byte. -/
abbrev Byte := BitVec 8
/-- One 32-bit word: a register of a page, an F register. -/
abbrev Word := BitVec 32
/-- One 64-bit word: a G register, an address, a stamp. -/
abbrev DWord := BitVec 64

end Sys2Proof
end

