-- ==== Sys2Proof/Syntax.lean ====
section
/-! DEFINITION. The commands of the block: one constructor per row of the opcode table, with the row's operands. An instruction
of the core is a command that carries its decoded fields; an event at a port or inside the block is a command too. -/

namespace Sys2Proof

/-- A general register number (R258). -/
abbrev GReg := Fin 32
/-- A floating-point register number; with WIDE a field names Q0 to Q15 (R289, R291). -/
abbrev FReg := Fin 32

/-- The two classes of accessors of a register page (R55, R56). -/
inductive Accessor where
  | local
  | remote
deriving DecidableEq, Repr

/-- The second source of an integer operation: opcode rows 0x00, 0x20 and 0x10 (R265's primary opcode map). -/
inductive IntSrc where
  | reg (b : GReg)
  | imm8 (i : BitVec 8)
  | imm32 (i : BitVec 32)
deriving DecidableEq, Repr

/-- The fields of an integer operation: X writes FLAGS (R266). -/
structure IntArgs where
  x : Bool
  d : GReg
  a : GReg
  b : IntSrc
deriving DecidableEq, Repr

/-- A displacement of a load or store: opcode rows 0x30 and 0x40 (R267). -/
inductive Disp where
  | d16 (i : BitVec 16)
  | d32 (i : BitVec 32)
deriving DecidableEq, Repr

/-- A branch displacement: opcode rows 0x50 and 0x60 (R268). -/
inductive BranchDisp where
  | d16 (i : BitVec 16)
  | d32 (i : BitVec 32)
deriving DecidableEq, Repr

/-- What the protection of a cache array reports for the word an access reads (R321). -/
inductive ArrayErr where
  | ok
  | corrected
  | bad
deriving DecidableEq, Repr

/-- What the core's own arrays report to one access: a failed parity check of the TLB entry that it hits (R337), and
the outcome of the cache lookup (R321). -/
structure ArrayCheck where
  tlb : Bool
  cache : ArrayErr
deriving DecidableEq, Repr

/-- The fields of a scalar load or store (R267); `d` is a G or an F register by the operation. -/
structure MemArgs where
  x : Bool
  nt : Bool
  d : Fin 32
  b : GReg
  a : GReg
  disp : Disp
  chk : ArrayCheck
deriving DecidableEq, Repr

/-- The fields of VLD and VST (R298). -/
structure VMemArgs where
  x : Bool
  d : FReg
  b : GReg
  a : GReg
  disp : BitVec 16
  chk : ArrayCheck
deriving DecidableEq, Repr

/-- The operand specifier and the control word of a tile instruction (R108). -/
structure TileArgs where
  spec : BitVec 16
  ctl : BitVec 32
deriving DecidableEq, Repr

/-- The straps as sampled (R17). -/
structure Straps where
  porter : Bool
  die : BitVec 7
  pitch : BitVec 11
deriving DecidableEq, Repr

/-- The bits of a stored 32-byte unit, 4 words of 72 bits, that the SRAM returns flipped (R25, R357, R358). -/
abbrev UnitFlips := BitVec 288

/-- A bit error that strikes an array between accesses, and which the next use of what it struck meets: an entry of a translation
store (0 L1 ITLB, 1 L1 DTLB, 2 L2, 3 overflow) by its place (R337), a cache line by 16 * set + way (R321), a stored unit of the
scratchpad (R361). -/
inductive Upset where
  | tlb (store : Fin 4) (place : Nat)
  | line (ic : Bool) (place : Nat) (err : ArrayErr)
  | unit (u : Nat) (flips : UnitFlips)
deriving DecidableEq, Repr

/-- What the array accesses of a tile instruction meet: parity in the pool, parity in an operand tile, flipped bits of scratchpad
units by unit number (R189), and the cycles in which a write of its own and one of V or D fall on one unit (R351). -/
structure TileErr where
  /-- The accumulator tile one of whose slots it reads with an error. -/
  pool : Option (Fin 32)
  opTile : Option (Fin 8)
  flips : List (Nat × UnitFlips)
  conflicts : Nat
deriving DecidableEq, Repr

/-- The fields of TSAVE; what its accesses meet comes with it, since no TILE_INSTR_START starts a TSAVE (R192). -/
structure TsaveArgs extends TileArgs where
  meets : TileErr
deriving DecidableEq, Repr

/-- What performing a store meets: the bits that come back flipped from the units that it writes in part (R25), and whether it writes in
the cycle of a write of D (R351). -/
structure PerformArgs where
  flips : List UnitFlips
  conflict : Bool
deriving DecidableEq, Repr

/-- An inbound Delk message as its flits carry it (R371 to R374). -/
structure InMsg where
  lane : Fin 2
  /-- fab_rx_vc of its flits. -/
  vc : Fin 4
  flits : Nat
  ver : Byte
  cls : BitVec 2
  opc : BitVec 6
  /-- A reserved bit is set somewhere in the header (R373). -/
  rsv : Bool
  pdie : BitVec 7
  ppitch : BitVec 11
  ppv : Bool
  pdv : Bool
  phys : Bool
  su : Bool
  len : BitVec 9
  tid : BitVec 16
  src : Word
  dst : Word
  /-- The 64-bit stamp of D2; on a D1 link bits [39:32] are the tick bits and [31:0] the cycle field (R374). -/
  stamp : DWord
  addr : BitVec 56
  tag : Byte
  data : List Byte
deriving DecidableEq, Repr

/-- An inbound HELLO flit (R385). -/
structure Hello where
  lane : Fin 2
  vc : Fin 4
  flits : Nat
  ver : Byte
  maxver : Byte
  minver : Byte
  features : Word
  pos : Word
deriving DecidableEq, Repr

/-- Why an inbound flit is discarded (R381, R23). -/
inductive FlitFault where
  | badCrc
  | badSeq
  | noCredit
deriving DecidableEq, Repr

/-- One access of DBG_ACCESS, at level M, untranslated, with TID 0 (R456, R458). -/
inductive DbgOp where
  | gRead (n : GReg)
  | gWrite (n : GReg) (v : DWord)
  | fRead (n : FReg)
  | fWrite (n : FReg) (v : DWord)
  | srRead (n : Byte)
  | srWrite (n : Byte) (v : DWord)
  | regRead (off : BitVec 16)
  | regWrite (off : BitVec 16) (v : Word)
  | memRead (pa : BitVec 56)
  | memWrite (pa : BitVec 56) (v : DWord)
deriving DecidableEq, Repr

/-- What MBIST tests (R456). -/
inductive MbistTarget where
  | spxInterface
  | caches
  | tlbs
  | pool
  | operandTiles
deriving DecidableEq, Repr

/-- One access of LC_SESSION: as through the LIFE page (R453). -/
inductive SessionOp where
  | open
  | readChal (n : Fin 8)
  | writeResp (n : Fin 16) (v : Word)
  | submit (xreq : Word)
deriving DecidableEq, Repr

/-- The commands. -/
inductive Instr where
  /-- RST_WHOLE_ASSERT: rst_whole_n is low (R17, R21). -/
  | rstWholeAssert
  /-- RST_WHOLE_RELEASE: rst_whole_n is seen high; the straps are sampled (R17, R19). -/
  | rstWholeRelease (straps : Straps) (trstn wsel : Bool)
  /-- FUSE_ACK: fuse_ack delivers the word that fuse_addr names (R33). -/
  | fuseAck (data : Word)
  /-- BOOT_RESPONSE: boot_rsp_valid with its data (R413). -/
  | bootResponse (data : DWord) (err : Bool)
  /-- RST_REQ: rst_req_valid with rst_req_kind: 0 core, 1 cluster, 2 partition, 3 reserved (R20). -/
  | rstReq (kind : BitVec 2)
  /-- RESET_CORE_RST: A write of RESET_CTRL.CORE_RST = 1 (R21). -/
  | resetCoreRst (who : Accessor)
  /-- DRAIN_COMPLETE: Every outstanding tag is answered during a drain (R398). -/
  | drainComplete
  /-- DRAIN_TIMEOUT: The drain limit elapses (R427). -/
  | drainTimeout
  /-- SCRUB_DONE: A scrub has written its last unit (R425). -/
  | scrubDone
  /-- RST_HOLD_RELEASE: rst_hold is low in the held phase (R20). -/
  | rstHoldRelease
  /-- RESET_RELEASE: A level-M write of RESET_CTRL.RELEASE = 1 (R416). -/
  | resetRelease (who : Accessor)
  /-- BELL_PULSE: bell_pulse, with bell_tick_in if bell_tick_load is 1, and pwr_allowance (R201, R30). -/
  | bellPulse (load : Option (BitVec 40)) (allow : BitVec 16) (upsets : List Upset)
  /-- SUBSTITUTED_BELL: No pulse came in 1,024 overtime cycles (R207); pwr_allowance as sampled. -/
  | substitutedBell (allow : BitVec 16)
  /-- SPLIT_POINT: C reaches BELL_SPLIT (R205). -/
  | splitPoint
  /-- TALLY_DESC_READ. -/
  | tallyDescRead (slot : Fin 64) (flips : UnitFlips)
  /-- TALLY_APPLY_START. -/
  | tallyApplyStart
  /-- TALLY_SLOT_APPLY_DONE. -/
  | tallySlotApplyDone
  /-- RAS_LEAK. -/
  | rasLeak
  /-- TALLY_CONTRIB. -/
  | tallyContrib (m : InMsg)
  /-- TALLY_HELD_STAGE. -/
  | tallyHeldStage
  /-- RSP_NOTICE. -/
  | rspNotice (m : InMsg)
  /-- REQ_RD. -/
  | reqRd (m : InMsg)
  /-- REQ_WR. -/
  | reqWr (m : InMsg)
  /-- REQ_REGRD. -/
  | reqRegrd (m : InMsg)
  /-- REQ_REGWR. -/
  | reqRegwr (m : InMsg)
  /-- REQ_SADD. -/
  | reqSadd (m : InMsg)
  /-- CTRL_HELLO. -/
  | ctrlHello (h : Hello)
  /-- CTRL_XINV. -/
  | ctrlXinv (m : InMsg)
  /-- CTRL_XACK. -/
  | ctrlXack (m : InMsg)
  /-- CTRL_HOLE. -/
  | ctrlHole (m : InMsg)
  /-- RSP_RDATA. -/
  | rspRdata (m : InMsg)
  /-- RSP_ACK. -/
  | rspAck (m : InMsg)
  /-- RSP_ERR. -/
  | rspErr (m : InMsg)
  /-- LANE_UP. -/
  | laneUp (lane : Fin 2)
  /-- LANE_DOWN. -/
  | laneDown (lane : Fin 2)
  /-- TX_CREDIT. -/
  | txCredit (lane : Fin 2) (vc : Fin 4)
  /-- HELLO_RETRY. -/
  | helloRetry (lane : Fin 2)
  /-- FLIT_RX_REJECT. -/
  | flitRxReject (lane : Fin 2) (cause : FlitFault)
  /-- NAK_RETRY. -/
  | nakRetry (lane : Fin 2)
  /-- TX_NAK. -/
  | txNak (lane : Fin 2) (seq : Byte)
  /-- HOLE_NOTICE_SEND. -/
  | holeNoticeSend
  /-- XINV_BCAST_TIMEOUT. -/
  | xinvBcastTimeout
  /-- SPX_READ_DATA. -/
  | spxReadData (flips : UnitFlips)
  /-- SPX_CORR_WRITEBACK. -/
  | spxCorrWriteback
  /-- SPX1_RSP. -/
  | spx1Rsp (data : BitVec 512) (err : Bool)
  /-- GROUP_PWR_ACK. -/
  | groupPwrAck (g : Fin 16)
  /-- GROUP_OPEN_DONE. -/
  | groupOpenDone (g : Fin 16)
  /-- GROUP_CLOSE_DONE. -/
  | groupCloseDone (g : Fin 16)
  /-- BANK_PWR_ACK_LOSS. -/
  | bankPwrAckLoss (bank : Fin 128)
  /-- ASYNC_ENTRY. -/
  | asyncEntry
  /-- NMI_EDGE. -/
  | nmiEdge
  /-- IRQ_EXT. -/
  | irqExt (line : Fin 8) (level : Bool)
  /-- DIVIDE_COMPLETE. -/
  | divideComplete
  /-- MOVE_UNIT_PERFORM. -/
  | moveUnitPerform (flips : List UnitFlips)
  /-- STORE_BUFFER_PERFORM. -/
  | storeBufferPerform (o : PerformArgs)
  /-- PAGE_WALK_DONE. -/
  | pageWalkDone (flips : List (Nat × UnitFlips))
  /-- ADD. -/
  | add (o : IntArgs)
  /-- SUB. -/
  | sub (o : IntArgs)
  /-- AND. -/
  | andd (o : IntArgs)
  /-- OR. -/
  | orr (o : IntArgs)
  /-- XOR. -/
  | xorr (o : IntArgs)
  /-- ANDN. -/
  | andn (o : IntArgs)
  /-- SHL. -/
  | shl (o : IntArgs)
  /-- SHR. -/
  | shr (o : IntArgs)
  /-- SAR. -/
  | sar (o : IntArgs)
  /-- ROL. -/
  | rol (o : IntArgs)
  /-- ROR. -/
  | ror (o : IntArgs)
  /-- MUL. -/
  | mul (o : IntArgs)
  /-- MULH. -/
  | mulh (o : IntArgs)
  /-- MULHU. -/
  | mulhu (o : IntArgs)
  /-- CMP. -/
  | cmp (a : GReg) (b : IntSrc)
  /-- TST. -/
  | tst (a : GReg) (b : IntSrc)
  /-- LDB. -/
  | ldb (o : MemArgs)
  /-- LDBS. -/
  | ldbs (o : MemArgs)
  /-- LDH. -/
  | ldh (o : MemArgs)
  /-- LDHS. -/
  | ldhs (o : MemArgs)
  /-- LDW. -/
  | ldw (o : MemArgs)
  /-- LDWS. -/
  | ldws (o : MemArgs)
  /-- LDD. -/
  | ldd (o : MemArgs)
  /-- LDF. -/
  | ldf (o : MemArgs)
  /-- STB. -/
  | stb (o : MemArgs)
  /-- STH. -/
  | sth (o : MemArgs)
  /-- STW. -/
  | stw (o : MemArgs)
  /-- STD. -/
  | std (o : MemArgs)
  /-- STF. -/
  | stf (o : MemArgs)
  /-- LDFS. -/
  | ldfs (o : MemArgs)
  /-- STFS. -/
  | stfs (o : MemArgs)
  /-- LEA. -/
  | lea (o : MemArgs)
  /-- B_CC. -/
  | bCc (cc : Fin 15) (t : BranchDisp)
  /-- JMP. -/
  | jmp (a : GReg)
  /-- CALL. -/
  | call (disp : BitVec 32)
  /-- CALLR. -/
  | callr (a : GReg)
  /-- RET. -/
  | ret
  /-- BRPT. -/
  | brpt (a : GReg) (len : BitVec 16)
  /-- NOP. -/
  | nop
  /-- DIV. -/
  | div (x : Bool) (d a b : GReg)
  /-- DIVU. -/
  | divu (x : Bool) (d a b : GReg)
  /-- REM. -/
  | rem (x : Bool) (d a b : GReg)
  /-- REMU. -/
  | remu (x : Bool) (d a b : GReg)
  /-- FADD. -/
  | fadd (x : Bool) (d a b : FReg)
  /-- FSUB. -/
  | fsub (x : Bool) (d a b : FReg)
  /-- FMUL. -/
  | fmul (x : Bool) (d a b : FReg)
  /-- FDIV. -/
  | fdiv (x : Bool) (d a b : FReg)
  /-- FSQRT. -/
  | fsqrt (x : Bool) (d a : FReg)
  /-- FMA. -/
  | fma (x : Bool) (d a b : FReg)
  /-- FMIN. -/
  | fmin (x : Bool) (d a b : FReg)
  /-- FMAX. -/
  | fmax (x : Bool) (d a b : FReg)
  /-- FCMP. -/
  | fcmp (x : Bool) (a b : FReg)
  /-- FNEG. -/
  | fneg (x : Bool) (d a : FReg)
  /-- FABS. -/
  | fabs (x : Bool) (d a : FReg)
  /-- FMOV. -/
  | fmov (x : Bool) (d a : FReg)
  /-- FCVT. -/
  | fcvt (tz x : Bool) (d a : FReg)
  /-- FCVTI. -/
  | fcvti (tz x : Bool) (d : GReg) (a : FReg)
  /-- ICVTF. -/
  | icvtf (tz x : Bool) (d : FReg) (a : GReg)
  /-- MOVFG. -/
  | movfg (x : Bool) (d : GReg) (a : FReg)
  /-- MOVGF. -/
  | movgf (x : Bool) (d : FReg) (a : GReg)
  /-- MOV. -/
  | mov (d a : GReg)
  /-- MOVI16. -/
  | movi16 (d : GReg) (imm : BitVec 16)
  /-- MOVI32. -/
  | movi32 (d : GReg) (imm : BitVec 32)
  /-- MOVI64. -/
  | movi64 (d : GReg) (imm : BitVec 64)
  /-- MOVZ32. -/
  | movz32 (d a : GReg)
  /-- MOVS32. -/
  | movs32 (d a : GReg)
  /-- SYSCALL. -/
  | syscall
  /-- FWCALL. -/
  | fwcall
  /-- BRK. -/
  | brk
  /-- ERET. -/
  | eret
  /-- MFSR. -/
  | mfsr (d : GReg) (n : Byte)
  /-- MTSR. -/
  | mtsr (n : Byte) (a : GReg)
  /-- IFENCE. -/
  | ifence
  /-- FENCE. -/
  | fence
  /-- UAOPEN. -/
  | uaopen
  /-- UACLOSE. -/
  | uaclose
  /-- WFI. -/
  | wfi
  /-- SYNCADD. -/
  | syncadd (a : GReg) (n : Byte)
  /-- SYNCSET. -/
  | syncset (a : GReg) (n : Byte)
  /-- SYNCGET. -/
  | syncget (d : GReg) (n : Byte)
  /-- SYNCWAIT. -/
  | syncwait (a : GReg) (n : Byte)
  /-- SYNCWAIT_END. -/
  | syncwaitEnd
  /-- SYNCRADD. -/
  | syncradd (a b : GReg) (n : Byte)
  /-- BCOPY. -/
  | bcopy (nt rep : Bool)
  /-- BFILL. -/
  | bfill (nt rep : Bool)
  /-- MOVT. -/
  | movt (rep : Bool)
  /-- CRCSTEP. -/
  | crcstep (d a : GReg) (ctl : Byte)
  /-- CRCSTEP_M. -/
  | crcstepM (rep : Bool) (d : GReg) (ctl : Byte)
  /-- PARITY. -/
  | parity (d a : GReg) (n : Byte)
  /-- BREV. -/
  | brev (d a : GReg) (n : Byte)
  /-- BREVN. -/
  | brevn (d a : GReg) (n : Byte)
  /-- POPC. -/
  | popc (d a : GReg)
  /-- CLZ. -/
  | clz (d a : GReg)
  /-- CTZ. -/
  | ctz (d a : GReg)
  /-- VADD. -/
  | vadd (wide : Bool) (sz : Fin 4) (d b a : FReg)
  /-- VSUB. -/
  | vsub (wide : Bool) (sz : Fin 4) (d b a : FReg)
  /-- VMUL. -/
  | vmul (wide : Bool) (sz : Fin 4) (d b a : FReg)
  /-- VMIN. -/
  | vmin (wide x : Bool) (sz : Fin 4) (d b a : FReg)
  /-- VMAX. -/
  | vmax (wide x : Bool) (sz : Fin 4) (d b a : FReg)
  /-- VCMPEQ. -/
  | vcmpeq (wide : Bool) (sz : Fin 4) (d b a : FReg)
  /-- VCMPGT. -/
  | vcmpgt (wide x : Bool) (sz : Fin 4) (d b a : FReg)
  /-- VSHL. -/
  | vshl (wide : Bool) (sz : Fin 4) (d b a : FReg)
  /-- VSHR. -/
  | vshr (wide x : Bool) (sz : Fin 4) (d b a : FReg)
  /-- VSHLI. -/
  | vshli (wide : Bool) (sz : Fin 4) (d a : FReg) (n : Byte)
  /-- VSHRI. -/
  | vshri (wide x : Bool) (sz : Fin 4) (d a : FReg) (n : Byte)
  /-- VDUP. -/
  | vdup (wide : Bool) (sz : Fin 4) (d : FReg) (a : GReg)
  /-- VINS. -/
  | vins (wide : Bool) (sz : Fin 4) (d : FReg) (a : GReg) (n : Byte)
  /-- VEXT. -/
  | vext (wide x : Bool) (sz : Fin 4) (d : GReg) (a : FReg) (n : Byte)
  /-- VAND. -/
  | vand (wide : Bool) (d b a : FReg)
  /-- VOR. -/
  | vor (wide : Bool) (d b a : FReg)
  /-- VXOR. -/
  | vxor (wide : Bool) (d b a : FReg)
  /-- VANDN. -/
  | vandn (wide : Bool) (d b a : FReg)
  /-- VMOV. -/
  | vmov (wide : Bool) (d a : FReg)
  /-- VBSL. -/
  | vbsl (wide : Bool) (d b a : FReg)
  /-- VADDS. -/
  | vadds (wide x : Bool) (sz : Fin 4) (d b a : FReg)
  /-- VSUBS. -/
  | vsubs (wide x : Bool) (sz : Fin 4) (d b a : FReg)
  /-- VABSS. -/
  | vabss (wide : Bool) (sz : Fin 4) (d a : FReg)
  /-- VNEGS. -/
  | vnegs (wide : Bool) (sz : Fin 4) (d a : FReg)
  /-- VMULFX. -/
  | vmulfx (wide x : Bool) (sz : Fin 4) (d b a : FReg)
  /-- VSHRR. -/
  | vshrr (wide x : Bool) (sz : Fin 4) (d a : FReg) (n : Byte)
  /-- VSHLS. -/
  | vshls (wide x : Bool) (sz : Fin 4) (d a : FReg) (n : Byte)
  /-- VNARS. -/
  | vnars (x : Bool) (sz : Fin 4) (d a : FReg)
  /-- VNARRS. -/
  | vnarrs (x : Bool) (sz : Fin 4) (d a : FReg) (n : Byte)
  /-- VWIDEN. -/
  | vwiden (x : Bool) (sz : Fin 4) (d a : FReg)
  /-- VFADD. -/
  | vfadd (wide : Bool) (sz : Fin 4) (d b a : FReg)
  /-- VFSUB. -/
  | vfsub (wide : Bool) (sz : Fin 4) (d b a : FReg)
  /-- VFMUL. -/
  | vfmul (wide : Bool) (sz : Fin 4) (d b a : FReg)
  /-- VFMA. -/
  | vfma (wide : Bool) (sz : Fin 4) (d b a : FReg)
  /-- VFMIN. -/
  | vfmin (wide : Bool) (sz : Fin 4) (d b a : FReg)
  /-- VFMAX. -/
  | vfmax (wide : Bool) (sz : Fin 4) (d b a : FReg)
  /-- VFCMPEQ. -/
  | vfcmpeq (wide : Bool) (sz : Fin 4) (d b a : FReg)
  /-- VFCMPLT. -/
  | vfcmplt (wide : Bool) (sz : Fin 4) (d b a : FReg)
  /-- VFCMPLE. -/
  | vfcmple (wide : Bool) (sz : Fin 4) (d b a : FReg)
  /-- VFNEG. -/
  | vfneg (wide : Bool) (sz : Fin 4) (d a : FReg)
  /-- VFABS. -/
  | vfabs (wide : Bool) (sz : Fin 4) (d a : FReg)
  /-- VCVTIF. -/
  | vcvtif (wide : Bool) (sz : Fin 4) (d a : FReg)
  /-- VCVTFI. -/
  | vcvtfi (tz wide : Bool) (sz : Fin 4) (d a : FReg)
  /-- VFWIDEN. -/
  | vfwiden (d a : FReg)
  /-- VFNARROW. -/
  | vfnarrow (tz : Bool) (d a : FReg)
  /-- VCVTH. -/
  | vcvth (tz : Bool) (d a : FReg)
  /-- VCVTHF. -/
  | vcvthf (d a : FReg)
  /-- VCVTB. -/
  | vcvtb (tz : Bool) (d b a : FReg)
  /-- VCVTBF. -/
  | vcvtbf (x : Bool) (d a : FReg)
  /-- VLD. -/
  | vld (wide : Bool) (o : VMemArgs)
  /-- VST. -/
  | vst (wide : Bool) (o : VMemArgs)
  /-- VGATHER. -/
  | vgather (wide : Bool) (sz : Fin 4) (d : FReg) (b : GReg) (a : FReg) (s : Byte) (chk : ArrayCheck)
  /-- VSCATTER. -/
  | vscatter (wide : Bool) (sz : Fin 4) (d : FReg) (b : GReg) (a : FReg) (s : Byte) (chk : ArrayCheck)
  /-- DCLEAN_VA. -/
  | dcleanVa (a : GReg)
  /-- DINVAL_VA. -/
  | dinvalVa (a : GReg)
  /-- DCLINV_VA. -/
  | dclinvVa (a : GReg)
  /-- DCLEAN_R. -/
  | dcleanR
  /-- DINVAL_R. -/
  | dinvalR
  /-- DCLINV_R. -/
  | dclinvR
  /-- DCLEAN_SW. -/
  | dcleanSw (a : GReg)
  /-- DINVAL_SW. -/
  | dinvalSw (a : GReg)
  /-- DCLINV_SW. -/
  | dclinvSw (a : GReg)
  /-- DINVAL_ALL. -/
  | dinvalAll
  /-- DPRELOAD. -/
  | dpreload (a : GReg) (way : Byte)
  /-- IINVAL_VA. -/
  | iinvalVa (a : GReg)
  /-- IINVAL_R. -/
  | iinvalR
  /-- IINVAL_SW. -/
  | iinvalSw (a : GReg)
  /-- IINVAL_ALL. -/
  | iinvalAll
  /-- IPRELOAD. -/
  | ipreload (a : GReg) (way : Byte)
  /-- XINV. -/
  | xinv (imm : Byte) (d b a : GReg)
  /-- TSYNC. -/
  | tsync
  /-- TSYNC_WAIT_END. -/
  | tsyncWaitEnd
  /-- TBEGIN. -/
  | tbegin (o : TileArgs)
  /-- TMMA. -/
  | tmma (o : TileArgs)
  /-- TMMA_SEG. -/
  | tmmaSeg (o : TileArgs)
  /-- TCLOSE. -/
  | tclose (o : TileArgs)
  /-- TCONV. -/
  | tconv (o : TileArgs)
  /-- TLOAD. -/
  | tload (o : TileArgs)
  /-- TSTORE. -/
  | tstore (o : TileArgs)
  /-- TSAVE. -/
  | tsave (o : TsaveArgs)
  /-- TRESTORE. -/
  | trestore (o : TileArgs)
  /-- TCRATE_TAKE. -/
  | tcrateTake (o : TileArgs)
  /-- TCRATE_RELOAD. -/
  | tcrateReload (o : TileArgs)
  /-- TCRATE_TAKE_PROCEED. -/
  | tcrateTakeProceed
  /-- TEW. -/
  | tew (o : TileArgs)
  /-- TMASK. -/
  | tmask (o : TileArgs)
  /-- TILE_INSTR_START. -/
  | tileInstrStart (err : TileErr)
  /-- TILE_BLOCK_END. -/
  | tileBlockEnd
  /-- TILE_INSTR_COMPLETE. -/
  | tileInstrComplete
  /-- TSAVE_DRAIN_DONE. -/
  | tsaveDrainDone
  /-- PAGE_APPLY_ARM. -/
  | pageApplyArm (who : Accessor) (page : Fin 16)
  /-- PAGE_APPLY_CANCEL. -/
  | pageApplyCancel (who : Accessor) (page : Fin 16)
  /-- PAGE_LOCK_WRITE. -/
  | pageLockWrite (who : Accessor) (page : Fin 16)
  /-- EVT_SET_WRITE. -/
  | evtSetWrite (who : Accessor) (page : Fin 16) (v : Word)
  /-- EVT_RAW_CLEAR. -/
  | evtRawClear (who : Accessor) (page : Fin 16) (v : Word)
  /-- ERR_INFO_CLEAR. -/
  | errInfoClear (who : Accessor) (page : Fin 16)
  /-- PAIR_LOW_READ. -/
  | pairLowRead (who : Accessor) (page : Fin 16) (off : BitVec 12)
  /-- PAIR_LOW_WRITE. -/
  | pairLowWrite (who : Accessor) (page : Fin 16) (off : BitVec 12) (v : Word)
  /-- PAIR_HIGH_WRITE. -/
  | pairHighWrite (who : Accessor) (page : Fin 16) (off : BitVec 12) (v : Word)
  /-- REG_WRITE. -/
  | regWrite (who : Accessor) (page : Fin 16) (off : BitVec 12) (v : Word)
  /-- TILE_TUSE_WRITE. -/
  | tileTuseWrite (who : Accessor) (v : Word)
  /-- TILE_TUSE_OP_WRITE. -/
  | tileTuseOpWrite (who : Accessor) (v : Word)
  /-- TILE_MASK_WRITE. -/
  | tileMaskWrite (who : Accessor) (columns : Bool) (v : DWord)
  /-- TILE_DEFER_CLEAR. -/
  | tileDeferClear (who : Accessor)
  /-- TILE_TSTAT_CLEAR. -/
  | tileTstatClear (who : Accessor) (v : Word)
  /-- CONV_SEED_WRITE. -/
  | convSeedWrite (who : Accessor) (v : DWord)
  /-- CONV_CTRL_WRITE. -/
  | convCtrlWrite (who : Accessor) (v : Word)
  /-- CORE_DET_WRITE. -/
  | coreDetWrite (who : Accessor) (v : Word)
  /-- CORE_MCHK_CLEAR. -/
  | coreMchkClear (who : Accessor)
  /-- CACHE_ENABLE_WRITE. -/
  | cacheEnableWrite (who : Accessor) (v : Word)
  /-- XLAT_CTRL_WRITE. -/
  | xlatCtrlWrite (who : Accessor) (v : Word)
  /-- SPX_BASE_WRITE. -/
  | spxBaseWrite (who : Accessor) (v : DWord)
  /-- SPX_BANKPWR_WRITE. -/
  | spxBankpwrWrite (who : Accessor) (v : Word)
  /-- FAB_LANE_OFF_WRITE. -/
  | fabLaneOffWrite (who : Accessor) (v : Word)
  /-- FAB_ABSORB_CLR_WRITE. -/
  | fabAbsorbClrWrite (who : Accessor)
  /-- PITCH_STAGED_ACCESS. -/
  | pitchStagedAccess (who : Accessor) (write : Bool) (v : Word)
  /-- BELL_SKEW_CLR_WRITE. -/
  | bellSkewClrWrite (who : Accessor)
  /-- SYNC_VAL_WRITE. -/
  | syncValWrite (who : Accessor) (n : Fin 64) (v : Word)
  /-- SYNC_ADD_WRITE. -/
  | syncAddWrite (who : Accessor) (n : Fin 64) (v : Word)
  /-- WEIGH_ENALLOW_WRITE. -/
  | weighEnallowWrite (who : Accessor) (v : Word)
  /-- RAS_FENCE_GO. -/
  | rasFenceGo (who : Accessor) (v : Word)
  /-- RAS_FENCE_REAPPLY. -/
  | rasFenceReapply (who : Accessor) (v : Word)
  /-- RAS_RETIRE_GO. -/
  | rasRetireGo (who : Accessor) (v : Word)
  /-- RAS_RETIRE_REAPPLY. -/
  | rasRetireReapply (who : Accessor) (v : Word)
  /-- RAS_BKT_WRITE. -/
  | rasBktWrite (who : Accessor) (v : Word)
  /-- RAS_LPOP_WRITE. -/
  | rasLpopWrite (who : Accessor) (v : Word)
  /-- RAS_SUMMARY_CLEAR. -/
  | rasSummaryClear (who : Accessor) (v : Word)
  /-- LIFE_XREQ. -/
  | lifeXreq (who : Accessor) (v : Word)
  /-- LIFE_SESS_OPEN. -/
  | lifeSessOpen (who : Accessor)
  /-- CHALLENGE_READY. -/
  | challengeReady
  /-- LIFE_SESS_SUBMIT. -/
  | lifeSessSubmit (who : Accessor) (v : Word)
  /-- LIFE_VERIFY_DONE. -/
  | lifeVerifyDone
  /-- CHALLENGE_EXPIRE. -/
  | challengeExpire
  /-- ALLOWANCE_EXHAUSTED. -/
  | allowanceExhausted
  /-- RAMP_LEVEL_STEP. -/
  | rampLevelStep
  /-- TEMP_HOT. -/
  | tempHot (code : Byte)
  /-- TEMP_CRIT. -/
  | tempCrit (code : Byte)
  /-- TEMP_COOL. -/
  | tempCool (code : Byte)
  /-- PWR_STATE_REQ. -/
  | pwrStateReq (req : BitVec 3)
  /-- PWR_STATE_ENTER. -/
  | pwrStateEnter
  /-- WAKE_START. -/
  | wakeStart
  /-- PWR_RAIL_OK_RISE. -/
  | pwrRailOkRise (rail : Fin 2)
  /-- WAKE_COMPLETE. -/
  | wakeComplete
  /-- RAIL_FAIL. -/
  | railFail (rail : Fin 2)
  /-- TAP_IDCODE. -/
  | tapIdcode
  /-- TAP_SAMPLE_PRELOAD. -/
  | tapSamplePreload
  /-- TAP_EXTEST. -/
  | tapExtest
  /-- TAP_WRAP. -/
  | tapWrap
  /-- TAP_BYPASS. -/
  | tapBypass
  /-- WS_BYPASS. -/
  | wsBypass
  /-- WS_EXTEST. -/
  | wsExtest
  /-- WS_INTEST. -/
  | wsIntest
  /-- DBG_HALT. -/
  | dbgHalt
  /-- DBG_RESUME. -/
  | dbgResume
  /-- DBG_STEP. -/
  | dbgStep
  /-- DBG_ACCESS. -/
  | dbgAccess (t : DbgOp)
  /-- SCAN. -/
  | scan
  /-- MBIST. -/
  | mbist (target : MbistTarget)
  /-- LC_STATE_READ. -/
  | lcStateRead
  /-- LC_STATE_WRITE. -/
  | lcStateWrite (v : Word)
  /-- LC_SESSION. -/
  | lcSession (op : SessionOp)
  /-- UNDEFINED_INSTRUCTION: An encoding that the manual does not define (R4, R263 to R265). -/
  | undefinedInstruction
  /-- PWR_THROTTLE. -/
  | pwrThrottle (level : BitVec 3)
  /-- OVERTIME: C holds at BELL_PERIOD - 1: one overtime cycle (R201, R207). -/
  | overtime
  /-- SPX1_REQ_ACCEPT. -/
  | spx1ReqAccept
  /-- BOOT_REQ_ACCEPT. -/
  | bootReqAccept
  /-- GOOD_FLIT_EXPECTED. -/
  | goodFlitExpected (lane : Fin 2)
deriving DecidableEq, Repr

end Sys2Proof
end

