-- ==== Sys2Proof/WellFormed.lean ====
section
/-! DEFINITION. Well-formed commands: what a port or the instruction stream can deliver. A reserved encoding is well formed: the core
raises UNDEF for it (R4). -/

namespace Sys2Proof

/-- A message has a header flit, and its payload fits its other flits (R371). -/
def InMsg.wf (m : InMsg) : Bool := decide (1 ≤ m.flits) && decide (m.data.length ≤ 32 * (m.flits - 1))

/-- A HELLO has a flit (R385). -/
def Hello.wf (h : Hello) : Bool := decide (1 ≤ h.flits)

/-- A register lies at a multiple of 4 (R39). -/
def offWf (off : BitVec 12) : Bool := off.toNat % 4 == 0

/-- The unit numbers of a tile instruction's flips lie in the largest scratchpad, 8 MiB (R13). -/
def TileErr.wf (e : TileErr) : Bool := e.flips.all fun f => decide (f.1 < 262144)

/-- The commands that are well formed. A walk reads at most 7 entries (R332); a unit of the move engine and a store touch at most 9
units. -/
def Instr.wf : Instr → Bool
  | .tallyContrib m => m.wf
  | .rspNotice m => m.wf
  | .reqRd m => m.wf
  | .reqWr m => m.wf
  | .reqRegrd m => m.wf
  | .reqRegwr m => m.wf
  | .reqSadd m => m.wf
  | .ctrlXinv m => m.wf
  | .ctrlXack m => m.wf
  | .ctrlHole m => m.wf
  | .rspRdata m => m.wf
  | .rspAck m => m.wf
  | .rspErr m => m.wf
  | .ctrlHello h => h.wf
  | .pageWalkDone flips => decide (flips.length ≤ 7)
  | .moveUnitPerform flips => decide (flips.length ≤ 9)
  | .storeBufferPerform o => decide (o.flips.length ≤ 9)
  | .pairLowRead _ _ off => offWf off
  | .pairLowWrite _ _ off _ => offWf off
  | .pairHighWrite _ _ off _ => offWf off
  | .regWrite _ _ off _ => offWf off
  | .tileInstrStart err => err.wf
  | .tsave o => o.meets.wf
  | .rstWholeAssert | .rstWholeRelease .. | .fuseAck .. | .bootResponse .. | .rstReq .. | .resetCoreRst ..
  | .drainComplete | .drainTimeout | .scrubDone | .rstHoldRelease | .resetRelease .. | .bellPulse ..
  | .substitutedBell .. | .splitPoint | .tallyDescRead .. | .tallyApplyStart | .tallySlotApplyDone | .rasLeak
  | .tallyHeldStage | .laneUp .. | .laneDown .. | .txCredit .. | .helloRetry .. | .flitRxReject .. | .nakRetry ..
  | .txNak .. | .holeNoticeSend | .xinvBcastTimeout | .spxReadData .. | .spxCorrWriteback | .spx1Rsp ..
  | .groupPwrAck .. | .groupOpenDone .. | .groupCloseDone .. | .bankPwrAckLoss .. | .asyncEntry | .nmiEdge
  | .irqExt .. | .divideComplete | .add .. | .sub .. | .andd .. | .orr .. | .xorr .. | .andn .. | .shl .. | .shr ..
  | .sar .. | .rol .. | .ror .. | .mul .. | .mulh .. | .mulhu .. | .cmp .. | .tst .. | .ldb .. | .ldbs .. | .ldh ..
  | .ldhs .. | .ldw .. | .ldws .. | .ldd .. | .ldf .. | .stb .. | .sth .. | .stw .. | .std .. | .stf .. | .ldfs ..
  | .stfs .. | .lea .. | .bCc .. | .jmp .. | .call .. | .callr .. | .ret | .brpt .. | .nop | .div .. | .divu ..
  | .rem .. | .remu .. | .fadd .. | .fsub .. | .fmul .. | .fdiv .. | .fsqrt .. | .fma .. | .fmin .. | .fmax ..
  | .fcmp .. | .fneg .. | .fabs .. | .fmov .. | .fcvt .. | .fcvti .. | .icvtf .. | .movfg .. | .movgf .. | .mov ..
  | .movi16 .. | .movi32 .. | .movi64 .. | .movz32 .. | .movs32 .. | .syscall | .fwcall | .brk | .eret | .mfsr ..
  | .mtsr .. | .ifence | .fence | .uaopen | .uaclose | .wfi | .syncadd .. | .syncset .. | .syncget .. | .syncwait ..
  | .syncwaitEnd | .syncradd .. | .bcopy .. | .bfill .. | .movt .. | .crcstep .. | .crcstepM .. | .parity ..
  | .brev .. | .brevn .. | .popc .. | .clz .. | .ctz .. | .vadd .. | .vsub .. | .vmul .. | .vmin .. | .vmax ..
  | .vcmpeq .. | .vcmpgt .. | .vshl .. | .vshr .. | .vshli .. | .vshri .. | .vdup .. | .vins .. | .vext .. | .vand ..
  | .vor .. | .vxor .. | .vandn .. | .vmov .. | .vbsl .. | .vadds .. | .vsubs .. | .vabss .. | .vnegs .. | .vmulfx ..
  | .vshrr .. | .vshls .. | .vnars .. | .vnarrs .. | .vwiden .. | .vfadd .. | .vfsub .. | .vfmul .. | .vfma ..
  | .vfmin .. | .vfmax .. | .vfcmpeq .. | .vfcmplt .. | .vfcmple .. | .vfneg .. | .vfabs .. | .vcvtif .. | .vcvtfi ..
  | .vfwiden .. | .vfnarrow .. | .vcvth .. | .vcvthf .. | .vcvtb .. | .vcvtbf .. | .vld .. | .vst .. | .vgather ..
  | .vscatter .. | .dcleanVa .. | .dinvalVa .. | .dclinvVa .. | .dcleanR | .dinvalR | .dclinvR | .dcleanSw ..
  | .dinvalSw .. | .dclinvSw .. | .dinvalAll | .dpreload .. | .iinvalVa .. | .iinvalR | .iinvalSw .. | .iinvalAll
  | .ipreload .. | .xinv .. | .tsync | .tsyncWaitEnd | .tbegin .. | .tmma .. | .tmmaSeg .. | .tclose .. | .tconv ..
  | .tload .. | .tstore .. | .trestore .. | .tcrateTake .. | .tcrateReload .. | .tcrateTakeProceed
  | .tew .. | .tmask .. | .tileBlockEnd | .tileInstrComplete | .tsaveDrainDone | .pageApplyArm ..
  | .pageApplyCancel .. | .pageLockWrite .. | .evtSetWrite .. | .evtRawClear .. | .errInfoClear .. | .tileTuseWrite ..
  | .tileTuseOpWrite .. | .tileMaskWrite .. | .tileDeferClear .. | .tileTstatClear .. | .convSeedWrite ..
  | .convCtrlWrite .. | .coreDetWrite .. | .coreMchkClear .. | .cacheEnableWrite .. | .xlatCtrlWrite ..
  | .spxBaseWrite .. | .spxBankpwrWrite .. | .fabLaneOffWrite .. | .fabAbsorbClrWrite .. | .pitchStagedAccess ..
  | .bellSkewClrWrite .. | .syncValWrite .. | .syncAddWrite .. | .weighEnallowWrite .. | .rasFenceGo ..
  | .rasFenceReapply .. | .rasRetireGo .. | .rasRetireReapply .. | .rasBktWrite .. | .rasLpopWrite ..
  | .rasSummaryClear .. | .lifeXreq .. | .lifeSessOpen .. | .challengeReady | .lifeSessSubmit .. | .lifeVerifyDone
  | .challengeExpire | .allowanceExhausted | .rampLevelStep | .tempHot .. | .tempCrit .. | .tempCool ..
  | .pwrStateReq .. | .pwrStateEnter | .wakeStart | .pwrRailOkRise .. | .wakeComplete | .railFail .. | .tapIdcode
  | .tapSamplePreload | .tapExtest | .tapWrap | .tapBypass | .wsBypass | .wsExtest | .wsIntest | .dbgHalt | .dbgResume
  | .dbgStep | .dbgAccess .. | .scan | .mbist .. | .lcStateRead | .lcStateWrite .. | .lcSession ..
  | .undefinedInstruction | .pwrThrottle .. | .overtime | .spx1ReqAccept | .bootReqAccept | .goodFlitExpected .. => true

end Sys2Proof
end

