-- ==== Sys2Proof/Machine/Num.lean ====
section
/-! DEFINITION. Number formats and their roundings (03_number_formats.md R61 to R84, 06_output_conversion.md R147, R148). -/

namespace Sys2Proof.Machine

/-- The exact value of a number: not a number, an infinity, or (-1)^neg * m * 2^e; m = 0 is the zero of that sign. -/
inductive FVal where
  | nan
  | inf (neg : Bool)
  | num (neg : Bool) (m : Nat) (e : Int)
deriving DecidableEq, Repr

/-- How a value is rounded (R148): nearest-even, toward zero, or stochastic with `r` of `bits` random bits. -/
inductive Rnd where
  | rne
  | tz
  | sr (bits r : Nat)
deriving DecidableEq, Repr

/-- A binary floating format: `p` significant bits with the hidden one, the exponent of the smallest normal and of the
largest finite value. `gradual`: it has subnormals (R68, R70); binary32 and binary64 results are flushed (R73). -/
structure Fmt where
  p : Nat
  emin : Int
  emax : Int
  gradual : Bool
deriving DecidableEq, Repr

/-- binary32 with the flush of R73. -/
def fmt32 : Fmt := ⟨24, -126, 127, false⟩
/-- binary32 with gradual underflow, as inside an F32C accumulator (R77). -/
def fmt32g : Fmt := ⟨24, -126, 127, true⟩
/-- binary64 with the flush of R73. -/
def fmt64 : Fmt := ⟨53, -1022, 1023, false⟩
/-- PF16 (R70). -/
def fmtPF16 : Fmt := ⟨10, -30, 31, true⟩
/-- PF8 (R68). -/
def fmtPF8 : Fmt := ⟨4, -7, 7, true⟩

/-- The signed integer of a sign and a magnitude. -/
def signed (neg : Bool) (m : Nat) : Int := if neg then -(m : Int) else (m : Int)

/-- The exact value of an integer times a power of two; an integer 0 is +0. -/
def FVal.ofScaled (n e : Int) : FVal := .num (decide (n < 0)) n.natAbs e

/-- The exact value of an integer. -/
def FVal.ofInt (n : Int) : FVal := FVal.ofScaled n 0

def FVal.isNan : FVal → Bool
  | .nan => true
  | _ => false

def FVal.isInf : FVal → Bool
  | .inf _ => true
  | _ => false

def FVal.isZero : FVal → Bool
  | .num _ m _ => m == 0
  | _ => false

/-- The sign of a value; a NaN counts as positive. -/
def FVal.sign : FVal → Bool
  | .nan => false
  | .inf n => n
  | .num n _ _ => n

def FVal.neg : FVal → FVal
  | .nan => .nan
  | .inf n => .inf (!n)
  | .num n m e => .num (!n) m e

def FVal.abs : FVal → FVal
  | .nan => .nan
  | .inf _ => .inf false
  | .num _ m e => .num false m e

/-- A magnitude written with the exponent `q`, for `q` at most its own exponent. -/
def alignTo (m : Nat) (e q : Int) : Nat := m <<< (e - q).toNat

/-- The exact sum. A zero sum of two values that are not both a zero of sign - is +0; opposite infinities give NaN. -/
def FVal.add : FVal → FVal → FVal
  | .nan, _ => .nan
  | _, .nan => .nan
  | .inf a, .inf b => if a == b then .inf a else .nan
  | .inf a, _ => .inf a
  | _, .inf b => .inf b
  | .num na ma ea, .num nb mb eb =>
    let q := min ea eb
    let s := signed na (alignTo ma ea q) + signed nb (alignTo mb eb q)
    if s = 0 then .num (na && nb && ma == 0 && mb == 0) 0 0 else FVal.ofScaled s q

def FVal.sub (a b : FVal) : FVal := a.add b.neg

/-- The exact product; an infinity times a zero is NaN. -/
def FVal.mul : FVal → FVal → FVal
  | .nan, _ => .nan
  | _, .nan => .nan
  | .inf a, .inf b => .inf (a != b)
  | .inf a, .num b m _ => if m = 0 then .nan else .inf (a != b)
  | .num a m _, .inf b => if m = 0 then .nan else .inf (a != b)
  | .num a ma ea, .num b mb eb => .num (a != b) (ma * mb) (ea + eb)

/-- The order of two finite or infinite values; both zeros are equal. -/
def FVal.cmp : FVal → FVal → Ordering
  | .nan, _ => .eq
  | _, .nan => .eq
  | .inf a, .inf b => if a == b then .eq else if a then .lt else .gt
  | .inf a, _ => if a then .lt else .gt
  | _, .inf b => if b then .gt else .lt
  | .num na ma ea, .num nb mb eb =>
    let q := min ea eb
    compare (signed na (alignTo ma ea q)) (signed nb (alignTo mb eb q))

/-- The order with -0 below +0 (R145, R153). -/
def FVal.cmpZ (a b : FVal) : Ordering :=
  match a.cmp b with
  | .eq => if a.isZero && b.isZero then (if a.sign == b.sign then .eq else if a.sign then .lt else .gt) else .eq
  | o => o

/-- m * 2^e rounded to a whole number of 2^q, and whether anything was lost (R148). -/
def roundAt (r : Rnd) (m : Nat) (e q : Int) : Nat × Bool :=
  if q ≤ e then (m <<< (e - q).toNat, false)
  else
    let sh := (q - e).toNat
    let t := m >>> sh
    let rest := m - (t <<< sh)
    if rest = 0 then (t, false)
    else
      match r with
      | .rne =>
        let half := 1 <<< (sh - 1)
        (if half < rest || (rest == half && t % 2 == 1) then t + 1 else t, true)
      | .tz => (t, true)
      | .sr bits k => (if (2 ^ bits - k) <<< sh ≤ rest <<< bits then t + 1 else t, true)

/-- The exponent of the leading bit of m * 2^e. -/
def leadExp (m : Nat) (e : Int) : Int := e + (Nat.log2 m : Int)

/-- A rounded magnitude k * 2^q, whether it differs from the exact one, is too large for the format, or was flushed. -/
structure Rounded where
  k : Nat
  q : Int
  inexact : Bool
  big : Bool
  tiny : Bool
deriving DecidableEq, Repr

/-- A magnitude rounded to the format's precision with an unbounded exponent (R73, R82); a format without subnormals
flushes a result below its smallest normal (R73). `tiny`: a non-zero value became zero. -/
def roundMag (f : Fmt) (r : Rnd) (m : Nat) (e : Int) : Rounded :=
  if m = 0 then ⟨0, 0, false, false, false⟩
  else
    let q0 := leadExp m e - ((f.p : Int) - 1)
    let q := if f.gradual then max q0 (f.emin - ((f.p : Int) - 1)) else q0
    let kr := roundAt r m e q
    if kr.1 = 0 then ⟨0, 0, true, false, true⟩
    else
      let E := leadExp kr.1 q
      if E < f.emin && !f.gradual then ⟨0, 0, true, false, true⟩
      else ⟨kr.1, q, kr.2, decide (f.emax < E), false⟩

/-- The code of an exactly representable magnitude, without its sign: the exponent field above the fraction. -/
def encodeMag (f : Fmt) (k : Nat) (q : Int) : Nat :=
  if k = 0 then 0
  else
    let E := leadExp k q
    let q0 := f.emin - ((f.p : Int) - 1)
    if E < f.emin then (roundAt .tz k q q0).1
    else (E - f.emin).toNat * 2 ^ (f.p - 1) + (roundAt .tz k q (E - ((f.p : Int) - 1))).1

/-- The value of a code of an IEEE-like format with `eb` exponent bits (R70, R72 when `flush`). -/
def decodeIEEE (p eb : Nat) (emin : Int) (flush : Bool) (c : Nat) : FVal :=
  let neg := c.testBit (p - 1 + eb)
  let f := c % 2 ^ (p - 1)
  let x := c / 2 ^ (p - 1) % 2 ^ eb
  if x = 2 ^ eb - 1 then (if f = 0 then .inf neg else .nan)
  else if x = 0 then .num neg (if flush then 0 else f) (emin - ((p : Int) - 1))
  else .num neg (2 ^ (p - 1) + f) (emin - ((p : Int) - 1) + ((x : Int) - 1))

/-- binary32 as an operation reads it: a subnormal is a zero of its sign (R72). -/
def dec32 (b : BitVec 32) : FVal := decodeIEEE 24 8 (-126) true b.toNat
/-- binary32 with its subnormals, as inside an F32C element (R77). -/
def dec32g (b : BitVec 32) : FVal := decodeIEEE 24 8 (-126) false b.toNat
/-- binary64 as an operation reads it (R72). -/
def dec64 (b : BitVec 64) : FVal := decodeIEEE 53 11 (-1022) true b.toNat
/-- PF16 (R70). -/
def decPF16 (b : BitVec 16) : FVal := decodeIEEE 10 6 (-30) false b.toNat
/-- PF8 (R68, R69): 0x80 is the only NaN, there is no infinity. -/
def decPF8 (b : BitVec 8) : FVal :=
  if b = 0x80#8 then .nan
  else
    let e := b.toNat / 8 % 16
    let f := b.toNat % 8
    .num (b.getLsbD 7) (if e = 0 then f else 8 + f) (if e = 0 then -10 else (e : Int) - 11)

/-- The default NaNs (R75). -/
def nan32 : BitVec 32 := 0x7FC00000#32
def nan64 : BitVec 64 := 0x7FF8000000000000#64
def nanPF16 : BitVec 16 := 0x7F00#16
def nanPF8 : BitVec 8 := 0x80#8

/-- What a rounding reports: invalid, too large, flushed, saturated, inexact. -/
structure RFlags where
  inv : Bool := false
  ovf : Bool := false
  ufl : Bool := false
  sat : Bool := false
  inexact : Bool := false
deriving DecidableEq, Repr

def RFlags.none : RFlags := {}

def RFlags.or (a b : RFlags) : RFlags :=
  ⟨a.inv || b.inv, a.ovf || b.ovf, a.ufl || b.ufl, a.sat || b.sat, a.inexact || b.inexact⟩

/-- Puts the sign bit above `n` magnitude bits. -/
def withSign (n : Nat) (neg : Bool) (code : Nat) : Nat := if neg then 2 ^ n + code else code

/-- The magnitude code of the largest finite value of an IEEE-like format. -/
def maxFinite (f : Fmt) : Nat := encodeMag f (2 ^ f.p - 1) (f.emax - ((f.p : Int) - 1))

/-- The conversion outcomes of R82 for binary32, binary64 and PF16: the code, with its sign, and what it reports. -/
def convIEEE (f : Fmt) (bits : Nat) (nan : Nat) (r : Rnd) : FVal → Nat × RFlags
  | .nan => (nan, {})
  | .inf n => (withSign (bits - 1) n (maxFinite f + 1), {})
  | .num n m e =>
    let x := roundMag f r m e
    if x.big then
      (withSign (bits - 1) n (if r = .tz then maxFinite f else maxFinite f + 1), { ovf := true, inexact := true })
    else (withSign (bits - 1) n (encodeMag f x.k x.q), { ufl := x.tiny, inexact := x.inexact })

def to32 (r : Rnd) (v : FVal) : BitVec 32 × RFlags :=
  let x := convIEEE fmt32 32 nan32.toNat r v
  (BitVec.ofNat 32 x.1, x.2)

def to64 (r : Rnd) (v : FVal) : BitVec 64 × RFlags :=
  let x := convIEEE fmt64 64 nan64.toNat r v
  (BitVec.ofNat 64 x.1, x.2)

def toPF16 (r : Rnd) (v : FVal) : BitVec 16 × RFlags :=
  let x := convIEEE fmtPF16 16 nanPF16.toNat r v
  (BitVec.ofNat 16 x.1, x.2)

/-- The conversion outcomes of R82 for PF8: no infinity, no negative zero. -/
def toPF8 (r : Rnd) : FVal → BitVec 8 × RFlags
  | .nan => (nanPF8, {})
  | .inf _ => (nanPF8, { inv := true })
  | .num n m e =>
    let x := roundMag fmtPF8 r m e
    if x.big then (if n then 0xFF#8 else 0x7F#8, { sat := true, inexact := true })
    else if x.k = 0 then (0#8, { ufl := x.tiny, inexact := x.inexact })
    else (BitVec.ofNat 8 (withSign 7 n (encodeMag fmtPF8 x.k x.q)), { inexact := x.inexact })

/-- A value rounded to an integer and held in [lo, hi]; the outcomes of R82 for INT8 and I32. -/
def toIntSat (lo hi : Int) (r : Rnd) : FVal → Int × RFlags
  | .nan => (0, { inv := true })
  | .inf n => (if n then lo else hi, { sat := true })
  | .num n m e =>
    let x := roundAt r m e 0
    let v := signed n x.1
    if v < lo then (lo, { sat := true, inexact := true })
    else if hi < v then (hi, { sat := true, inexact := true })
    else (v, { inexact := x.2 })

/-! ## Block-scaled integers -/

/-- The BX formats of codes 0x4 to 0x7 (R61): eight-bit or four-bit elements, signed or unsigned. -/
def bxWide (code : Nat) : Bool := code / 2 % 2 == 0
def bxSigned (code : Nat) : Bool := code % 2 == 0

/-- The integer of `w` bits `n`, two's complement when `sg` (R65). -/
def bxInt (w : Nat) (sg : Bool) (n : Nat) : Int :=
  if sg && decide (2 ^ (w - 1) ≤ n) then (n : Int) - 2 ^ w else (n : Int)

/-- The element integers of an element block, in element order (R63, R65). -/
def bxElems (code : Nat) (block : List Byte) : List Int :=
  if bxWide code then block.map fun b => bxInt 8 (bxSigned code) b.toNat
  else block.flatMap fun b =>
    [bxInt 4 (bxSigned code) (b.toNat % 16), bxInt 4 (bxSigned code) (b.toNat / 16)]

/-- The kind of a block by its scale byte (R64). -/
inductive BxKind where
  | zero
  | finite
  | nonfinite
deriving DecidableEq, Repr

def bxKind (e : Byte) : BxKind := if e = 0#8 then .zero else if e = 0xFF#8 then .nonfinite else .finite

/-- The value of one element (R65, R66). -/
def bxVal (e : Byte) (x : Int) : FVal :=
  match bxKind e with
  | .zero => .num false 0 0
  | .finite => FVal.ofScaled x ((e.toNat : Int) - 127)
  | .nonfinite => if x = 0 then .nan else .inf (decide (x < 0))

end Sys2Proof.Machine
end

