-- ==== Sys2Proof/Machine/Flags.lean ====
section
/-! DEFINITION. The FLAGS register's fields and every flag computation (11_instruction_set.md R260, R261, R266, R270). -/

namespace Sys2Proof.Machine

/-- The four condition flags in FLAGS order: V, N, Z, C. -/
structure Cond where
  v : Bool
  n : Bool
  z : Bool
  c : Bool
deriving DecidableEq, Repr

/-- The flags after a logical result: C and V are cleared (R266). -/
def condLogic (r : BitVec 64) : Cond := ⟨false, r.msb, r == 0#64, false⟩

/-- The flags after ADD: C is the unsigned carry out, V the signed overflow (R266). -/
def condAdd (a b : BitVec 64) : Cond :=
  let r := a + b
  ⟨a.msb == b.msb && r.msb != a.msb, r.msb, r == 0#64, decide (2 ^ 64 ≤ a.toNat + b.toNat)⟩

/-- The flags after SUB and CMP: C is 1 when a < b unsigned, V the signed overflow (R266). -/
def condSub (a b : BitVec 64) : Cond :=
  let r := a - b
  ⟨a.msb != b.msb && r.msb != a.msb, r.msb, r == 0#64, decide (a.toNat < b.toNat)⟩

/-- The flags after FCMP: Z equal, N less, V unordered, C 0. -/
def condFcmp (a b : FVal) : Cond :=
  if a.isNan || b.isNan then ⟨true, false, false, false⟩
  else ⟨false, a.cmp b == .lt, a.cmp b == .eq, false⟩

/-- A set of the five sticky bits, FLAGS[20:16]: INX, UFL, OFL, DZ, INV from high to low. -/
abbrev Sticky := BitVec 5
def stINV : Sticky := 0x01#5
def stDZ : Sticky := 0x02#5
def stOFL : Sticky := 0x04#5
def stUFL : Sticky := 0x08#5
def stINX : Sticky := 0x10#5

/-- The sticky bits of a rounding (R270, R297): overflow, saturation and a flush are inexact too. -/
def RFlags.toSticky (f : RFlags) : Sticky :=
  (if f.inv then stINV else 0) ||| (if f.ovf || f.sat then stOFL ||| stINX else 0)
    ||| (if f.ufl then stUFL ||| stINX else 0) ||| (if f.inexact then stINX else 0)

/-- FLAGS with the four condition flags replaced. -/
def setCond (f : BitVec 64) (k : Cond) : BitVec 64 :=
  (f &&& ~~~0xF#64) ||| (if k.v then 8#64 else 0) ||| (if k.n then 4#64 else 0) ||| (if k.z then 2#64 else 0)
    ||| (if k.c then 1#64 else 0)

/-- FLAGS with sticky bits added; they are never cleared except by a write (R261). -/
def addSticky (f : BitVec 64) (x : Sticky) : BitVec 64 := f ||| (x.zeroExtend 64 <<< 16)

def flagC (f : BitVec 64) : Bool := f.getLsbD 0
def flagZ (f : BitVec 64) : Bool := f.getLsbD 1
def flagN (f : BitVec 64) : Bool := f.getLsbD 2
def flagV (f : BitVec 64) : Bool := f.getLsbD 3
/-- The interrupt enable. -/
def flagIE (f : BitVec 64) : Bool := f.getLsbD 8
/-- The user-access window. -/
def flagUA (f : BitVec 64) : Bool := f.getLsbD 9
/-- The current level field PL. -/
def flagPL (f : BitVec 64) : BitVec 2 := f.extractLsb' 10 2
def setIE (f : BitVec 64) (b : Bool) : BitVec 64 := if b then f ||| 0x100#64 else f &&& ~~~0x100#64
def setUA (f : BitVec 64) (b : Bool) : BitVec 64 := if b then f ||| 0x200#64 else f &&& ~~~0x200#64
def setPL (f : BitVec 64) (p : BitVec 2) : BitVec 64 := (f &&& ~~~0xC00#64) ||| (p.zeroExtend 64 <<< 10)

/-- The bits of FLAGS that MTSR changes: the conditions and the sticky bits at U, with IE and UA at S and M (R261). -/
def mtsrFlagsMask (user : Bool) : BitVec 64 := if user then 0x1F000F#64 else 0x1F030F#64

/-- The bits of FLAGS that hold state; the rest are reserved and read 0 (R260). -/
def flagsMask : BitVec 64 := 0x1F0F0F#64

/-- The condition of a branch (R268's table of conditions); 0xF is not an instruction. -/
def condHolds (cc : Fin 16) (f : BitVec 64) : Bool :=
  match cc.val with
  | 0x0 => flagZ f
  | 0x1 => !flagZ f
  | 0x2 => flagN f != flagV f
  | 0x3 => flagN f == flagV f
  | 0x4 => flagZ f || flagN f != flagV f
  | 0x5 => !flagZ f && flagN f == flagV f
  | 0x6 => flagC f
  | 0x7 => !flagC f
  | 0x8 => flagC f || flagZ f
  | 0x9 => !flagC f && !flagZ f
  | 0xA => flagN f
  | 0xB => !flagN f
  | 0xC => flagV f
  | 0xD => !flagV f
  | _ => true

end Sys2Proof.Machine
end

