-- ==== Sys2Proof/Machine/Alu.lean ====
section
/-! DEFINITION. Integer, bit, CRC and scalar floating-point results as functions of their operands
(11_instruction_set.md R266, R269, R270, R282). -/

namespace Sys2Proof.Machine

/-! ## Integer -/

def mulh (a b : BitVec 64) : BitVec 64 := BitVec.ofInt 64 (a.toInt * b.toInt / 2 ^ 64)
def mulhu (a b : BitVec 64) : BitVec 64 := BitVec.ofNat 64 (a.toNat * b.toNat / 2 ^ 64)

/-- b mod 64, the shift and rotate amount. -/
def shAmt (b : BitVec 64) : Nat := b.toNat % 64

/-- One quotient and remainder kind: DIV, DIVU, REM, REMU. -/
inductive DivOp where
  | div
  | divu
  | rem
  | remu
deriving DecidableEq, Repr

/-- The result of a division by a non-zero divisor at width `w` (R269): the quotient is rounded toward zero, the
remainder takes the dividend's sign; the most negative value by -1 wraps to itself. -/
def divAt (w : Nat) (op : DivOp) (a b : BitVec w) : BitVec w :=
  match op with
  | .div => BitVec.ofInt w (Int.tdiv a.toInt b.toInt)
  | .divu => BitVec.ofNat w (a.toNat / b.toNat)
  | .rem => BitVec.ofInt w (Int.tmod a.toInt b.toInt)
  | .remu => BitVec.ofNat w (a.toNat % b.toNat)

def DivOp.signedResult : DivOp → Bool
  | .div | .rem => true
  | _ => false

/-- The 64-bit result of a division; X = 1 works on the low 32 bits (R269). -/
def divResult (op : DivOp) (x : Bool) (a b : BitVec 64) : BitVec 64 :=
  if x then
    let r := divAt 32 op (a.setWidth 32) (b.setWidth 32)
    if op.signedResult then r.signExtend 64 else r.setWidth 64
  else divAt 64 op a b

/-- Whether the divisor is zero at the width in use. -/
def divByZero (x : Bool) (b : BitVec 64) : Bool := if x then b.setWidth 32 == 0#32 else b == 0#64

/-! ## Bit operations -/

/-- The number of set bits among the low `n` bits. -/
def popLow (a : BitVec 64) : Nat → Nat
  | 0 => 0
  | n + 1 => popLow a n + (if a.getLsbD n then 1 else 0)

/-- The low `w` bits of `a` reversed, upper bits 0. -/
def revLow (w : Nat) (a : BitVec 64) : Nat → BitVec 64
  | 0 => 0#64
  | n + 1 => revLow w a n ||| (if a.getLsbD n then 1#64 <<< (w - 1 - n) else 0#64)

/-- Leading zeros among the low `n` bits. -/
def clzLow (a : BitVec 64) : Nat → Nat
  | 0 => 0
  | n + 1 => if a.getLsbD n then 0 else 1 + clzLow a n

/-- Trailing zeros, counted from bit `64 - n`. -/
def ctzFrom (a : BitVec 64) : Nat → Nat
  | 0 => 0
  | n + 1 => if a.getLsbD (63 - n) then 0 else 1 + ctzFrom a n

def parityOf (w : Nat) (a : BitVec 64) : BitVec 64 := BitVec.ofNat 64 (popLow a w % 2)
def brevOf (w : Nat) (a : BitVec 64) : BitVec 64 := revLow w a w
def brevnOf (k : Nat) (a : BitVec 64) : BitVec 64 := (a >>> k <<< k) ||| revLow k a k

/-! ## CRC (R282) -/

/-- The parameters of a CRC: width, polynomial in normal form, reflected. -/
structure CrcParam where
  w : Nat
  poly : BitVec 32
  refl : Bool
deriving DecidableEq, Repr

/-- The selector's parameters; `user` are those of CORE_CRCCFG and CORE_CRCPOLY. -/
def crcParam (sel : Nat) (user : CrcParam) : CrcParam :=
  match sel with
  | 0 => ⟨32, 0x04C11DB7#32, true⟩
  | 1 => ⟨32, 0x1EDC6F41#32, true⟩
  | 2 => ⟨16, 0x1021#32, false⟩
  | _ => user

/-- The low `w` bits of a polynomial reversed. -/
def revPoly (w : Nat) (p : BitVec 32) : BitVec 64 := revLow w (p.setWidth 64) w

/-- `n` one-bit steps of a reflected CRC. -/
def crcBitsR (p : BitVec 64) : Nat → BitVec 64 → BitVec 64
  | 0, s => s
  | n + 1, s => crcBitsR p n (if s.getLsbD 0 then (s >>> 1) ^^^ p else s >>> 1)

/-- `n` one-bit steps of a CRC of width `w` that is not reflected. -/
def crcBitsN (w : Nat) (p : BitVec 64) : Nat → BitVec 64 → BitVec 64
  | 0, s => s
  | n + 1, s =>
    let t := s <<< 1
    crcBitsN w p n ((if s.getLsbD (w - 1) then t ^^^ p else t) &&& BitVec.ofNat 64 (2 ^ w - 1))

/-- One byte of a CRC step. -/
def crcByte (k : CrcParam) (s : BitVec 64) (b : Byte) : BitVec 64 :=
  if k.refl then crcBitsR (revPoly k.w k.poly) 8 (s ^^^ b.setWidth 64)
  else crcBitsN k.w (k.poly.setWidth 64 &&& BitVec.ofNat 64 (2 ^ k.w - 1)) 8 (s ^^^ (b.setWidth 64 <<< (k.w - 8)))

/-- A CRC step over bytes in order (R282): no initial value, no final XOR. -/
def crcStep (k : CrcParam) (state : BitVec 64) (bs : List Byte) : BitVec 64 :=
  bs.foldl (crcByte k) (state &&& BitVec.ofNat 64 (2 ^ k.w - 1))

/-- The whole CRC-32C of a message, with the usual initial value and final XOR, as fabric flits and images carry it. -/
def crc32c (bs : List Byte) : BitVec 32 :=
  ~~~((crcStep (crcParam 1 ⟨32, 0#32, true⟩) 0xFFFFFFFF#64 bs).setWidth 32)

/-! ## Scalar floating point (R270) -/

/-- A precision: binary32 or binary64. -/
inductive Prec where
  | single
  | double
deriving DecidableEq, Repr

def Prec.ofX (x : Bool) : Prec := if x then .double else .single

/-- The value of an F register's operand: binary32 reads bits [31:0] (R259), subnormals read as zeros (R72). -/
def fpRead (p : Prec) (b : BitVec 64) : FVal :=
  match p with
  | .single => dec32 (b.setWidth 32)
  | .double => dec64 b

/-- Whether the operand is a signalling NaN, which IEEE 754 reports as invalid. -/
def fpSnan (p : Prec) (b : BitVec 64) : Bool :=
  match p with
  | .single => (dec32 (b.setWidth 32)).isNan && !b.getLsbD 22
  | .double => (dec64 b).isNan && !b.getLsbD 51

/-- The register value of a result and what its rounding reports (R259, R73, R75). -/
def fpWrite (p : Prec) (r : Rnd) (v : FVal) : BitVec 64 × Sticky :=
  match p with
  | .single => let x := to32 r v; (x.1.setWidth 64, x.2.toSticky)
  | .double => let x := to64 r v; (x.1, x.2.toSticky)

/-- The bits an F register holds of a precision: binary32 clears bits [63:32] (R259). -/
def fpBits (p : Prec) (b : BitVec 64) : BitVec 64 :=
  match p with
  | .single => (b.setWidth 32).setWidth 64
  | .double => b

def fpSignBit (p : Prec) : BitVec 64 :=
  match p with
  | .single => 0x80000000#64
  | .double => 0x8000000000000000#64

/-- INV when the operands are not NaN and the exact result is, or when an operand is a signalling NaN. -/
def invOf (snan : Bool) (ops : List FVal) (r : FVal) : Sticky :=
  if snan || (r.isNan && !ops.any FVal.isNan) then stINV else 0

/-- A two-operand operation rounded to nearest-even. -/
def fpBin (f : FVal → FVal → FVal) (p : Prec) (a b : BitVec 64) : BitVec 64 × Sticky :=
  let x := fpRead p a
  let y := fpRead p b
  let r := f x y
  let w := fpWrite p .rne r
  (w.1, w.2 ||| invOf (fpSnan p a || fpSnan p b) [x, y] r)

/-- d + a * b with one rounding; an infinity times a zero is invalid whatever d is. -/
def fpFma (p : Prec) (d a b : BitVec 64) : BitVec 64 × Sticky :=
  let x := fpRead p a
  let y := fpRead p b
  let z := fpRead p d
  let m := x.mul y
  let r := z.add m
  let w := fpWrite p .rne r
  let badMul := m.isNan && !x.isNan && !y.isNan
  let badAdd := r.isNan && !z.isNan && !m.isNan
  let sn := fpSnan p a || fpSnan p b || fpSnan p d
  (w.1, w.2 ||| (if sn || badMul || badAdd then stINV else 0))

/-- The smaller of two values with -0 below +0; a NaN gives NaN. -/
def fvMin (a b : FVal) : FVal := if a.isNan || b.isNan then .nan else if b.cmpZ a = .lt then b else a
/-- The larger of two values with -0 below +0; a NaN gives NaN. -/
def fvMax (a b : FVal) : FVal := if a.isNan || b.isNan then .nan else if a.cmpZ b = .lt then b else a

/-- FMIN and FMAX: a value is selected, a NaN gives the default NaN. -/
def fpSel (f : FVal → FVal → FVal) (p : Prec) (a b : BitVec 64) : BitVec 64 × Sticky :=
  ((fpWrite p .rne (f (fpRead p a) (fpRead p b))).1, if fpSnan p a || fpSnan p b then stINV else 0)

/-- A quotient m / n to `bits` extra bits, with a last bit that says whether anything remains. -/
def quotSticky (m n bits : Nat) : Nat :=
  let q := (m <<< bits) / n
  2 * q + (if (m <<< bits) % n = 0 then 0 else 1)

/-- The value from which a quotient rounds exactly as the true quotient does: 130 bits beyond the operands' own. -/
def fvDiv (a b : FVal) : FVal :=
  match a, b with
  | .nan, _ => .nan
  | _, .nan => .nan
  | .inf _, .inf _ => .nan
  | .inf x, .num y _ _ => .inf (x != y)
  | .num x _ _, .inf y => .num (x != y) 0 0
  | .num x m e, .num y n g =>
    if n = 0 then (if m = 0 then .nan else .inf (x != y))
    else if m = 0 then .num (x != y) 0 0
    else .num (x != y) (quotSticky m n 130) (e - g - 131)

def fpDiv (p : Prec) (a b : BitVec 64) : BitVec 64 × Sticky :=
  let x := fpRead p a
  let y := fpRead p b
  let w := fpBin fvDiv p a b
  let dz := y.isZero && !x.isZero && !x.isNan && !x.isInf
  (w.1, w.2 ||| (if dz then stDZ else 0))

/-- The integer square root, found bit by bit from bit `n - 1` down. -/
def isqrt (m : Nat) : Nat → Nat → Nat
  | 0, r => r
  | n + 1, r => isqrt m n (if (r + 2 ^ n) * (r + 2 ^ n) ≤ m then r + 2 ^ n else r)

/-- The value from which a square root rounds exactly as the true root does. -/
def fvSqrt (a : FVal) : FVal :=
  match a with
  | .nan => .nan
  | .inf n => if n then .nan else .inf false
  | .num n m e =>
    if m = 0 then .num n 0 0
    else if n then .nan
    else
      let sh := 140 + (e % 2).toNat
      let x := m <<< sh
      let r := isqrt x 110 0
      .num false (2 * r + (if r * r = x then 0 else 1)) ((e - sh) / 2 - 1)

def fpSqrt (p : Prec) (a : BitVec 64) : BitVec 64 × Sticky :=
  let x := fpRead p a
  let r := fvSqrt x
  let w := fpWrite p .rne r
  (w.1, w.2 ||| invOf (fpSnan p a) [x] r)

/-- FCVTI and VCVTFI: a signed integer of `w` bits; NaN gives 0, out of range the nearer end, both with the flags `bad`, an inexact
result with INX (R270, R297). -/
def fvToInt (w : Nat) (bad : Sticky) (r : Rnd) (v : FVal) : BitVec w × Sticky :=
  let x := toIntSat (-(2 ^ (w - 1))) (2 ^ (w - 1) - 1) r v
  (BitVec.ofInt w x.1, if x.2.inv || x.2.sat then bad else if x.2.inexact then stINX else 0)

/-- FCVT between binary32 and binary64: `p` is the source precision. -/
def fpCvt (p : Prec) (r : Rnd) (a : BitVec 64) : BitVec 64 × Sticky :=
  let x := fpRead p a
  let w := fpWrite (match p with | .single => .double | .double => .single) r x
  (w.1, w.2 ||| (if fpSnan p a then stINV else 0))

end Sys2Proof.Machine
end

