-- ==== Sys2Proof/Config.lean ====
section
/-! DEFINITION. What the block's text leaves open: free values, constants without a body, so that nothing can be proved of
them. A counter of State makes each use a fresh one. -/

namespace Sys2Proof.Config

/-- Random bytes of the entropy source: word `n` of challenge `k` (R453). -/
opaque entropy : Nat → Nat → Word

/-- Whether Ed25519 accepts a signature, 16 words, over a challenge, 8 words, and IDENT_PHYS (R453): the algorithm is RFC
8032's, the key is the maker's. -/
opaque signatureGood : List Word → Word → List Word → Bool

/-- A byte of tile storage after SLEEP without a scrub (R432's matrix: undefined). -/
opaque sleepByte : Nat → Nat → Byte

/-- An F register after SLEEP without a scrub (R432's matrix: undefined). -/
opaque sleepReg : Nat → Nat → DWord

/-- The data that a read returns when more bits are wrong than its code is able to detect (R357 to R361 state the outcome
only up to the codes' reach). -/
opaque wrongByte : Nat → Nat → Byte

/-- Whether such a read is reported as uncorrectable. -/
opaque wrongDetected : Nat → Bool

/-- What a tile tool or scan leaves where no rule restores the state (R457). -/
opaque scanned : Nat → Nat → DWord

/-- A value that SAMPLE, EXTEST, INTEST, SCAN or MBIST captures (R456 names the function, not the chain's contents). -/
opaque captured : Nat → DWord

/-- Whether the predictor mispredicts a branch (R241: its state is not architectural). -/
opaque mispredicted : Nat → Bool

/-- The cycles that an access loses in DET mode outside R255's conditions. -/
opaque slipCycles : Nat → Nat

/-- ERR_ADDR of a test event (R49 gives it no address). -/
opaque testAddr : Nat → DWord

/-- The entry that a translation store without a stated choice replaces (R334, R335). -/
opaque replaced : Nat → Nat

/-- The scale m of LEA with X = 1: LEA makes no access, and R267's m is the access size. -/
opaque leaScale : Nat → DWord

/-- XADDR of a RANGE fault of MOVT, where the text names no access address. -/
opaque rangeAddr : Nat → DWord

/-- DSTID of a request that goes by PHYS: the receiver ignores it (R371), and R372 gives it no value. -/
opaque physDest : Nat → Word

end Sys2Proof.Config
end

