-- ==== Sys2Proof/Machine/Accum.lean ====
section
/-! DEFINITION. Accumulator elements: contributions, the compensated addition, chains, TEW, row statistics' exponential
(05_accumulation.md R119 to R143, 03_number_formats.md R76 to R80, 04_outer_product_engine.md R113, R155 of 06). -/

namespace Sys2Proof.Machine

/-! ## Flags: the seven bits of TILE_TSTAT -/

/-- A set of TILE_TSTAT bits (R142). -/
abbrev TFlags := BitVec 7
def tfINV : TFlags := 0x01#7
def tfOVF : TFlags := 0x02#7
def tfUFL : TFlags := 0x04#7
def tfSAT : TFlags := 0x08#7
def tfLOST : TFlags := 0x10#7
def tfEMPTY : TFlags := 0x20#7
def tfPOISON : TFlags := 0x40#7

/-- The tile flags of a conversion (R82): inexactness has none. -/
def RFlags.toTile (f : RFlags) : TFlags :=
  (if f.inv then tfINV else 0) ||| (if f.ovf then tfOVF else 0) ||| (if f.ufl then tfUFL else 0)
    ||| (if f.sat then tfSAT else 0)

/-! ## Shapes and element formats -/

/-- The accumulator element formats that TBEGIN selects (R76 to R79). -/
inductive AccFmt where
  | i32
  | f32c
  | x128
deriving DecidableEq, Repr

def AccFmt.bytes : AccFmt → Nat
  | .i32 => 4
  | .f32c => 8
  | .x128 => 16

/-- The four shapes (R93), in the order of TBEGIN's SHAPE codes. -/
inductive Shape where
  | s32x32
  | s32x64
  | s32x16
  | s16x16
deriving DecidableEq, Repr

def Shape.rows : Shape → Nat
  | .s16x16 => 16
  | _ => 32

def Shape.cols : Shape → Nat
  | .s32x32 => 32
  | .s32x64 => 64
  | _ => 16

/-- The chain count of a shape (R93). -/
def Shape.chains : Shape → Nat
  | .s32x16 => 2
  | .s16x16 => 4
  | _ => 1

def Shape.ofCode (c : Nat) : Shape :=
  match c % 4 with
  | 0 => .s32x32
  | 1 => .s32x64
  | 2 => .s32x16
  | _ => .s16x16

def Shape.code : Shape → Nat
  | .s32x32 => 0
  | .s32x64 => 1
  | .s32x16 => 2
  | .s16x16 => 3

/-- The element sets a tile keeps: one per chain in F32C, one otherwise (R94). -/
def keptChains (sh : Shape) (f : AccFmt) : Nat := if f = .f32c then sh.chains else 1

/-- The footprint in bytes (R95). -/
def footprint (sh : Shape) (f : AccFmt) : Nat := keptChains sh f * sh.rows * sh.cols * f.bytes

/-- The pool slots a tile occupies: a footprint below 4 KiB still takes one (R95). -/
def slotsOf (sh : Shape) (f : AccFmt) : Nat := max 1 (footprint sh f / 4096)

/-! ## The compensated pair (R76, R77, R127, R128) -/

/-- An F32C element: the sum s and the error term e. -/
structure Pair where
  s : BitVec 32
  e : BitVec 32
deriving DecidableEq, Repr

def Pair.zero : Pair := ⟨0#32, 0#32⟩
def Pair.nan : Pair := ⟨nan32, 0#32⟩
def inf32 (neg : Bool) : BitVec 32 := if neg then 0xFF800000#32 else 0x7F800000#32
def Pair.inf (neg : Bool) : Pair := ⟨inf32 neg, 0#32⟩

/-- The binary32 code, subnormals kept, of a value that binary32 represents. -/
def enc32g : FVal → BitVec 32
  | .nan => nan32
  | .inf n => inf32 n
  | .num n m e => BitVec.ofNat 32 (withSign 31 n (encodeMag fmt32g m e))

/-- RN: nearest-even to binary32 with gradual underflow; `true` beside it when the magnitude reaches 2^128. -/
def rn32 : FVal → FVal × Bool
  | .nan => (.nan, false)
  | .inf n => (.inf n, false)
  | .num n m e =>
    let x := roundMag fmt32g .rne m e
    if x.big then (.inf n, true) else (.num n x.k x.q, false)

/-- The value of a pair (R76): s alone when s is not finite; a zero value has the sign of s. A finite s beside an e that is not
finite, which no update leaves, has the value of e (DESIGN CHOICE, log entry 127). -/
def Pair.value (p : Pair) : FVal :=
  match dec32g p.s with
  | .num n m e =>
    match (FVal.num n m e).add (dec32g p.e) with
    | .num _ 0 _ => .num n 0 0
    | v => v
  | v => v

/-- What the core writes for a pair: where s is not finite, e is +0, and a NaN is the default NaN (R77). -/
def Pair.canon (p : Pair) : Pair :=
  match dec32g p.s with
  | .nan => Pair.nan
  | .inf n => Pair.inf n
  | .num .. => p

/-- The last two steps of ACC and MERGE: add the carried error and renormalise. -/
def renorm (x carried : FVal) : Pair × TFlags :=
  let s1 := rn32 x
  if s1.2 then (Pair.inf x.sign, tfOVF)
  else
    let e2 := rn32 (carried.add (x.sub s1.1))
    let y := s1.1.add e2.1
    let s2 := rn32 y
    if e2.2 || s2.2 then (Pair.inf y.sign, tfOVF)
    else (Pair.canon ⟨enc32g s2.1, enc32g (y.sub s2.1)⟩, 0)

/-- The special cases that ACC and MERGE share: NaN, opposite infinities (INV), an infinity. -/
def pairSpecial (a b : FVal) : Option (Pair × TFlags) :=
  match a, b with
  | .nan, _ => some (Pair.nan, 0)
  | _, .nan => some (Pair.nan, 0)
  | .inf x, .inf y => some (if x == y then (Pair.inf x, 0) else (Pair.nan, tfINV))
  | .inf x, _ => some (Pair.inf x, 0)
  | _, .inf y => some (Pair.inf y, 0)
  | _, _ => none

/-- ACC: adds a contribution to a pair (R127, R128). -/
def acc (p : Pair) (t : FVal) : Pair × TFlags :=
  match pairSpecial (dec32g p.s) t with
  | some r => r
  | none => renorm ((dec32g p.s).add t) (dec32g p.e)

/-- MERGE: the merge of two pairs (R127, R128). -/
def merge (a b : Pair) : Pair × TFlags :=
  match pairSpecial (dec32g a.s) (dec32g b.s) with
  | some r => r
  | none =>
    let x := (dec32g a.s).add (dec32g b.s)
    let y := (dec32g a.e).add (dec32g b.e)
    if (rn32 y).2 && !(rn32 x).2 then (Pair.inf y.sign, tfOVF) else renorm x (rn32 y).1

/-- The negation of a pair, as TEW SUB and NEG take it (R113). -/
def Pair.neg (p : Pair) : Pair :=
  match dec32g p.s with
  | .nan => Pair.nan
  | .inf n => Pair.inf (!n)
  | .num .. => ⟨p.s ^^^ 0x80000000#32, p.e ^^^ 0x80000000#32⟩

/-- The closed value of the chains of one element, and what the merges report (R130, R131). -/
def closeChains : List Pair → Pair × TFlags
  | [c0] => (c0, 0)
  | [c0, c1] => merge c0 c1
  | [c0, c1, c2, c3] =>
    let a := merge c0 c1
    let b := merge c2 c3
    let r := merge a.1 b.1
    (r.1, a.2 ||| b.2 ||| r.2)
  | _ => (Pair.zero, 0)

/-! ## I32 and X128 -/

/-- A sum held at the ends of a `w`-bit two's-complement range, with the flag given when it is held (R78, R80). -/
def holdInt (w : Nat) (fl : TFlags) (n : Int) : Int × TFlags :=
  if 2 ^ (w - 1) - 1 < n then (2 ^ (w - 1) - 1, fl)
  else if n < -(2 ^ (w - 1)) then (-(2 ^ (w - 1)), fl)
  else (n, 0)

/-- A finite contribution rounded toward zero to a multiple of 2^W, in units of 2^W (R80). -/
def windowed (W : Int) (n : Bool) (m : Nat) (e : Int) : Int × TFlags :=
  let r := roundAt .tz m e W
  (signed n r.1, if r.2 then tfLOST else 0)

/-- Adds a contribution to an X128 element (R80): an invalid product holds N at the upper end and adds INV. -/
def x128Add (W N : Int) : FVal → Int × TFlags
  | .nan => (2 ^ 127 - 1, tfOVF ||| tfINV)
  | .inf n => (if n then -(2 ^ 127) else 2 ^ 127 - 1, tfOVF)
  | .num n m e =>
    let c := windowed W n m e
    let r := holdInt 128 tfOVF (N + c.1)
    (r.1, c.2 ||| r.2)

/-! ## Contributions (R123 to R126) -/

/-- What one K-block gives one element: its exact value, whether it is an invalid product, the flags it sets. -/
structure Contribution where
  val : FVal
  invalid : Bool
  flags : TFlags
deriving DecidableEq, Repr

/-- The exact integer sum of the element products (R67, R86). -/
def blockSum (a b : List Int) : Int := (a.zipWith (· * ·) b).foldl (· + ·) 0

/-- The products of a block pair with a non-finite block, from the decoded values of R66 (R124): whether a product is
invalid, whether a +infinity and whether a -infinity is among them. -/
def specialProducts (ea eb : Byte) (a b : List Int) : Bool × Bool × Bool :=
  (a.zip b).foldl
    (fun st xy =>
      match (bxVal ea xy.1).mul (bxVal eb xy.2) with
      | .nan => (true, st.2.1, st.2.2)
      | .inf n => (st.1, st.2.1 || !n, st.2.2 || n)
      | .num .. => st)
    (false, false, false)

/-- The exact contribution before the format of the tile is taken into account (R123, R124). -/
def exactContribution (ea eb : Byte) (a b : List Int) : FVal × Bool :=
  match bxKind ea, bxKind eb with
  | .finite, .finite =>
    let s := blockSum a b
    (if s = 0 then .num false 0 0 else FVal.ofScaled s ((ea.toNat : Int) + eb.toNat - 254), false)
  | .nonfinite, _ | _, .nonfinite =>
    let p := specialProducts ea eb a b
    if p.1 || (p.2.1 && p.2.2) then (.nan, true) else (.inf p.2.2, false)
  | _, _ => (.num false 0 0, false)

/-- The contribution to an F32C element (R125). -/
def contribF32C (satovf : Bool) (ea eb : Byte) (a b : List Int) : Contribution :=
  match exactContribution ea eb a b with
  | (.num n m e, _) =>
    if m = 0 then ⟨.num false 0 0, false, 0⟩
    else if 128 ≤ leadExp m e then
      (if satovf then ⟨.num n (2 ^ 24 - 1) 104, false, tfSAT⟩ else ⟨.inf n, false, tfOVF⟩)
    else if leadExp m e < -126 then ⟨.num n 0 0, false, tfUFL⟩
    else ⟨.num n m e, false, 0⟩
  | (v, inv) => ⟨v, inv, if inv then tfINV else 0⟩

/-- The operand that holds a non-finite block: bit 0 for A, bit 1 for B (R139). -/
def opndCode (ea eb : Byte) : Nat :=
  (if bxKind ea = .nonfinite then 1 else 0) + (if bxKind eb = .nonfinite then 2 else 0)

/-! ## Preloads (R121) -/

def preloadPair (v : BitVec 32) : Pair :=
  match dec32 v with
  | .nan => Pair.nan
  | .inf n => Pair.inf n
  | .num n m _ => ⟨if m = 0 then (if n then 0x80000000#32 else 0#32) else v, 0#32⟩

def preloadX128 (W : Int) (v : BitVec 32) : Int × TFlags :=
  match dec32 v with
  | .nan => (2 ^ 127 - 1, tfOVF)
  | x => x128Add W 0 x

/-! ## EXP2A (R155) -/

/-- 2^(j/64) rounded to binary32 by nearest-even, for j = 0 to 63, as binary32 codes. -/
def exp2TableA : List Nat :=
  [0x3F800000, 0x3F8164D2, 0x3F82CD87, 0x3F843A29, 0x3F85AAC3, 0x3F871F62, 0x3F88980F, 0x3F8A14D5,
   0x3F8B95C2, 0x3F8D1ADF, 0x3F8EA43A, 0x3F9031DC, 0x3F91C3D3, 0x3F935A2B, 0x3F94F4F0, 0x3F96942D,
   0x3F9837F0, 0x3F99E046, 0x3F9B8D3A, 0x3F9D3EDA, 0x3F9EF532, 0x3FA0B051, 0x3FA27043, 0x3FA43516,
   0x3FA5FED7, 0x3FA7CD94, 0x3FA9A15B, 0x3FAB7A3A, 0x3FAD583F, 0x3FAF3B79, 0x3FB123F6, 0x3FB311C4]
def exp2TableB : List Nat :=
  [0x3FB504F3, 0x3FB6FD92, 0x3FB8FBAF, 0x3FBAFF5B, 0x3FBD08A4, 0x3FBF179A, 0x3FC12C4D, 0x3FC346CD,
   0x3FC5672A, 0x3FC78D75, 0x3FC9B9BE, 0x3FCBEC15, 0x3FCE248C, 0x3FD06334, 0x3FD2A81E, 0x3FD4F35B,
   0x3FD744FD, 0x3FD99D16, 0x3FDBFBB8, 0x3FDE60F5, 0x3FE0CCDF, 0x3FE33F89, 0x3FE5B907, 0x3FE8396A,
   0x3FEAC0C7, 0x3FED4F30, 0x3FEFE4BA, 0x3FF28177, 0x3FF5257D, 0x3FF7D0DF, 0x3FFA83B3, 0x3FFD3E0C]
def exp2Table : List Nat := exp2TableA ++ exp2TableB

/-- RN of EXP2A: nearest-even to binary32. -/
def rnE (v : FVal) : FVal := (rn32 v).1

/-- EXP2A of a binary32 value at most 0, exactly as the pseudocode of R155. -/
def exp2a (d : FVal) : FVal :=
  match d with
  | .nan => .nan
  | .inf n => if n then .num false 0 0 else FVal.ofInt 1
  | .num n m e =>
    if d.cmp (FVal.ofInt (-126)) = .lt then .num false 0 0
    else
      let x64 := signed n m * (if 0 ≤ e then 2 ^ e.toNat else 1)
      let den : Int := if 0 ≤ e then 1 else 2 ^ (-e).toNat
      let fl := Int.fdiv x64 den
      let fnum := x64 - fl * den
      let j := (64 * fnum / den).toNat
      let ee : Int := if 0 ≤ e then 0 else e
      let g := rnE ((FVal.ofScaled fnum ee).sub (FVal.ofScaled (j : Int) (-6)))
      let t1 := rnE ((dec32 0x3E75FDF0#32).mul g)
      let t2 := rnE ((dec32 0x3F317218#32).add t1)
      let t3 := rnE (g.mul t2)
      let p := rnE ((FVal.ofInt 1).add t3)
      match rnE ((dec32 (BitVec.ofNat 32 (exp2Table.getD j 0x3F800000))).mul p) with
      | .num nn mm qq =>
        let r := FVal.num nn mm (qq + fl)
        if mm = 0 then .num false 0 0
        else if leadExp mm (qq + fl) < -126 then .num false 0 0
        else if r.cmp (FVal.ofInt 1) = .gt then FVal.ofInt 1
        else r
      | v => v

end Sys2Proof.Machine
end

