-- ==== Sys2Proof/Machine/Convert.lean ====
section
/-! DEFINITION. The output conversion of TCONV as functions of values: stages, generator, block scales, statistics
(06_output_conversion.md R144 to R156). -/

namespace Sys2Proof.Machine

/-! ## The stochastic generator (R149, R150) -/

/-- STEP of one lane: the new state, which is also the random word. -/
def rngStep (x : BitVec 32) : BitVec 32 :=
  let a := x ^^^ (x <<< 13)
  let b := a ^^^ (a >>> 17)
  b ^^^ (b <<< 5)

/-- SEED: the 32 lane states of a seed. -/
def rngSeed (lo : BitVec 32) : List (BitVec 32) :=
  (List.range 32).map fun l =>
    let x := lo ^^^ BitVec.ofNat 32 (l * 0x9E3779B9)
    if x = 0#32 then 1#32 else x

/-- Advances the lanes of one output row of `n` columns, column j on lane j mod 32; answers the words in column order. -/
def rngRow (lanes : List (BitVec 32)) : Nat → List (BitVec 32) × List (BitVec 32)
  | 0 => (lanes, [])
  | n + 1 =>
    let r := rngRow lanes n
    let w := rngStep (r.1.getD (n % 32) 0#32)
    (r.1.set (n % 32) w, r.2 ++ [w])

/-- The rounding of an element with random word `w` (R148): R is the top `rbits` bits. -/
def srRnd (rbits : Nat) (w : BitVec 32) : Rnd := .sr rbits (w.toNat >>> (32 - rbits))

/-! ## Stages 2 to 4 (R144, R145) -/

/-- One exact stage: its value, and INV when two numbers gave NaN. -/
def stageOp (f : FVal → FVal → FVal) (x : FVal) (b : Option FVal) : FVal × TFlags :=
  match b with
  | none => (x, 0)
  | some y => (f x y, if (f x y).isNan && !x.isNan && !y.isNan then tfINV else 0)

/-- The clip, in the order of R145; a NaN passes unchanged. -/
def clipVal (z : FVal) (c : Option (FVal × FVal)) : FVal :=
  match c with
  | none => z
  | some (lo, hi) =>
    if z.isNan then z
    else
      let a := if z.cmpZ lo = .lt then lo else z
      if a.cmpZ hi = .gt then hi else a

/-- Stages 2 to 4 of one element. -/
def stages (x : FVal) (scale bias : Option FVal) (clip : Option (FVal × FVal)) : FVal × TFlags :=
  let y := stageOp FVal.mul x scale
  let z := stageOp FVal.add y.1 bias
  (clipVal z.1 clip, y.2 ||| z.2)

/-- Stage 5a: the statistic value, as a value (R144). -/
def statValue (z : FVal) : FVal := dec32 (to32 .rne z).1

/-- Stage 5b for the element formats: the bytes' number, and the flags (R82). `ofmt` is a code of R61. -/
def outElem (ofmt : Nat) (r : Rnd) (z : FVal) : Nat × TFlags :=
  match ofmt with
  | 0x0 => let x := to32 r z; (x.1.toNat, x.2.toTile)
  | 0x2 => let x := toPF16 r z; (x.1.toNat, x.2.toTile)
  | 0x3 => let x := toPF8 r z; (x.1.toNat, x.2.toTile)
  | 0x8 => let x := toIntSat (-128) 127 r z; ((BitVec.ofInt 8 x.1).toNat, x.2.toTile)
  | _ => let x := toIntSat (-(2 ^ 31)) (2 ^ 31 - 1) r z; ((BitVec.ofInt 32 x.1).toNat, x.2.toTile)

/-- The size in bytes of an element output format (R61). -/
def outBytes (ofmt : Nat) : Nat :=
  match ofmt with
  | 0x0 => 4
  | 0x2 => 2
  | 0x3 => 1
  | 0x8 => 1
  | _ => 4

/-! ## Block scales (R151, R152, R83) -/

/-- The larger magnitude of two finite values. -/
def maxMag (a b : FVal) : FVal := if a.abs.cmp b.abs = .lt then b.abs else a.abs

/-- The scale byte of a block with at least one finite non-zero live value of magnitude `M` (R151 steps 3 and 4);
`big` is the largest element: 127 or 7. -/
def chooseE (big : Nat) (M : FVal) : Nat :=
  match M with
  | .num _ m e =>
    let e0 := leadExp m e + (if big = 127 then 121 else 125)
    let E := if (FVal.num false m (e + 127 - e0)).cmp (FVal.ofInt big) = .gt then e0 + 1 else e0
    (max 1 (min 0xFE E)).toNat
  | _ => 0xFF

/-- One position of a block: padding or masked, or a live value with its rounding. -/
abbrev BxPos := Option (FVal × Rnd)

/-- One element of a finite block of scale E, held at the largest element with SAT. -/
def bxElem (big E : Nat) : BxPos → Int × TFlags
  | none => (0, 0)
  | some (v, r) =>
    match v with
    | .num n m e =>
      let k := (roundAt r m e ((E : Int) - 127)).1
      if big < k then (signed n big, tfSAT) else (signed n k, 0)
    | _ => (0, 0)

/-- One element of a non-finite block (R83). -/
def bxSpecial : BxPos → Int
  | some (.inf n, _) => if n then -1 else 1
  | _ => 0

/-- A block encoded from its positions: its element integers, its scale byte and its flags (R151, R83). -/
def encodeBlock (big : Nat) (ps : List BxPos) : List Int × Byte × TFlags :=
  let live := ps.filterMap fun p => p.map Prod.fst
  if live.any fun v => v.isNan || v.isInf then
    (ps.map bxSpecial, 0xFF#8, if live.any fun v => !(v.isNan || v.isInf) then tfINV else 0)
  else
    let M := live.foldl maxMag (.num false 0 0)
    if M.isZero then (ps.map fun _ => 0, 0#8, 0)
    else
      let E := chooseE big M
      let xs := ps.map (bxElem big E)
      (xs.map Prod.fst, BitVec.ofNat 8 E, xs.foldl (fun f x => f ||| x.2) 0)

/-- Pairs of four-bit elements as bytes, the even element low (R63). -/
def packNibbles : List Int → List Byte
  | a :: b :: r => (BitVec.ofInt 4 b ++ BitVec.ofInt 4 a) :: packNibbles r
  | [a] => [BitVec.ofInt 4 0 ++ BitVec.ofInt 4 a]
  | [] => []

/-- The 32 bytes of a block's elements (R63). -/
def packBlock (wide : Bool) (xs : List Int) : List Byte :=
  if wide then xs.map (BitVec.ofInt 8) else packNibbles xs

/-- Cuts a list into blocks of `n` positions, the last one padded (R151, R152); `k` blocks. -/
def cutBlocks (n : Nat) (ps : List BxPos) : Nat → List (List BxPos)
  | 0 => []
  | k + 1 => (ps.take n ++ List.replicate (n - (ps.take n).length) none) :: cutBlocks n (ps.drop n) k

/-! ## Row statistics (R153, R154) -/

/-- The larger of two values with +0 above -0. -/
def maxZ (a b : FVal) : FVal := if a.cmpZ b = .lt then b else a

/-- The largest w of a row; an empty row gives -infinity (R154). -/
def statMax : List FVal → FVal
  | [] => .inf true
  | w :: ws => ws.foldl maxZ w

/-- SUM: ACC from (+0, +0) in ascending column order; the steps set no flag. A subnormal s is written as it stands (R77; DESIGN CHOICE,
log entry 128). -/
def statSum (ws : List FVal) : BitVec 32 := (ws.foldl (fun p w => (acc p w).1) Pair.zero).s

/-- One term of MAXEXP: exactly 1 where w = m, else EXP2A of w - m rounded to binary32. -/
def expTerm (m w : FVal) : FVal :=
  if w.cmp m = .eq then FVal.ofInt 1 else exp2a (dec32 (to32 .rne (w.sub m)).1)

/-- The words written for one row by STAT: 1 MAX, 2 SUM, 3 MAXEXP (R153, R154). -/
def rowStat (stat : Nat) (ws : List FVal) : List (BitVec 32) :=
  if ws.any FVal.isNan then (if stat = 3 then [nan32, nan32] else [nan32])
  else
    let m := statMax ws
    match stat with
    | 1 => [enc32g m]
    | 2 => [statSum ws]
    | _ => [enc32g m, if m = .inf true then 0#32 else statSum (ws.map (expTerm m))]

end Sys2Proof.Machine
end

