-- ==== Sys2Proof/Machine/Mem.lean ====
section
/-! DEFINITION. Byte storage as sorted cells, and sorted maps of words. An address that is not listed reads as 0. -/

namespace Sys2Proof.Machine

/-- Byte storage: cells with strictly rising addresses, none of them 0; an unlisted address reads as 0 (R363, R428:
storage is zeroed before use). -/
abbrev Memory := List Host.Cell

/-- The canonical form: addresses strictly rising, no listed byte equal to what an unlisted address reads as. -/
abbrev Memory.wf (m : Memory) : Prop := m.Pairwise (fun a b => a.1 < b.1) ∧ ∀ c ∈ m, c.2 ≠ 0#8

/-- The byte at an address. -/
def Memory.get : Memory → Nat → Byte
  | [], _ => 0#8
  | c :: m, a => if c.1 = a then c.2 else Memory.get m a

/-- The bytes from `a` on, `n` of them. -/
def Memory.read (m : Memory) (a : Nat) : Nat → List Byte
  | 0 => []
  | n + 1 => m.get a :: m.read (a + 1) n

/-- The cells of bytes stored from `a` on; bytes that are 0 need none. -/
def cellsOf (a : Nat) : List Byte → Memory
  | [] => []
  | b :: bs => if b = 0#8 then cellsOf (a + 1) bs else (a, b) :: cellsOf (a + 1) bs

/-- The storage with `bs` written from `a` on: the one way bytes are written. -/
def Memory.write (m : Memory) (a : Nat) (bs : List Byte) : Memory :=
  m.filter (fun c => c.1 < a) ++ cellsOf a bs ++ m.filter (fun c => a + bs.length ≤ c.1)

/-- The storage with the `n` bytes from `a` on zeroed. -/
def Memory.clear (m : Memory) (a n : Nat) : Memory := m.filter fun c => c.1 < a || a + n ≤ c.1

/-- A number from its bytes, the first lowest. -/
def leNat : List Byte → Nat
  | [] => 0
  | b :: bs => b.toNat + 256 * leNat bs

/-- The `n` low bytes of a number, the lowest first. -/
def leBytes (x : Nat) : Nat → List Byte
  | 0 => []
  | n + 1 => BitVec.ofNat 8 x :: leBytes (x / 256) n

/-- The little-endian number of `n` bytes at `a`. -/
def Memory.num (m : Memory) (a n : Nat) : Nat := leNat (m.read a n)

/-! ## Maps of words -/

/-- A finite map from numbers to words, keys rising. -/
abbrev WMap := List (Nat × Word)

def WMap.get? : WMap → Nat → Option Word
  | [], _ => none
  | c :: m, k => if c.1 = k then some c.2 else WMap.get? m k

/-- The value of a key, 0 where the map lists none. -/
def WMap.get (m : WMap) (k : Nat) : Word := (m.get? k).getD 0#32

def WMap.set (m : WMap) (k : Nat) (v : Word) : WMap :=
  m.filter (fun c => c.1 < k) ++ (k, v) :: m.filter (fun c => k < c.1)

def WMap.erase (m : WMap) (k : Nat) : WMap := m.filter fun c => c.1 ≠ k

end Sys2Proof.Machine
end

