-- ==== Sys2Proof/Machine/StateCore.lean ====
section
/-! DEFINITION. The state of the tile engine, the bell unit, the Tally and the pipeline (04 to 15). Plain data. -/

namespace Sys2Proof.Machine

/-! ## Tile engine (04 to 08) -/

/-- A stream in scratchpad form: the offset of element block (0, 0), that of its scale byte, and the strides (R90, R196). -/
structure Stream where
  off : Nat
  soff : Nat
  ls : Nat
  ks : Nat
deriving DecidableEq, Repr

/-- What TBEGIN fixes for a live name (R93, R119, R130, R195 NAMES). -/
structure NameInfo where
  shape : Shape
  fmt : AccFmt
  wbase : Int
  opn : Bool
deriving DecidableEq, Repr

/-- One segment of the crate state: its row mask, its BTID, its key BREC and its B record (R168, R169). -/
structure Segment where
  mask : BitVec 32
  btid : BitVec 16
  brec : DWord
  bgn : DWord
  bgn1 : DWord
deriving DecidableEq, Repr

/-- The crate state with its reference: header offset, first slot, rows (R169, R195). -/
structure Crate where
  segs : List Segment
  hdr : Nat
  first : Nat
  rows : Nat
deriving DecidableEq, Repr

/-- One view of the control component that R182 keeps twice: the live names and the crate state. -/
structure TileView where
  names : List (Option NameInfo)
  crate : Option Crate
deriving DecidableEq, Repr

/-- The queued tile instructions (R105). -/
inductive TileOp where
  | tbegin
  | tmma
  | tmmaSeg
  | tclose
  | tconv
  | tload
  | tstore
  | tsave
  | trestore
  | tcrate
  | tew
  | tmask
deriving DecidableEq, Repr

/-- A TCONV parameter record as captured at TR, its addresses in scratchpad form (R157, R159). -/
structure ConvRec where
  recOff : Nat
  scaleOff : Nat
  biasOff : Nat
  statOff : Nat
  biasStride : Nat
  clipLo : Word
  clipHi : Word
  seed : DWord
deriving DecidableEq, Repr

/-- A queued tile instruction in captured form, with its progress (R103, R181, R195, R196). -/
structure TileEntry where
  itag : Byte
  /-- The model's own number of the instruction in program order; issue tags repeat (R104, R187). -/
  seq : Nat
  op : TileOp
  ctl : Word
  kb : Nat
  /-- KBOFF of TMMA.SEG, KSTART of TCRATE, RSTRIDE of TBEGIN. -/
  aux : Nat
  a : Stream
  b : Stream
  /-- The B streams of TMMA.SEG's segments, in segment order. -/
  bs : List Stream
  conv : Option ConvRec
  /-- The crate state that a TCRATE establishes, or that a TMMA.SEG uses. -/
  crate : Option Crate
  /-- The offsets of A data and A scale of TCRATE's rows. -/
  rows : List (Nat × Nat)
  maskr : Word
  maskc : DWord
  priv : BitVec 2
  tid : BitVec 16
  trapinv : Bool
  /-- STARTED, PASS and KDONE of the progress word (R196). -/
  started : Bool
  pass : Nat
  kdone : Nat
  /-- Flags and the first invalid product collected so far; they are reported at completion (R107, R116). -/
  flags : TFlags
  invalid : Bool
  faultpos : Option (DWord × DWord)
  /-- The image offset and the control bits of TSAVE and TRESTORE. -/
  image : Nat
  /-- The enabled windows as its checks found them at TR: first and last byte, weight class or not (R103, R349). -/
  wins : List (Nat × Nat × Bool)
  /-- The first unit that a read for it at TR found uncorrectable (R189, R361). -/
  badUnit : Option Nat
  /-- What its accesses meet, given at its start, a TSAVE's at its issue (R189, R351). -/
  meets : TileErr
deriving DecidableEq, Repr

/-- A page write that waits for queued tile instructions (R118, R149, R163). -/
inductive LateWrite where
  | maskr (v : Word)
  | maskc (v : DWord)
  | seed (v : DWord)
  | rbits (v : BitVec 5)
deriving DecidableEq, Repr

/-- What a TRESTORE has read at TR and gives the engine when it completes (R197 to R199): the engine view, the control area,
the entries. -/
structure Restored where
  view : TileView
  ctl : List Byte
  entries : List TileEntry
deriving DecidableEq, Repr

/-- The state of the tile engine. -/
structure Tile where
  /-- Operand tiles T0 to T7: 4,224 bytes each, Tn at 4224 n, elements before scale bytes (R87, R195). -/
  ops : Memory
  /-- The accumulator pool, slot k at 4096 k (R95). -/
  pool : Memory
  issue : TileView
  engine : TileView
  tuseOp : BitVec 8
  poison : BitVec 32
  poisonOp : BitVec 8
  maskr : Word
  maskc : DWord
  nextItag : Byte
  queue : List TileEntry
  /-- The next number in program order, and that of the instruction that the deferred-trap record names (R187). -/
  nextSeq : Nat
  trapSeq : Nat
  /-- The head of the queue is running. -/
  busy : Bool
  /-- A TSAVE has left TR and the engine drains; the running TMMA or TMMA.SEG has added its last group (R192). -/
  draining : Bool
  stopped : Bool
  /-- A TRESTORE has left TR and has not completed. -/
  restored : Option Restored
  /-- Page writes ordered behind queued instructions: how many, what, and the remote request to answer (R43, R118). -/
  late : List (Nat × LateWrite × Option InMsg)
  /-- Remote writes of TILE_TUSE and TILE_TUSE_OP that wait for an idle engine (R117): register offset, value, and the
  request to answer. -/
  heldTuse : List (Nat × Word × Option InMsg)
  /-- The conversion stage: CONV_SEED, RBITS, the lanes (R149, R163). -/
  seed : DWord
  rbits : BitVec 5
  lanes : List Word
deriving DecidableEq, Repr

/-- The remote requests whose writes wait for the engine, to be answered when they take effect (R43, R117, R118). -/
def Tile.unanswered (t : Tile) : List InMsg := t.heldTuse.filterMap (fun h => h.2.2) ++ t.late.filterMap fun l => l.2.2

/-! ## Bell, Tally, sync counters (09) -/

/-- The bell unit (R201 to R211). -/
structure Bell where
  tick : BitVec 40
  /-- C, the cycle within the bell. -/
  c : Nat
  /-- Cycles spent holding at BELL_PERIOD - 1. -/
  ot : Nat
  unsync : Bool
  /-- The per-bell actions at C = SPLIT and C = APPLY_AT of this bell are done, or do not take place (R205, R208). -/
  splitDone : Bool
  applyDone : Bool
deriving DecidableEq, Repr

/-- A slot descriptor as the Tally keeps it (R212, R213). -/
structure TallyDesc where
  dest : Nat
  arena : Nat
  idLo : Word
  idHi : Word
  count : Nat
  expect : Nat
  replace : Bool
  op : Nat
  fmt : Nat
  doneEn : Bool
  done : Nat
  wbase : Int
deriving DecidableEq, Repr

/-- A row of an arena buffer: source, bytes staged, the stamp of its first message (R214). -/
structure TallyRow where
  src : Word
  staged : Nat
  stamp : DWord
deriving DecidableEq, Repr

/-- One Tally slot. -/
structure TallySlot where
  /-- The bit of TALLY_ARM took effect and the descriptor has not been read yet (R212). -/
  unread : Bool
  desc : Option TallyDesc
  /-- The first tick accepted since arming (R213). -/
  armedAt : BitVec 40
  /-- The tick from which the slot accepts nothing more, once disarmed (R213). -/
  disarmedAt : Option (BitVec 40)
  rows0 : List TallyRow
  rows1 : List TallyRow
deriving DecidableEq, Repr

/-- A TALLY message at the receiver (R215). -/
structure TallyMsg where
  src : Word
  su : Bool
  tid : BitVec 16
  slot : BitVec 6
  offset : BitVec 21
  stamp : DWord
  data : List Byte
deriving DecidableEq, Repr

/-- The slot that an apply is working on: its number, its descriptor, its complete rows with their places in the buffer. -/
structure TallyWork where
  slot : Nat
  desc : TallyDesc
  rows : List (Nat × TallyRow)
deriving DecidableEq, Repr

/-- An apply that runs: the tick it closes, the slot in progress, the slots that follow, its cycles so far (R220). -/
structure TallyApply where
  tick : BitVec 40
  cur : TallyWork
  todo : List Nat
  cycles : Nat
deriving DecidableEq, Repr

/-- The Tally (R212 to R225). -/
structure Tally where
  slots : List TallySlot
  apply : Option TallyApply
  /-- The apply that begins once the slot of an abandoned one has completed: the tick it closes and its slots (R223). -/
  due : Option (BitVec 40 × List Nat)
  /-- Contributions that wait in the network interface, oldest first; whether each waits as one held for the next tick (R212,
  R217). -/
  waiting : List (TallyMsg × Bool)
deriving DecidableEq, Repr

/-! ## Pipeline (10 to 12) -/

/-- One entry frame: XIP, XFLAGS, XCAUSE, XADDR, XBRC of a level (R260, R287). -/
structure Frame where
  xip : DWord
  xflags : DWord
  xcause : DWord
  xaddr : DWord
  xbrc : DWord
deriving DecidableEq, Repr

/-- Where a load writes (R267, R282, R298, R299): a G register with its extension, an F register, a view, one element
of a view (its width in bits and index), or the state register of a CRC unit. -/
inductive LoadDest where
  | g (n : Fin 32) (sgn : Bool)
  | f (n : Fin 32)
  | v (wide : Bool) (n : Fin 32)
  | el (wide : Bool) (n : Fin 32) (w k : Nat)
  | crc (n : Fin 32) (sel : Nat)
deriving DecidableEq, Repr

/-- A committed load whose data has not arrived whole: its pipeline tag, its destination, its bytes in order, how many
of them are missing, whether a part was uncorrectable or answered by an error (R233, R284), and the bytes of older stores
still in the store buffer that go over them (R240). -/
structure LoadJob where
  id : Nat
  tag : BitVec 16
  dest : LoadDest
  bytes : List Byte
  missing : Nat
  bad : Bool
  fwd : List (Nat × List Byte)
deriving DecidableEq, Repr

/-- Bytes that a load waits for: the load, the position they fill, where they stand in what arrives, how many. -/
structure Piece where
  job : Nat
  pos : Nat
  off : Nat
  len : Nat
deriving DecidableEq, Repr

/-- An access target after translation (R38, R306, R346, R368, R412): the own scratchpad, with the class of each unit
touched, weight or not, as its check found it (R357), the own register window, the BOOT port, anything else by its
physical address. -/
inductive Target where
  | spx (off : Nat) (wt : List Bool)
  | regs (off : Nat)
  | boot (off : Nat)
  | phys (pa : Nat)
deriving DecidableEq, Repr

/-- A translated part of an access: where it goes, its length, whether it is cacheable, its effective type (R306, R328),
the size of its page as a power of two, 64 for an untranslated access (R311). -/
structure Part where
  tgt : Target
  len : Nat
  cacheable : Bool
  device : Bool
  strict : Bool
  page : Nat
deriving DecidableEq, Repr

/-- A part of a committed load that waits in M1 (R307, R378, R379): its pipeline tag, NT, the lookup error given for it, whether it
has looked the cache up, the bytes it brings. -/
structure M1Part where
  part : Part
  nt : Bool
  chk : ArrayErr
  looked : Bool
  ptag : BitVec 16
  piece : Piece
deriving DecidableEq, Repr

/-- A loop that the loop buffer captures or serves (R242): its first instruction's address and the end of its last, the
instructions committed in this iteration, what was fetched for them, and whether the buffer holds the loop. -/
structure LoopBuf where
  lo : DWord
  hi : DWord
  count : Nat
  keys : List (Nat × Nat)
  full : Bool
deriving DecidableEq, Repr

/-- What an entry of the store buffer asks for (R237, R272, R275, R276, R318). -/
inductive SbKind where
  /-- A store: its parts, lower half first, with their bytes (R284). -/
  | store (parts : List (Part × List Byte)) (nt : Bool)
  | sadd (id : Word) (n : BitVec 6) (v : Word)
  | fence
  /-- A maintenance form on a line: 0 clean, 1 invalidate, 2 clean and invalidate (R315). -/
  | maint (op : Nat) (line : Nat)
  /-- The same on a set and way (R317). -/
  | maintSW (op set way : Nat)
  | invAll
  /-- A preload of L1D: line and way (R313). -/
  | preload (line way : Nat)
  /-- A BCOPY unit: its sources, its destination, the bytes gathered so far (R278). -/
  | copy (src dst : List Part) (nt : Bool) (got : List Byte)
  | fill (dst : List Part) (bytes : List Byte) (nt : Bool)
  /-- A MOVT unit: its source, tally address word, stamp; `drop`: nothing is sent (R219). -/
  | movt (src : List Part) (taw : DWord) (stamp : DWord) (drop : Bool)
deriving DecidableEq, Repr

/-- An entry of the store buffer: the pipeline tag and the TID of its instruction, and whether it asked for something
whose answer it waits for before it can be performed. -/
structure SbEntry where
  tag : BitVec 16
  tid : BitVec 16
  kind : SbKind
  waiting : Bool
deriving DecidableEq, Repr

/-- The operation in the divide-and-root unit with its result (R238). -/
structure DivJob where
  fp : Bool
  dest : Fin 32
  val : DWord
  sticky : BitVec 5
deriving DecidableEq, Repr

/-- The crate list header as read (R164). -/
structure CrateHdr where
  va : Nat
  off : Nat
  base : Nat
  size : Nat
  head : Nat
deriving DecidableEq, Repr

/-- A TCRATE TAKE that waits at TR: its words, the header that steps 1 to 3 read, a unit of it that was uncorrectable, KB, and
the counter's value when the wait ended (R167, R171). -/
structure TakeWait where
  args : TileArgs
  hdr : CrateHdr
  bad : List Nat
  kb : Nat
  count : Option Nat
deriving DecidableEq, Repr

/-- Why the instruction at IP waits at TR, or fetch waits (R237, R274, R341). -/
inductive Wait where
  | none
  | syncwait (n : Nat) (h : Word)
  | tsync
  | take (w : TakeWait)
  | xinv
  | wfi
deriving DecidableEq, Repr

/-- An entry line: its physical address when it was loaded (R246). -/
abbrev EntryLine := Option DWord

/-- The pipeline's state (R231 to R262). -/
structure Cpu where
  g : Vector DWord 32
  f : Vector DWord 32
  ip : DWord
  flags : DWord
  brs : DWord
  bre : DWord
  brc : DWord
  veidx : DWord
  tid : BitVec 16
  frameS : Frame
  frameM : Frame
  /-- VEC_S_EXC, VEC_S_IRQ, VEC_M_EXC, VEC_M_IRQ, VEC_M_NMI, VEC_M_MCHK. -/
  vecs : Vector DWord 6
  lines : Vector (Option DWord) 6
  /-- The entry line that the core executes from since the last entry: its address over 64 (R246). -/
  fromLine : Option Nat
  /-- The fetch buffer: what has been fetched since execution last left the sequence, by kind of target and number: 0 a unit
  of the own scratchpad, 1 a window of physical addresses, each of 32 bytes or of 16 in DET mode, 2 a doubleword of the BOOT
  port (R231, R254). -/
  fetched : List (Nat × Nat)
  /-- The instruction at TR loads entry lines, and what it has fetched for them stays in the buffer (R246, R273). -/
  lineLoad : Bool
  /-- The loop buffer (R242). -/
  loop : Option LoopBuf
  /-- The next pipeline tag (R234, CORE_ITAG). -/
  ptag : BitVec 16
  /-- The instruction at IP has been issued with the tag `ptag`; some of its units have committed; it is a REP instruction with
  units to commit (R234, R247, R248). -/
  issued : Bool
  midUnits : Bool
  repOpen : Bool
  loads : List LoadJob
  nextJob : Nat
  /-- The parts of committed loads that wait in M1, oldest first (R307). -/
  m1 : List M1Part
  sb : List SbEntry
  div : Option DivJob
  wait : Wait
  /-- The load or store at TR has waited under R106 for these: the accumulator tiles that a queued tile instruction names
  as CD or CS, with its number in program order (R187). -/
  waited : List (Nat × Nat)
  /-- A load or store that a source was taken before while a deferred trap was due at it: its address, and the trap by the number of
  its instruction (R188). -/
  trapOwed : Option (DWord × Nat)
  /-- irq_nmi latched; irq_ext as sampled; a machine check whose entry is due (R243, R256). -/
  nmi : Bool
  ext : BitVec 8
  mchkDue : Bool
  /-- The stamp of the MOVT execution in progress (R279). -/
  movtStamp : Option DWord
  /-- The asynchronous sources that are due, by the numbers of dueIds, with the cycles for which REPNI or a wake has delayed each
  (R248, R250). -/
  dues : List (Nat × Nat)
  /-- A DBG_CTRL halt request that waits for its entry (R458). -/
  haltDue : Bool
  /-- Halted by DBG_CTRL; a step is in progress (R458). -/
  halted : Bool
  stepping : Bool
deriving DecidableEq, Repr

/-! ## Caches (13) -/

/-- A line that is not Invalid: its physical address, whether it is Dirty, its 64 bytes, and an error of its data, tag or state
that the next use of the line meets (R305, R321). -/
structure CLine where
  line : Nat
  dirty : Bool
  data : List Byte
  err : ArrayErr
deriving DecidableEq, Repr

/-- One cache: its lines by 16 * set + way, its tree bits by set, node n at bit n (R304, R308). -/
structure Cache where
  lines : List (Nat × CLine)
  tree : WMap
deriving DecidableEq, Repr

/-- A line fill (R307, R309, R311): its cache, the way it holds, the evicted line whose write it waits for, the page size of a demand
miss whose next line is still to be requested, whether it is a prefetch, whether its data is to be discarded (R318), whether it
belongs to a DPRELOAD, the pipeline tag and the TID of its access, the loads it serves. -/
structure Fill where
  ic : Bool
  set : Nat
  way : Nat
  line : Nat
  evicts : Option Nat
  next : Option Nat
  prefetch : Bool
  discard : Bool
  preload : Bool
  tag : BitVec 16
  tid : BitVec 16
  pieces : List Piece
deriving DecidableEq, Repr

/-- Both caches, the fills, the Dirty lines of retired ways that are still to be written back (R321), the streaming detector: NEXT,
COUNT, where its run began (R310). -/
structure Caches where
  i : Cache
  d : Cache
  fills : List Fill
  leaving : List (Nat × List Byte)
  next : DWord
  count : Nat
  runFrom : DWord
deriving DecidableEq, Repr

/-! ## Translation (14) -/

/-- An entry of a translation store, and whether its parity is wrong (R334, R337). -/
structure TlbEntry where
  va : DWord
  size : Nat
  level : Nat
  tid : BitVec 16
  g : Bool
  u : Bool
  x : Bool
  w : Bool
  r : Bool
  mt : Nat
  pa : DWord
  bad : Bool
deriving DecidableEq, Repr

/-- A walk in progress: its number, address, TID, access kind, whether an invalidation covered it meanwhile (R332, R333); the
address-space entry that it read; the table and level that it stands at, none before the address-space entry; the answer of its read
outside the scratchpad once that has arrived, inner none for an error. -/
structure Walk where
  id : Nat
  va : DWord
  tid : BitVec 16
  kind : Nat
  killed : Bool
  space : Option DWord
  table : Option (Nat × Nat)
  got : Option (Option DWord)
deriving DecidableEq, Repr

/-- A walk that ended in a fault, kept for the access that it served: address, access kind, DETAIL (R331, R332). -/
structure WalkFault where
  va : DWord
  kind : Nat
  detail : Word
deriving DecidableEq, Repr

/-- A broadcast XINV that waits for its members (R341, R343). -/
structure Bcast where
  waiting : List Word
  failed : List Word
deriving DecidableEq, Repr

/-- The translation stores and what is under way (R334, R341). -/
structure Xlat where
  itlb : List TlbEntry
  dtlb : List TlbEntry
  /-- The L2 TLB by 4 * set + way, with its tree bits by set (R334). -/
  l2 : List (Nat × TlbEntry)
  l2tree : WMap
  ovf : List TlbEntry
  root : Option (BitVec 16 × DWord)
  walk : Option Walk
  nextWalk : Nat
  /-- What walks have found for the instruction at TR, for its fetch or its data accesses; it serves that instruction alone. -/
  served : List (Bool × TlbEntry)
  failed : List WalkFault
  bcast : Option Bcast
deriving DecidableEq, Repr

/-! ## The scratchpad (15) -/

/-- What a stored unit carries beside its data bytes: the words last written in the weight class, poisoned words (R360), bits that
the SRAM returned flipped and that were left as stored (R361), and, where words have been written over in the activation class
since, the data of the last write in the weight class, whose check bits the other words still hold (R358, R359). -/
structure UnitMark where
  unit : Nat
  weight : BitVec 4
  poison : BitVec 4
  flips : BitVec 288
  base : Option (List Byte)
deriving DecidableEq, Repr

/-- A read of one unit in flight: its load's bytes, the unit's number, data and codes as they stood at the read, the class
of the access (R25). -/
structure SpxRead where
  piece : Piece
  unit : Nat
  data : List Byte
  mark : UnitMark
  weight : Bool
deriving DecidableEq, Repr

/-- The power states of a group, by their codes in SPX_BANKPWR_STAT. -/
inductive GroupState where
  | off
  | opening
  | on
  | closing
deriving DecidableEq, Repr

/-- A request of protocol S1: a write, or a read for a load (R27, R367). -/
structure S1Req where
  we : Bool
  addr : Nat
  data : List Byte
  be : BitVec 64
  piece : Option Piece
deriving DecidableEq, Repr

/-- The scratchpad and its port. -/
structure Spx where
  mem : Memory
  marks : List UnitMark
  groups : Vector GroupState 16
  /-- spx_bk_pwr_ack is high for all banks of the opening group and its zero fill runs (R363). -/
  filling : BitVec 16
  reads : List SpxRead
  /-- Units whose corrected data waits to be written back (R361). -/
  corr : List Nat
  s1offered : List S1Req
  s1out : List S1Req
  /-- The units written since time last passed: those that a write of the same cycle can meet (R351). -/
  wrote : List Nat
deriving DecidableEq, Repr

end Sys2Proof.Machine
end

