-- ==== Sys2Proof/Machine/StateSystem.lean ====
section
/-! DEFINITION. The state of the network interface, the pitch map, the Weighbridge, the resets, the RAS logic, the life
cycle and the debug ports (16 to 20, 01). Plain data. -/

namespace Sys2Proof.Machine

/-! ## Build and straps (01) -/

/-- The build parameters (R13): log2 codes as IDENT_BUILD0 and IDENT_BUILD1 read them. -/
structure Build where
  l1iKib : Fin 4
  l1iWays : Fin 4
  l1dKib : Fin 4
  l1dWays : Fin 4
  s2 : Bool
  banks : Fin 3
  bankKib : Fin 3
  s1Kib : Fin 5
  rdLat2 : Bool
  porterCapable : Bool
deriving DecidableEq, Repr

/-! ## Network interface (16) -/

/-- A message that the core sends (R371). -/
structure OutMsg where
  cls : BitVec 2
  opc : BitVec 6
  pdie : BitVec 7
  ppitch : BitVec 11
  ppv : Bool
  pdv : Bool
  phys : Bool
  su : Bool
  len : Nat
  tid : BitVec 16
  src : Word
  dst : Word
  stamp : DWord
  addr : BitVec 56
  tag : Byte
  data : List Byte
deriving DecidableEq, Repr

/-- A flit kept for replay: its number, its message (none: HELLO), its place in the message (R382). -/
structure SentFlit where
  seq : Byte
  msg : Option OutMsg
  k : Nat
deriving DecidableEq, Repr

/-- The result of a negotiation (R386). -/
structure NegResult where
  ver : Byte
  feat : Word
  pmax : Byte
  pmin : Byte
  pfeat : Word
deriving DecidableEq, Repr

/-- One lane (R375 to R386). -/
structure Lane where
  up : Bool
  en : Bool
  retired : Bool
  /-- Negotiated and carrying traffic; stopped by a changed HELLO. -/
  neg : Bool
  stopped : Bool
  credits : Vector Nat 4
  /-- The flits in the core's own inbound buffer of each channel, and the credits returned since the lane rose (R376). -/
  rxBuf : Vector Nat 4
  rxCredit : Vector Nat 4
  helloSent : Bool
  peer : Option (Byte × Byte × Word × Word)
  txSeq : Byte
  rxSeq : Byte
  /-- Discarding flits until the expected number arrives (R381); fab_rx_nak_seq of the last request. -/
  rxBad : Bool
  rxNak : Option Byte
  sent : List SentFlit
  /-- The number that the last replay request named, and how often in a row (R383). -/
  nakSeq : Option Byte
  nakCount : Nat
  /-- Messages to send, oldest first, each with the number of its flits already sent. -/
  txq : List (OutMsg × Nat)
deriving DecidableEq, Repr

/-- What an outstanding tag is for (R378). -/
inductive TagUse where
  | load (p : Piece)
  | store
  | sadd
  /-- A read for a move unit: the position that its bytes fill. -/
  | moveRead (pos len : Nat)
  | moveWrite
  | victim (f : Nat × Nat)
  | fill (line : Nat) (ic : Bool)
  /-- An instruction fetch past the cache: what its answer puts into the fetch buffer, and how many bytes it brings. -/
  | fetch (key : Nat × Nat) (len : Nat)
  /-- A read of the walk with a number (R332). -/
  | walk (id : Nat)
  /-- An access of DBG_ACCESS: the bytes that a read brings, none for a write. -/
  | debug (len : Option Nat)
deriving DecidableEq, Repr

/-- An outstanding tag: its use, the ID its answer must come from, the pipeline tag, the address it accessed, whether the access is of
a device type; absorbed under R398. -/
structure TagEntry where
  tag : Byte
  use : TagUse
  dst : Word
  /-- The request went by physical position: `dst` is the unassigned ID of that position (R460). -/
  phys : Bool
  ptag : BitVec 16
  pa : DWord
  device : Bool
  absorbed : Bool
deriving DecidableEq, Repr

/-- The network interface. -/
structure Net where
  lanes : Vector Lane 2
  link : Option NegResult
  tags : List TagEntry
  /-- Messages that lost their lane while no other carried traffic (R375). -/
  lost : List OutMsg
  /-- The HOLE notice is to be sent (R397). -/
  holeDue : Bool
  /-- FAB_CTRL.LANE_OFF. -/
  laneOff : BitVec 2
  /-- Accepted REQs that cannot be served yet, oldest first (R43, R117, R249). -/
  held : List InMsg
  /-- XINVs whose removal is done and whose answer is due, each with the next pipeline tag at its removal (R342). -/
  xinvs : List (InMsg × BitVec 16)
deriving DecidableEq, Repr

/-- The pitch maps (R390): staged and applied core map and die map; unlisted entries are NONE and V = 0. -/
structure Pitch where
  stagedCore : WMap
  stagedDie : WMap
  core : WMap
  die : WMap
deriving DecidableEq, Repr

/-! ## BOOT port (18) -/

/-- A request on the BOOT port: a read for a load, a read of header word n, an instruction fetch, a read for the copy unit at
the store buffer's head, an access of DBG_ACCESS, or a write (R412 to R415). -/
structure BootReq where
  we : Bool
  addr : Nat
  data : DWord
  piece : Option Piece
  header : Option Nat
  fetch : Bool
  ptag : BitVec 16
  /-- An access of DBG_ACCESS. -/
  debug : Bool
  /-- A read of the walk with a number (R332). -/
  walk : Option Nat
deriving DecidableEq, Repr

structure Boot where
  offered : List BootReq
  out : List BootReq
  /-- The header words read so far, and whether one was answered by an error (R415). -/
  header : List DWord
  bad : Bool
deriving DecidableEq, Repr

/-! ## Resets (18) -/

/-- RESET_STATUS.STATE. -/
inductive Phase where
  | run
  | fuse
  | wait
  | drain
  | scrub
  | held
  | bad
  | bootfail
deriving DecidableEq, Repr

/-- The reset controller (R19 to R21, R416, R425 to R430). -/
structure Rst where
  phase : Phase
  /-- rst_whole_n is low. -/
  wholeLow : Bool
  /-- Fuse words read so far. -/
  fuseIdx : Nat
  /-- The kind of the requested reset: 0 core, 1 cluster, 2 partition; `sleep`: it began in SLEEP; `wake`: it is the wake's own
reset and was not replaced (R21, R410). -/
  kind : Nat
  sleep : Bool
  wake : Bool
  /-- A requested reset waits for the rails (R429, R410). -/
  railWait : Option Nat
  scrubWanted : Bool
  scrubDone : Bool
  /-- The S1 scrub: the 64-byte units whose writes have been offered (R367). -/
  scrubAt : Nat
  /-- The drain in progress belongs to a fence (R438). -/
  fenceDrain : Bool
  releaseKept : Bool
  /-- A porter reads its image header (R415). -/
  booting : Bool
  /-- Tags absorbed when the drain ended, its last cycle, its limit as the entry cycle read it (R427). -/
  absorbed : Nat
  drainStamp : DWord
  drainLimit : Nat
  /-- Cycles since the entry. -/
  cycles : Nat
  last : Nat
  scrubbed : Bool
deriving DecidableEq, Repr

/-! ## Weighbridge and power states (17) -/

/-- The Weighbridge and the PWR port. -/
structure Pwr where
  state : BitVec 3
  req : BitVec 3
  railEn : BitVec 2
  railOk : BitVec 2
  throttle : BitVec 3
  temp : Byte
  /-- temp_code stands at or above HOT, at or above CRIT, as last judged; the hold of R406. -/
  hotSeen : Bool
  critSeen : Bool
  tempHold : Bool
  level : Nat
  /-- Cycles since L last changed. -/
  since : Nat
  forecast : BitVec 16
  energy : Nat
  exhausted : Bool
  /-- No allowance has been sampled since the last reset (R403). -/
  unsampled : Bool
  /-- Cycles since a wake from IDLE or NAP began (R409). -/
  waking : Option Nat
  /-- Cycles since pwr_rail_ok[1] rose in a wake from NAP (R409). -/
  railUp : Option Nat
deriving DecidableEq, Repr

/-! ## RAS (19) -/

/-- A ledger entry (R444). -/
structure LedgerEntry where
  lseq : BitVec 16
  epoch : BitVec 16
  type : Byte
  channel : Byte
  level : Byte
  flags : Byte
  stamp : DWord
  logid : Word
  phys : Word
  code : Word
  addr : DWord
deriving DecidableEq, Repr

/-- The RAS logic (R433 to R447). -/
structure Ras where
  levels : WMap
  retired : BitVec 256
  /-- CODE and ADDR of the last error counted on a channel. -/
  lastErr : List (Nat × Word × DWord)
  fence : Option Byte
  /-- The unconsumed entries, oldest first, and the slot of the oldest. -/
  ledger : List LedgerEntry
  oldest : Nat
  /-- In this bell cycle the leak counter has reached BELLS: the leak comes before every increment (R434). -/
  leakDue : Bool
  nextLseq : BitVec 16
deriving DecidableEq, Repr

/-! ## Life cycle and debug (20) -/

/-- The life-cycle logic (R448 to R457). -/
structure Life where
  /-- The fuse words as read, 0 to 15. -/
  fuses : List Word
  shadow : BitVec 3
  taint : Bool
  oddDue : Bool
  /-- The state that the release completes (R451). -/
  granted : Option (BitVec 3)
  /-- A challenge that is filling; a valid one. -/
  opening : Option (List Word)
  chal : Option (List Word)
  resp : List Word
  verifying : Bool
  /-- The last LIFE_XREQ that names RETURNED: SUBMIT acts on it. -/
  xreq : Word
  fails : Nat
  lockout : Bool
deriving DecidableEq, Repr

/-- The debug ports: the TAP instruction, the wrapper instruction, the value that the last one captured; an access of DBG_ACCESS that
waits for the data cache, its address and the value that it writes (R306); dbg_trst_n, and whether the host chip's core-test access
selects the wrapper (R16). -/
structure Debug where
  tap : BitVec 5
  wir : Byte
  out : DWord
  miss : Option (Nat × Option DWord)
  trstn : Bool
  wsel : Bool
deriving DecidableEq, Repr

/-! ## Register access (02) -/

/-- The holding registers of one accessor class (R55): the read holding register, the pairs whose low word has been read
since the last reset, the write holding register, and the pairs whose low word has been written since the pair's last
write. -/
structure Hold where
  rd : Word
  read : List Nat
  wr : Word
  written : List Nat
deriving DecidableEq, Repr

end Sys2Proof.Machine
end

