-- ==== Sys2Proof/Machine/RegSpec.lean ====
section
/-! DEFINITION. The software-visible registers: what each write changes, the reset value, what survives (02 R46 to R57 and
the register tables and reset tables of every page). A register whose value the core computes is not listed here. -/

namespace Sys2Proof.Machine

/-- Which resets and power states keep a value (R57): none but IDLE and NAP; requested resets but not SLEEP; all but the
whole reset; all. -/
inductive Survive where
  | volatile
  | untilSleep
  | retained
  | always
deriving DecidableEq, Repr

/-- One register: its offset in the page, the bits of each access code that hold state, its reset value. -/
structure RegSpec where
  off : Nat
  rw : Word
  rwl : Word
  rwb : Word
  w1c : Word
  init : Word
  keep : Survive
deriving DecidableEq, Repr

/-- A register of RW fields. -/
def rwReg (off : Nat) (mask init : Word) (k : Survive := .volatile) : RegSpec := ⟨off, mask, 0, 0, 0, init, k⟩
/-- A register of RW and RWL fields. -/
def rwlReg (off : Nat) (rw rwl init : Word) (k : Survive := .volatile) : RegSpec := ⟨off, rw, rwl, 0, 0, init, k⟩
/-- A register of RW and RWB fields. -/
def rwbReg (off : Nat) (rw rwb init : Word) (k : Survive := .volatile) : RegSpec := ⟨off, rw, 0, rwb, 0, init, k⟩
/-- A register of W1C bits; its other bits are written by the core alone. -/
def w1cReg (off : Nat) (mask : Word) (k : Survive := .volatile) : RegSpec := ⟨off, 0, 0, 0, mask, 0, k⟩
/-- A register that only the core writes. -/
def roReg (off : Nat) (k : Survive := .volatile) (init : Word := 0) : RegSpec := ⟨off, 0, 0, 0, 0, init, k⟩

/-- The key of a register: page number times 4,096 plus its offset. -/
def pIDENT : Nat := 0x0000
def pCORE : Nat := 0x1000
def pCACHE : Nat := 0x2000
def pXLAT : Nat := 0x3000
def pTILE : Nat := 0x4000
def pCONV : Nat := 0x5000
def pSPX : Nat := 0x6000
def pFAB : Nat := 0x7000
def pPITCH : Nat := 0x8000
def pBELL : Nat := 0x9000
def pTALLY : Nat := 0xA000
def pSYNC : Nat := 0xB000
def pWEIGH : Nat := 0xC000
def pRAS : Nat := 0xD000
def pLIFE : Nat := 0xE000
def pRESET : Nat := 0xF000

/-- The defined events of a page, bits of EVT_RAW, with LOCKED_WRITE. -/
def evtMask (page : Nat) : Word :=
  0x80000000#32 ||| match page with
  | 0x1 => 0x3#32
  | 0x2 => 0x3#32
  | 0x3 => 0x7#32
  | 0x4 => 0x3#32
  | 0x6 => 0xF#32
  | 0x7 => 0x7F#32
  | 0x8 => 0x1#32
  | 0x9 => 0xF#32
  | 0xA => 0x1FF#32
  | 0xB => 0x1#32
  | 0xC => 0x7#32
  | 0xD => 0xFF#32
  | 0xE => 0x1E#32
  | 0xF => 0xF#32
  | _ => 0#32

/-- The error events of a page. -/
def errMask (page : Nat) : Word :=
  match page with
  | 0x1 => 0x1#32
  | 0x2 => 0x2#32
  | 0x3 => 0x3#32
  | 0x4 => 0x2#32
  | 0x6 => 0xE#32
  | 0x7 => 0x7C#32
  | 0x8 => 0x1#32
  | 0x9 => 0xF#32
  | 0xA => 0x17F#32
  | 0xB => 0x1#32
  | 0xC => 0x5#32
  | 0xD => 0x4E#32
  | 0xE => 0xC#32
  | 0xF => 0xA#32
  | _ => 0#32

/-- PAGE_CAPS bits that no build parameter or strap decides. -/
def fixedCaps (page : Nat) : Word :=
  match page with
  | 0x1 => 0xE#32
  | 0x2 => 0xF#32
  | 0x3 => 0x3#32
  | 0x4 => 0xD#32
  | 0x5 => 0xF#32
  | 0x7 => 0x7#32
  | 0x9 => 0x3#32
  | 0xA => 0x7#32
  | 0xB => 0x40#32
  | 0xC => 0x3#32
  | 0xD => 0x7#32
  | 0xE => 0x3#32
  | 0xF => 0x1#32
  | _ => 0#32

/-- The registers that every page opens and closes with (R46 to R53). -/
def commonRegs (page : Nat) : List RegSpec :=
  [rwReg 0x008 0x3 0, w1cReg 0x010 (evtMask page), rwReg 0x014 (evtMask page) 0, w1cReg 0x020 0x80000000,
   roReg 0x024, roReg 0x028, roReg 0x02C, roReg 0x030, roReg 0xF00, roReg 0xF04]

def coreRegs : List RegSpec :=
  [rwReg 0x100 0xF 0xE, rwlReg 0x104 0 1 0, rwReg 0x108 0x1FF 0, w1cReg 0x114 0x80000000, roReg 0x118, roReg 0x11C,
   roReg 0x120, roReg 0x124, roReg 0x128, roReg 0x12C, roReg 0x130, rwReg 0x180 0xFFFFFFFF 0, rwReg 0x184 0x7 0x2,
   rwlReg 0x188 0 0x01FF37FE 0]

def cacheRegs : List RegSpec :=
  [rwReg 0x100 0x303 0x300, rwReg 0x104 0x7F 8, rwlReg 0x108 0 0xFFFFFFFF 0, roReg 0x114, roReg 0x118, roReg 0x11C,
   roReg 0x120, roReg 0x124]

def xlatRegs : List RegSpec :=
  [rwlReg 0x100 0x1 0xE 0, rwReg 0x104 0xFFFFF000 0, rwReg 0x108 0x00FFFFFF 0, rwReg 0x10C 0x1FFFF 0,
   rwlReg 0x110 0 0x7F7F 0, rwlReg 0x114 0 0x07FF07FF 0, rwReg 0x118 0xFFFFFF 0x100000, roReg 0x11C, roReg 0x120,
   roReg 0x124, roReg 0x128, roReg 0x12C, roReg 0x130]
  ++ (List.range 16).flatMap fun n =>
    [rwReg (0x200 + 16 * n) 0xFFFFF001 0, rwReg (0x204 + 16 * n) 0x00FFFFFF 0, rwReg (0x208 + 16 * n) 0xFFFFF007 3,
     rwReg (0x20C + 16 * n) 0x00FFFFFF 0]

def tileRegs : List RegSpec :=
  [rwReg 0x100 0xC07 0, w1cReg 0x104 0x7F, roReg 0x108, w1cReg 0x10C 0x80000000, roReg 0x110, roReg 0x114,
   roReg 0x130, roReg 0x134, roReg 0x138, roReg 0x13C, w1cReg 0x148 0x80000000, roReg 0x14C]

def convRegs : List RegSpec := [roReg 0x104, rwReg 0x110 0xFFFFFF 0, rwReg 0x114 0x1F 0]

def spxRegs : List RegSpec :=
  [rwReg 0x100 1 1, rwlReg 0x104 0 0xFF800000 0x40000000, rwlReg 0x108 0 0x00FFFFFF 0, rwReg 0x110 0x77777777 0x77777777,
   rwReg 0x114 0x77777777 0x77777777, rwReg 0x118 0xFFFF 0xFFFF, roReg 0x120, roReg 0x124, roReg 0x128, roReg 0x12C]
  ++ (List.range 16).flatMap fun n =>
    [rwReg (0x200 + 16 * n) 0x007FFFE0 0, rwReg (0x204 + 16 * n) 0x007FFFE0 0, rwReg (0x208 + 16 * n) 0xFFFFFF30 0]

def fabRegs : List RegSpec :=
  [rwReg 0x100 0x100 0x100, rwReg 0x114 0xFFFFFFFF 0xFFFFFFFF, roReg 0x120, roReg 0x124, roReg 0x128, roReg 0x12C,
   roReg 0x130, roReg 0x134]
  ++ (List.range 8).flatMap fun n =>
    [rwReg (0x200 + 16 * n) 0xFF800000 0, rwReg (0x204 + 16 * n) 0x00FFFFFF 0, rwReg (0x208 + 16 * n) 0xFFFFFFFF 0,
     rwReg (0x20C + 16 * n) 0xFF3F1F00 0x170C0000]

def pitchRegs : List RegSpec :=
  [rwReg 0x100 0xC00007FF 0, rwReg 0x110 0x3FFF 0x3FFF .retained, roReg 0x114 .retained 0x3FFF, roReg 0x118 .retained]

def bellRegs : List RegSpec :=
  [rwbReg 0x100 0x800003FF 0x7FFE0000 0x40, rwbReg 0x104 0 0x01FFFFFF 0x10000 .retained,
   rwbReg 0x108 0 0x00FFFFFF 0xC000 .retained, roReg 0x11C, roReg 0x128]

def tallyRegs : List RegSpec :=
  [rwbReg 0x100 0 0x00FFFFFF 0x200, rwbReg 0x104 0 0xFFFFFFC0 0, rwbReg 0x108 0 0xFFFFFFFF 0,
   rwbReg 0x10C 0 0xFFFFFFFF 0, rwbReg 0x110 0 0xFFFFFFFF 0, w1cReg 0x114 0xFFFFFFFF, w1cReg 0x118 0xFFFFFFFF,
   w1cReg 0x11C 0xF, roReg 0x120, roReg 0x124, roReg 0x128, roReg 0x12C, roReg 0x130]

def syncRegs : List RegSpec := (List.range 64).map fun n => rwReg (0x200 + 4 * n) 0xFFFFF800 0x1000

/-- The reset weights of the energy events (R402). -/
def energyWeights : List Nat := [20972, 2621, 3670, 4194, 4194, 2621, 3146, 1311, 2097, 7864]

def weighRegs : List RegSpec :=
  [rwlReg 0x100 0 0x3 0x3, rwbReg 0x104 0 0xFFFF 0x0220, rwlReg 0x108 0x700FF 0xFF00 0x29182, rwReg 0x10C 0x1FFFF 0x10000,
   rwReg 0x110 0xFFFF 1, roReg 0x114, roReg 0x11C, roReg 0x128]
  ++ (List.range 10).map fun n => rwlReg (0x140 + 4 * n) 0 0xFFFF (BitVec.ofNat 32 (energyWeights.getD n 0))

def rasRegs : List RegSpec :=
  [⟨0x100, 0, 0x00FF00FF, 0, 0, 0x00040010, .untilSleep⟩, ⟨0x104, 0, 0x00FFFFFF, 0, 0, 0x1000, .untilSleep⟩,
   roReg 0x108 .retained, w1cReg 0x10C 0x3F .retained, ⟨0x110, 0, 0xFFFF, 0, 0, 0, .retained⟩, rwReg 0x11C 0xFF 0,
   roReg 0x130 .retained, w1cReg 0x134 0x80000000 .retained, roReg 0x138 .retained, roReg 0x13C .retained,
   roReg 0x140 .retained, roReg 0x144 .retained, roReg 0x148 .retained]

def lifeRegs : List RegSpec := [roReg 0x10C .retained, rwlReg 0x11C 0 0xF 0, roReg 0x120, roReg 0x124]

def resetRegs : List RegSpec :=
  [rwlReg 0x104 0 1 1, rwReg 0x108 0xFFFFFF 0x10000, rwReg 0x10C 0xFFFFFFC0 0 .retained,
   rwReg 0x110 0xFFFFFFFF 0 .retained, roReg 0x118 .retained, roReg 0x11C, rwReg 0x120 0xFFFFFFFF 0 .untilSleep,
   roReg 0x200 .retained, roReg 0x204 .retained, roReg 0x208 .retained, roReg 0x20C .retained]

/-- The block registers of a page. -/
def blockRegs (page : Nat) : List RegSpec :=
  match page with
  | 0x1 => coreRegs
  | 0x2 => cacheRegs
  | 0x3 => xlatRegs
  | 0x4 => tileRegs
  | 0x5 => convRegs
  | 0x6 => spxRegs
  | 0x7 => fabRegs
  | 0x8 => pitchRegs
  | 0x9 => bellRegs
  | 0xA => tallyRegs
  | 0xB => syncRegs
  | 0xC => weighRegs
  | 0xD => rasRegs
  | 0xE => lifeRegs
  | 0xF => resetRegs
  | _ => []

/-- The register that a key names, when it is one that holds state in the register map. -/
def regSpec (key : Nat) : Option RegSpec :=
  let page := key / 0x1000
  let off := key % 0x1000
  if off < 0x100 || 0xF00 ≤ off then (commonRegs page).find? fun r => r.off == off
  else (blockRegs page).find? fun r => r.off == off

/-- The reset value of a key; a key that names no register reads 0 (R6). -/
def regInit (key : Nat) : Word :=
  match regSpec key with
  | some r => r.init
  | none => 0#32

/-- The 64-bit pairs, by the key of their low word (R55). -/
def isPairLow (key : Nat) : Bool :=
  let page := key / 0x1000
  let off := key % 0x1000
  off == 0x024 || off == 0x02C ||
  match page with
  | 0x1 => off == 0x118 || off == 0x120
  | 0x3 => off == 0x104 || (decide (0x200 ≤ off && off < 0x300) && off % 8 == 0)
  | 0x4 => off == 0x108 || off == 0x110 || off == 0x128 || off == 0x130 || off == 0x138
  | 0x5 => off == 0x108
  | 0x6 => off == 0x104 || off == 0x110
  | 0x7 => decide (0x200 ≤ off && off < 0x280) && off % 8 == 0
  | 0x9 => off == 0x10C || off == 0x114
  | 0xA => off == 0x104 || off == 0x10C || off == 0x114
  | 0xD => off == 0x138
  | 0xE => off == 0x120
  | 0xF => off == 0x10C || off == 0x200
  | _ => false

end Sys2Proof.Machine
end

