-- ==== Sys2Proof/Machine/State.lean ====
section
/-! DEFINITION. The whole state of the block, what can stop a step, and the state right after reset. -/

namespace Sys2Proof.Machine

/-- The block's state. -/
structure State where
  build : Build
  straps : Straps
  /-- The register map: the values that differ from nothing listed, by page * 4,096 + offset (02). -/
  regs : WMap
  /-- The staged copies of RWB registers that have been written (R53). -/
  staged : WMap
  localHold : Hold
  remoteHold : Hold
  /-- The value that the last register read returned. -/
  busRead : DWord
  bell : Bell
  tally : Tally
  sync : Vector Word 64
  tile : Tile
  cpu : Cpu
  spx : Spx
  caches : Caches
  xlat : Xlat
  net : Net
  pitch : Pitch
  boot : Boot
  rst : Rst
  pwr : Pwr
  ras : Ras
  life : Life
  dbg : Debug
  /-- mchk_out in the last cycle (R256). -/
  mchkOut : Bool
  /-- The model's own counter: each free value is drawn with a new number. -/
  fresh : Nat
  /-- The commands that wait, first in, first out. -/
  pending : List Instr
deriving DecidableEq, Repr

/-- Why a step stops with a fault. -/
inductive Fault where
  /-- Raised by nothing: every meaning of this model answers a next state. Safe. -/
  | never
deriving DecidableEq, Repr

/-- Why a step is refused. -/
inductive Refusal where
  /-- Raised by an arm of exec whose command has no meaning yet; it carries the command's mnemonic. Safe. -/
  | notModelled (mnemonic : String)
deriving DecidableEq, Repr

/-! ## Reset values of the parts -/

/-- The reference build (R13). -/
def Build.reference : Build :=
  { l1iKib := 2, l1iWays := 1, l1dKib := 2, l1dWays := 2, s2 := true, banks := 0, bankKib := 2, s1Kib := 0,
    rdLat2 := true, porterCapable := false }

def Hold.init : Hold := ⟨0, [], 0, []⟩

/-- The bell unit after a whole reset: UNSYNC (R207). -/
def Bell.init : Bell := { tick := 0, c := 0, ot := 0, unsync := true, splitDone := true, applyDone := true }

def TallySlot.init : TallySlot :=
  { unread := false, desc := none, armedAt := 0, disarmedAt := none, rows0 := [], rows1 := [] }

/-- The Tally after any reset: nothing armed, nothing staged. -/
def Tally.init : Tally := { slots := List.replicate 64 TallySlot.init, apply := none, due := none, waiting := [] }

def TileView.init : TileView := { names := List.replicate 32 none, crate := none }

/-- The tile engine after any reset, over given storage (R432). -/
def Tile.init (ops pool : Memory) : Tile :=
  { ops := ops, pool := pool, issue := TileView.init, engine := TileView.init, tuseOp := 0, poison := 0, poisonOp := 0,
    maskr := 0xFFFFFFFF#32, maskc := 0xFFFFFFFFFFFFFFFF#64, nextItag := 0, queue := [], nextSeq := 0, trapSeq := 0,
    busy := false, draining := false, stopped := false, restored := none, late := [], heldTuse := [], seed := 0, rbits := 8, lanes := rngSeed 0 }

def Frame.init : Frame := ⟨0, 0, 0, 0, 0⟩

/-- The pipeline at a release from reset: R417, R262. -/
def Cpu.init (ip : DWord) (f : Vector DWord 32) : Cpu :=
  { g := Vector.replicate 32 0#64, f := f, ip := ip, flags := 0x800#64, brs := 0, bre := 0, brc := 0, veidx := 0,
    tid := 0, frameS := Frame.init, frameM := Frame.init, vecs := Vector.replicate 6 0#64,
    lines := Vector.replicate 6 none, fromLine := none, fetched := [], lineLoad := false, loop := none, ptag := 0, issued := false,
    midUnits := false, repOpen := false, loads := [], nextJob := 0, m1 := [], sb := [], div := none, wait := .none, waited := [], trapOwed := none,
    nmi := false, ext := 0, mchkDue := false, movtStamp := none, dues := [], haltDue := false, halted := false, stepping := false }

/-- Both caches Invalid, every replacement bit 0, the detector empty (R305). -/
def Caches.init : Caches :=
  { i := ⟨[], []⟩, d := ⟨[], []⟩, fills := [], leaving := [], next := 0, count := 0, runFrom := 0 }

def Xlat.init : Xlat :=
  { itlb := [], dtlb := [], l2 := [], l2tree := [], ovf := [], root := none, walk := none, nextWalk := 0, served := [], failed := [], bcast := none }

def Spx.init : Spx :=
  { mem := [], marks := [], groups := Vector.replicate 16 .off, filling := 0, reads := [], corr := [], s1offered := [],
    s1out := [], wrote := [] }

def Lane.init : Lane :=
  { up := false, en := false, retired := false, neg := false, stopped := false, credits := Vector.replicate 4 0, rxBuf := Vector.replicate 4 0, rxCredit := Vector.replicate 4 0,
    helloSent := false, peer := none, txSeq := 0, rxSeq := 0, rxBad := false, rxNak := none, sent := [],
    nakSeq := none, nakCount := 0, txq := [] }

def Net.init : Net := { lanes := Vector.replicate 2 Lane.init, link := none, tags := [], lost := [], holeDue := false, laneOff := 0, held := [], xinvs := [] }

def Pitch.init : Pitch := ⟨[], [], [], []⟩

def Boot.init : Boot := ⟨[], [], [], false⟩

/-- The reset controller with rst_whole_n low. -/
def Rst.init : Rst :=
  { phase := .fuse, wholeLow := true, fuseIdx := 0, kind := 0, sleep := false, wake := false, railWait := none, scrubWanted := false,
    scrubDone := false, scrubAt := 0, fenceDrain := false, releaseKept := false, booting := false, absorbed := 0, drainStamp := 0, drainLimit := 0, cycles := 0,
    last := 0, scrubbed := false }

/-- The PWR port in RUN with both rails on, L = 0, nothing sampled. -/
def Pwr.init : Pwr :=
  { state := 0, req := 0, railEn := 3, railOk := 3, throttle := 0, temp := 0, hotSeen := false, critSeen := false, tempHold := false,
    level := 0, since := 0, forecast := 0, energy := 0, exhausted := false, unsampled := true, waking := none, railUp := none }

def Ras.init : Ras :=
  { levels := [], retired := 0, lastErr := [], fence := none, ledger := [], oldest := 0, leakDue := false, nextLseq := 0 }

def Life.init : Life :=
  { fuses := List.replicate 16 0#32, shadow := 0, taint := false, oddDue := false, granted := none, opening := none,
    chal := none, resp := List.replicate 16 0#32, verifying := false, xreq := 0, fails := 0, lockout := false }

def Debug.init : Debug := ⟨0x1F, 0x00, 0, none, true, true⟩

/-- The block while rst_whole_n is low (R19's first row): a reference build whose straps and fuses are not read yet. -/
def State.reset : State :=
  { build := Build.reference, straps := ⟨false, 0, 0⟩, regs := [], staged := [], localHold := Hold.init,
    remoteHold := Hold.init, busRead := 0, bell := Bell.init, tally := Tally.init, sync := Vector.replicate 64 0#32,
    tile := Tile.init [] [], cpu := Cpu.init 0 (Vector.replicate 32 0#64), spx := Spx.init, caches := Caches.init,
    xlat := Xlat.init, net := Net.init, pitch := Pitch.init, boot := Boot.init, rst := Rst.init, pwr := Pwr.init,
    ras := Ras.init, life := Life.init, dbg := Debug.init, mchkOut := false, fresh := 0, pending := [] }

end Sys2Proof.Machine
end

