-- ==== Sys2Proof/Machine/Ops.lean ====
section
/-! DEFINITION. The named operations on the state that every chapter uses: registers, events and error capture, stamps and
identities, energy, the ledger, machine checks, taking an exception, issue and commit. -/

namespace Sys2Proof.Machine

/-! ## Bit fields -/

/-- `n` bits of a word from bit `lo` up. -/
def fld (w : Word) (lo n : Nat) : Nat := w.toNat / 2 ^ lo % 2 ^ n

/-- A word with bits [lo + n - 1 : lo] replaced. -/
def setFld (w : Word) (lo n v : Nat) : Word :=
  (w &&& ~~~(BitVec.ofNat 32 ((2 ^ n - 1) * 2 ^ lo))) ||| BitVec.ofNat 32 (v % 2 ^ n * 2 ^ lo)

def w32 (n : Nat) : Word := BitVec.ofNat 32 n
def w64 (n : Nat) : DWord := BitVec.ofNat 64 n
def hi32 (v : DWord) : Word := v.extractLsb' 32 32
def lo32 (v : DWord) : Word := v.setWidth 32
def join64 (hi lo : Word) : DWord := hi ++ lo

/-! ## Registers -/

/-- The value of a register of the map (R46, R47). -/
def State.reg (s : State) (k : Nat) : Word := (s.regs.get? k).getD (regInit k)
def State.setReg (s : State) (k : Nat) (v : Word) : State := { s with regs := s.regs.set k v }
/-- A pair by the key of its low word. -/
def State.reg64 (s : State) (k : Nat) : DWord := join64 (s.reg (k + 4)) (s.reg k)
def State.setReg64 (s : State) (k : Nat) (v : DWord) : State := (s.setReg k (lo32 v)).setReg (k + 4) (hi32 v)
/-- Adds to a counter that wraps. -/
def State.addReg (s : State) (k n : Nat) : State := s.setReg k (s.reg k + w32 n)
def State.bump (s : State) (k : Nat) : State := s.addReg k 1
def State.bump64 (s : State) (k n : Nat) : State := s.setReg64 k (s.reg64 k + w64 n)
def State.orReg (s : State) (k : Nat) (m : Word) : State := s.setReg k (s.reg k ||| m)
/-- The staged copy of an RWB register: its active value where nothing was written (R53). -/
def State.stagedReg (s : State) (k : Nat) : Word := (s.staged.get? k).getD (s.reg k)

/-! ## Time and identity -/

def State.period (s : State) : Nat := (s.reg (pBELL + 0x104)).toNat
def State.split (s : State) : Nat := (s.reg (pBELL + 0x108)).toNat
/-- A: APPLY_AT, at least 64. -/
def State.applyAt (s : State) : Nat := max 64 (s.reg (pTALLY + 0x100)).toNat
/-- The stamp of the current cycle (R202). -/
def State.stamp (s : State) : DWord := w64 (s.bell.tick.toNat * 2 ^ 24 + s.bell.c)

/-- PORTER: the strap on a build that has the BOOT port (R28, R58). -/
def State.porter (s : State) : Bool := s.straps.porter && s.build.porterCapable

/-- IDENT_PHYS's die and pitch fields. -/
def State.physWord (s : State) : Word := w32 (s.straps.die.toNat * 2 ^ 11 + s.straps.pitch.toNat)

/-- The logical core that the applied core map gives the own pitch: its index and STATE, 1 LIVE or 3 SPARE (R390). -/
def State.ownCore (s : State) : Option (Nat × Nat) :=
  (s.pitch.core.find? fun e => fld e.2 30 1 == 1 && fld e.2 0 11 == s.straps.pitch.toNat).map
    fun e => (e.1, fld e.2 30 2)

/-- The own logical die: the lowest whose applied entry is valid and names strap_die (R394). -/
def State.ownDie (s : State) : Option Nat :=
  (s.pitch.die.find? fun e => e.2.msb && fld e.2 0 7 == s.straps.die.toNat).map Prod.fst

/-- The applied logical package. -/
def State.pkg (s : State) : Nat := fld (s.reg (pPITCH + 0x114)) 0 14

def logicalOf (pkg die core : Nat) : Word := w32 (pkg * 2 ^ 18 + die * 2 ^ 11 + core)

/-- The ID that the applied maps give the own pitch, with its STATE. -/
def State.mapId (s : State) : Option (Word × Nat) :=
  match s.ownCore, s.ownDie with
  | some (c, st), some d => some (logicalOf s.pkg d c, st)
  | _, _ => none

/-- The logical ID of a core whose pitch is LIVE (R59, R394). -/
def State.liveId (s : State) : Option Word :=
  match s.mapId with
  | some (i, 1) => some i
  | _ => none

/-- IDENT_LOGICAL. -/
def State.logical (s : State) : Word := s.liveId.getD 0xFFFFFFFF#32

/-- SRCID and SU of a message that the core sends (R460). -/
def State.srcId (s : State) : Word × Bool :=
  match s.liveId with
  | some i => (i, false)
  | none => (0xFFFC0000#32 + s.physWord, true)

/-! ## Events and error capture (R49 to R51) -/

/-- An error event of a page: its bit, CODE, ERR_STAMP, ERR_ADDR. -/
structure ErrEvt where
  bit : Nat
  code : Nat
  stamp : DWord
  addr : DWord
deriving DecidableEq, Repr

/-- Sets a bit of EVT_RAW. -/
def State.raise (s : State) (page bit : Nat) : State := s.orReg (page + 0x010) (w32 (2 ^ bit))

/-- The capture of an error event (R51). -/
def State.capture (s : State) (page : Nat) (e : ErrEvt) : State :=
  let info := s.reg (page + 0x020)
  let valid := info.getLsbD 31
  if valid && (s.reg (page + 0x008)).getLsbD 1 then s.orReg (page + 0x020) 0x40000000#32
  else
    let ovfl : Word := if valid then 0x40000000#32 else 0#32
    let v : Word := 0x80000000#32 ||| ovfl ||| w32 (e.bit * 2 ^ 16) ||| w32 (e.code % 2 ^ 16)
    ((s.setReg (page + 0x020) v).setReg64 (page + 0x024) e.stamp).setReg64 (page + 0x02C) e.addr

/-- An error event occurs: the bit is set and the capture made. -/
def State.raiseErr (s : State) (page : Nat) (e : ErrEvt) : State := (s.raise page e.bit).capture page e

/-- The lowest of several error events of one cycle is captured, the others set OVFL (R51). -/
def lowestEvt : List ErrEvt → Option ErrEvt
  | [] => none
  | e :: es =>
    match lowestEvt es with
    | none => some e
    | some x => if x.bit < e.bit then some x else some e

/-- Several error events of one page in one cycle (R51). -/
def State.raiseErrs (s : State) (page : Nat) (es : List ErrEvt) : State :=
  let s := es.foldl (fun s e => s.raise page e.bit) s
  match lowestEvt es with
  | none => s
  | some e =>
    let s := s.capture page e
    if es.length ≤ 1 then s else s.orReg (page + 0x020) 0x40000000#32

/-- EVT_PEND of a page (R49). -/
def State.evtPend (s : State) (page : Nat) : Word := s.reg (page + 0x010) &&& s.reg (page + 0x014)

/-- The pages whose event interrupt is up: CORE_IRQ_PEND.PAGES (R243). -/
def State.pageIrqs (s : State) : Nat :=
  (List.range 16).foldl
    (fun a p => if (s.reg (p * 0x1000 + 0x008)).getLsbD 0 && s.evtPend (p * 0x1000) != 0#32 then a + 2 ^ p else a) 0

/-! ## Energy (R402) -/

/-- Adds the energy of `m` events of kind `n`. -/
def State.charge (s : State) (n m : Nat) : State :=
  { s with pwr := { s.pwr with energy := s.pwr.energy + 32 * (s.reg (pWEIGH + 0x140 + 4 * n)).toNat * m } }

/-- Adds the energy of fed cells: W for each (R402). -/
def State.chargeCells (s : State) (n cells : Nat) : State :=
  { s with pwr := { s.pwr with energy := s.pwr.energy + (s.reg (pWEIGH + 0x140 + 4 * n)).toNat * cells } }

/-! ## The ledger and machine checks (R441 to R444, R256) -/

/-- A ledger entry is made; a full cache drops it with LEDGER_FULL (R443). Answers the error events of the RAS page. -/
def State.addLedger (s : State) (type channel level : Nat) (code : Word) (addr : DWord) (fromFw : Bool) :
    State × List ErrEvt :=
  let n := s.ras.nextLseq
  let s' := { s with ras := { s.ras with nextLseq := n + 1 } }
  if 16 ≤ s.ras.ledger.length then
    (s'.bump (pRAS + 0x130), [⟨6, n.toNat, s.stamp, 0#64⟩])
  else
    let e : LedgerEntry :=
      { lseq := n, epoch := (s.reg (pRAS + 0x110)).setWidth 16, type := BitVec.ofNat 8 type,
        channel := BitVec.ofNat 8 channel, level := BitVec.ofNat 8 level,
        flags := (if s.bell.unsync then 1#8 else 0#8) ||| (if fromFw then 2#8 else 0#8), stamp := s.stamp,
        logid := s.logical, phys := s.physWord, code := code, addr := addr }
    ({ s' with ras := { s'.ras with ledger := s'.ras.ledger ++ [e] } }, [])

/-- A machine check of a kind, with its tag and address; `tile`: the tag is a tile issue tag (R256, R441). -/
def State.machineCheck (s : State) (kind : Nat) (tile : Bool) (tag : Nat) (addr : DWord) : State :=
  let s := { s with mchkOut := true }
  let s := s.raiseErr pCORE ⟨0, (if tile then 256 else 0) + kind, s.stamp, addr⟩
  let m := s.reg (pCORE + 0x114)
  let s :=
    if m.getLsbD 31 then s.orReg (pCORE + 0x114) 0x40000000#32
    else
      let v := w32 (2 ^ 31 + (if tile then 2 ^ 29 else 0) + kind * 2 ^ 16 + tag % 2 ^ 16)
      let s := s.setReg (pCORE + 0x114) v
      { s with cpu := { s.cpu with mchkDue := true } }
  let s := s.setReg (pRAS + 0x134) (w32 (2 ^ 31 + kind * 2 ^ 16 + tag % 2 ^ 16))
  let s := (s.setReg64 (pRAS + 0x138) s.stamp).bump (pRAS + 0x140)
  let s := (s.raise pRAS 4).orReg (pRAS + 0x10C) 0x10#32
  if kind = 2 then s
  else
    let r := s.addLedger 3 0xFF 0 (w32 (kind * 2 ^ 16 + tag % 2 ^ 16)) addr false
    r.1.raiseErrs pRAS r.2

/-! ## Registers of the pipeline -/

/-- G0 reads as 0 (R258). -/
def State.g (s : State) (n : Fin 32) : DWord := if n = 0 then 0#64 else s.cpu.g[n]
/-- G0 discards writes (R258). -/
def State.setG (s : State) (n : Fin 32) (v : DWord) : State :=
  if n = 0 then s else { s with cpu := { s.cpu with g := s.cpu.g.set n v } }
def State.f (s : State) (n : Fin 32) : DWord := s.cpu.f[n]
def State.setF (s : State) (n : Fin 32) (v : DWord) : State := { s with cpu := { s.cpu with f := s.cpu.f.set n v } }
def State.setFlags (s : State) (v : DWord) : State := { s with cpu := { s.cpu with flags := v } }

/-- The current level: 0 U, 1 S, 2 M (R262). -/
def State.pl (s : State) : Nat := (flagPL s.cpu.flags).toNat

/-- The F registers that a view covers (R289): itself, or a pair with WIDE. -/
def viewRegs (wide : Bool) (n : Fin 32) : List Nat := if wide then [2 * n.val, 2 * n.val + 1] else [n.val]

/-- The F registers that a load in flight will write. -/
def LoadDest.fRegs : LoadDest → List Nat
  | .g _ _ => []
  | .f n => [n.val]
  | .v w n => viewRegs w n
  | .el w n _ _ => viewRegs w n
  | .crc _ _ => []

/-- The G register that a load in flight will write. -/
def LoadDest.gReg : LoadDest → Option Nat
  | .g n _ => some n.val
  | .crc n _ => some n.val
  | _ => none

/-- A G register is busy while a load or a division will write it (R236); G0 never is (R258). -/
def State.gBusy (s : State) (n : Fin 32) : Bool :=
  n.val != 0 && (s.cpu.loads.any (fun l => l.dest.gReg == some n.val)
    || s.cpu.div.any (fun d => !d.fp && d.dest == n))

def State.fBusyNat (s : State) (n : Nat) : Bool :=
  s.cpu.loads.any (fun l => l.dest.fRegs.contains n) || s.cpu.div.any (fun d => d.fp && d.dest.val == n)

def State.fBusy (s : State) (n : Fin 32) : Bool := s.fBusyNat n.val

/-- A view is busy while a register that it covers is (R236). -/
def State.vBusy (s : State) (wide : Bool) (n : Fin 32) : Bool := (viewRegs wide n).any s.fBusyNat

/-! ## Issue, commit, entry -/

/-- A source is pending and enabled (R243): machine check, NMI, irq_ext, page event; IE itself apart. -/
def State.irqReady (s : State) : Bool :=
  let en := s.reg (pCORE + 0x108)
  (s.cpu.ext &&& en.setWidth 8) != 0#8 || (en.getLsbD 8 && s.pageIrqs != 0)

/-- The asynchronous sources that are pending and enabled: 0 NMI, 1 a halt request, 2 + n irq_ext[n], 10 the page event, 11 a
machine check (R243). -/
def State.dueIds (s : State) : List Nat :=
  let lines := s.cpu.ext &&& (s.reg (pCORE + 0x108)).setWidth 8
  (if s.cpu.mchkDue then [11] else []) ++ (if s.cpu.nmi then [0] else []) ++ (if s.cpu.haltDue then [1] else [])
    ++ (if flagIE s.cpu.flags then
        ((List.range 8).filter fun n => lines.getLsbD n).map (2 + ·)
          ++ (if (s.reg (pCORE + 0x108)).getLsbD 8 && s.pageIrqs != 0 then [10] else [])
      else [])

/-- The sources `ids` as `n` cycles later: one that was due before has been delayed by `n` more, another by `first`. -/
def laterDues (dues : List (Nat × Nat)) (ids : List Nat) (n first : Nat) : List (Nat × Nat) :=
  ids.map fun k => (k, match dues.find? fun d => d.1 == k with
    | some d => d.2 + n
    | none => first)

/-- Fetch stands still after a WFI (R274): a source that is pending and enabled while IE is 0 lets it go on. -/
def State.wfiHolds (s : State) : Bool :=
  s.cpu.wait == .wfi && !(!flagIE s.cpu.flags && s.irqReady)

/-- Such a source is remembered when it may cease (R274). -/
def State.latchWfi (s : State) : State :=
  if s.cpu.wait == .wfi && !s.wfiHolds then { s with cpu := { s.cpu with wait := .none } } else s

/-- The core executes: it is out of reset, neither fenced nor halted, and in RUN on both rails (R31). -/
def State.coreRuns (s : State) : Bool :=
  s.rst.phase == .run && !s.rst.booting && s.ras.fence.isNone && (!s.cpu.halted || s.cpu.stepping) && s.pwr.state == 0#3
    && s.pwr.railOk == 3#2

/-- An instruction can issue: the core executes, and nothing waits at TR. -/
def State.canIssue (s : State) : Bool :=
  s.coreRuns && (s.cpu.wait == .none || (s.cpu.wait == .wfi && !s.wfiHolds)) && s.xlat.walk.isNone

/-- Ends a DBG step: the core halts again, the return address in LIFE_DBGPC (R458). -/
def State.endStep (s : State) : State :=
  if s.cpu.stepping then
    ({ s with cpu := { s.cpu with halted := true, stepping := false } }).setReg64 (pLIFE + 0x120) s.cpu.ip
  else s

def State.detOn (s : State) : Bool := (s.reg (pCORE + 0x100)).getLsbD 0

/-- The loop buffer may be used (R242). -/
def State.loopUsable (s : State) : Bool := (s.reg (pCORE + 0x100)).getLsbD 3 && !s.detOn

/-- The loop buffer serves a loop (R242). -/
def State.looping (s : State) : Bool := s.loopUsable && (s.cpu.loop.map fun b => b.full).getD false

/-- An address lies in a loop. -/
def LoopBuf.holds (b : LoopBuf) (va : DWord) : Bool := decide (b.lo.toNat ≤ va.toNat ∧ va.toNat < b.hi.toNat)

/-- The loop buffer after a commit, when execution goes on at `nxt`; `back`: the loop that this commit takes back to its start. The
second such commit in a row captures a loop of up to 32 instructions and 256 bytes; execution outside the loop empties the
buffer (R242). -/
def loopAfter (usable : Bool) (l : Option LoopBuf) (back : Option (DWord × DWord)) (nxt : DWord) : Option LoopBuf :=
  if !usable then none
  else
    match back, l with
    | some (lo, hi), some b =>
      if b.lo = lo ∧ b.hi = hi then
        if b.full || decide (b.count < 32 ∧ (hi - lo).toNat ≤ 256) then some { b with count := 0, full := true }
        else some ⟨lo, hi, 0, [], false⟩
      else some ⟨lo, hi, 0, [], false⟩
    | some (lo, hi), none => some ⟨lo, hi, 0, [], false⟩
    | none, some b => if b.holds nxt then some { b with count := b.count + 1 } else none
    | none, none => none

/-- The loop buffer is emptied. -/
def State.dropLoop (s : State) : State := { s with cpu := { s.cpu with loop := none } }

/-- The parts of a commit that do not depend on where execution goes on. -/
def State.retireInstr (s : State) : State :=
  let s := (s.bump64 (pCORE + 0x120) 1).charge 7 1
  { s with
    cpu := { s.cpu with
      ptag := s.cpu.ptag + 1, issued := false, midUnits := false, repOpen := false, lineLoad := false, wait := .none, waited := [],
      movtStamp := none, dues := [] }
    xlat := { s.xlat with served := [], failed := [] } }

/-- Execution goes on at a target that is not the next instruction; `back`: the loop that this repeats. -/
def State.goTo (s : State) (target : DWord) (back : Option (DWord × DWord)) : State :=
  let s := s.retireInstr
  ({ s with cpu := { s.cpu with ip := target, fetched := [], loop := loopAfter s.loopUsable s.cpu.loop back target } }).endStep

/-- A taken control transfer commits: no block-repeat check (R281). -/
def State.jump (s : State) (target : DWord) : State := s.goTo target none

/-- A taken branch of `len` bytes commits; a backward one repeats a loop (R242). -/
def State.branch (s : State) (len : Nat) (target : DWord) : State :=
  s.goTo target (if target.toNat ≤ s.cpu.ip.toNat then some (target, s.cpu.ip + w64 len) else none)

/-- The block-repeat check of a committing instruction whose next sequential address is `nxt` (R281). -/
def loopBack (c : Cpu) (nxt : DWord) : Cpu :=
  if c.brc ≠ 0#64 ∧ nxt = c.bre then
    if c.brc.toNat > 1 then { c with brc := c.brc - 1#64, ip := c.brs } else { c with brc := 0#64, ip := c.bre }
  else { c with ip := nxt }

/-- The loop that a commit with the next sequential address `nxt` takes back to its start (R281). -/
def blockLoop (c : Cpu) (nxt : DWord) : Option (DWord × DWord) :=
  if 1 < c.brc.toNat ∧ nxt = c.bre then some (c.brs, c.bre) else none

/-- An instruction of `len` bytes commits and execution goes on in sequence (R232, R281). -/
def State.commit (s : State) (len : Nat) : State :=
  let s := s.retireInstr
  let nxt := s.cpu.ip + w64 len
  let c := loopBack s.cpu nxt
  ({ s with cpu := { c with loop := loopAfter s.loopUsable c.loop (blockLoop s.cpu nxt) c.ip } }).endStep

/-- A unit commits and more units follow: IP stays (R247, R276). -/
def State.commitUnit (s : State) : State :=
  let s := s.charge 7 1
  ({ s with
    cpu := { s.cpu with waited := [], midUnits := true, dues := [] }
    xlat := { s.xlat with served := [], failed := [] } }).endStep

/-- The sources that REPNI delays, as one more unit commits (R248). -/
def State.repDues (s : State) : List (Nat × Nat) := laterDues s.cpu.dues (s.dueIds.filter (· != 11)) 1 0

/-- The same under REP, which counts the units that commit while a source is due (R248). -/
def State.commitRepUnit (s : State) : State :=
  let t := s.commitUnit
  { t with cpu := { t.cpu with repOpen := true, dues := s.repDues } }

/-- The last unit of a REP instruction commits: a source that waited for it keeps its delay (R248). -/
def State.commitRepLast (s : State) (len : Nat) : State :=
  let t := s.commit len
  { t with cpu := { t.cpu with dues := s.repDues } }

/-- XCAUSE. -/
def xcause (async : Bool) (lvl cause : Nat) (detail : Word) : DWord :=
  w64 ((if async then 2 ^ 63 else 0) + lvl * 2 ^ 48 + cause * 2 ^ 40 + detail.toNat)

/-- FLAGS after an entry: the new level, IE and UA cleared (R287). -/
def entryFlags (f : DWord) (toM : Bool) : DWord := setPL (setUA (setIE f false) false) (if toM then 2#2 else 1#2)

/-- Entry into level M or S through a vector (R287): the frame is written, FLAGS and BRC change, IP goes to the handler. -/
def State.enter (s : State) (toM : Bool) (vec : Fin 6) (async : Bool) (cause : Nat) (detail : Word) (xaddr ret : DWord) :
    State :=
  let c := s.cpu
  let fr : Frame := ⟨ret, c.flags, xcause async s.pl cause detail, xaddr, c.brc⟩
  let c := if toM then { c with frameM := fr } else { c with frameS := fr }
  let c := { c with
    flags := entryFlags c.flags toM, brc := 0#64, ip := c.vecs[vec], ptag := if c.issued then c.ptag + 1 else c.ptag
    issued := false, midUnits := false, repOpen := false, lineLoad := false, loop := none, wait := .none, waited := []
    movtStamp := none, dues := [], fetched := [], fromLine := c.lines[vec].map fun _ => c.vecs[vec].toNat / 64 }
  { s with cpu := c, xlat := { s.xlat with walk := none, served := [], failed := [], bcast := none } }

/-- Whether a synchronous cause enters M (R286). -/
def State.causeToM (s : State) (cause : Nat) : Bool :=
  s.pl == 2 || cause == 0x0B || !(s.reg (pCORE + 0x188)).getLsbD cause

/-- TAKING AN EXCEPTION: a synchronous cause, its DETAIL and XADDR; the return address is the faulting instruction's own
(R286 to R288). -/
def State.except (s : State) (cause : Nat) (detail : Word) (xaddr : DWord) : State :=
  let toM := s.causeToM cause
  let s : State := { s with cpu := { s.cpu with issued := true } }
  (s.enter toM (if toM then 2 else 0) false cause detail xaddr s.cpu.ip).endStep

def cUNDEF : Nat := 0x01
def cPRIV : Nat := 0x02
def cALIGN : Nat := 0x03
def cTRANSLATION : Nat := 0x04
def cWINDOW : Nat := 0x05
def cDIVIDE : Nat := 0x06
def cTILEUNAV : Nat := 0x07
def cTILESTATE : Nat := 0x08
def cTILEDEFER : Nat := 0x09
def cSYSCALL : Nat := 0x0A
def cFWCALL : Nat := 0x0B
def cBREAK : Nat := 0x0C
def cRANGE : Nat := 0x0D

/-- An instruction that this encoding, or these operands, leave undefined (R4, R265). -/
def State.undef (s : State) : State := s.except cUNDEF 0#32 0#64

/-- RETURN FROM AN ENTRY at the current level (R271); a frame whose PL is above it raises PRIV. -/
def State.eret (s : State) : State :=
  let fr := if s.pl = 2 then s.cpu.frameM else s.cpu.frameS
  if s.pl < (flagPL fr.xflags).toNat then s.except cPRIV 0#32 0#64
  else
    let s := s.retireInstr
    ({ s with cpu := { s.cpu with ip := fr.xip, flags := fr.xflags, brc := fr.xbrc, fetched := [], loop := none } }).endStep

/-! ## Sync counters (R227, R228) -/

def State.syncAdd (s : State) (n : Fin 64) (v : Word) : State := { s with sync := s.sync.set n (s.sync[n] + v) }
def State.syncSet (s : State) (n : Fin 64) (v : Word) : State := { s with sync := s.sync.set n v }
/-- A counter by a number taken modulo 64. -/
def ctr (n : Nat) : Fin 64 := Fin.ofNat 64 n

end Sys2Proof.Machine
end

