-- ==== Sys2Proof/Machine/SpxMap.lean ====
section
/-! DEFINITION. The scratchpad's layout, what is in service, windows and checks (15_scratchpad_port.md R346 to R356, R366;
the cache and bank variants of 01_block_and_ports.md R35, R36). -/

namespace Sys2Proof.Machine

/-! ## Build sizes -/

def Build.nBanks (b : Build) : Nat := if b.s2 then 32 * 2 ^ b.banks.val else 0
def Build.bankBytes (b : Build) : Nat := 16384 * 2 ^ b.bankKib.val
/-- The built capacity in bytes. -/
def Build.capacity (b : Build) : Nat := if b.s2 then b.nBanks * b.bankBytes else 524288 * 2 ^ b.s1Kib.val
/-- G, the bytes of a group (R347). -/
def Build.groupBytes (b : Build) : Nat := 8 * b.bankBytes
def Build.nGroups (b : Build) : Nat := b.nBanks / 8
def Build.iWays (b : Build) : Nat := 2 * 2 ^ b.l1iWays.val
def Build.dWays (b : Build) : Nat := 2 * 2 ^ b.l1dWays.val
def Build.iSets (b : Build) : Nat := 16384 * 2 ^ b.l1iKib.val / (b.iWays * 64)
def Build.dSets (b : Build) : Nat := 16384 * 2 ^ b.l1dKib.val / (b.dWays * 64)

/-- IDENT_BUILD0 and IDENT_BUILD1. -/
def Build.word0 (b : Build) : Word :=
  w32 ((if b.porterCapable then 2 ^ 19 else 0) + (if b.s2 then (if b.rdLat2 then 2 else 1) * 2 ^ 17 + 2 ^ 16 else 0)
    + b.l1iKib.val * 2 ^ 12 + b.l1iWays.val * 2 ^ 8 + b.l1dKib.val * 2 ^ 4 + b.l1dWays.val)
def Build.word1 (b : Build) : Word :=
  w32 (b.capacity / 1024 * 2 ^ 16 + (if b.s2 then b.bankKib.val * 16 + b.banks.val else b.s1Kib.val * 256))

/-! ## Fuses (R35, R36) -/

def State.fuse (s : State) (n : Nat) : Word := s.life.fuses.getD n 0#32

/-- RSVD_SET: a reserved bit of words 1 or 7, or any bit of words 8 to 15. -/
def State.rsvdSet (s : State) : Bool :=
  (s.fuse 1 &&& 0xFFFFFFFE#32) != 0#32 || (s.fuse 7 &&& 0xFFFFFFF0#32) != 0#32
    || (s.life.fuses.drop 8).any (· != 0#32)
def State.fuseBad (s : State) : Bool := (s.fuse 1).getLsbD 0 || s.rsvdSet

/-- A bank that a fuse disables. -/
def State.bankFused (s : State) (k : Nat) : Bool := (s.fuse (2 + k / 32)).getLsbD (k % 32)

/-- A channel that the RAS logic has retired. -/
def State.retired (s : State) (ch : Nat) : Bool := s.ras.retired.getLsbD ch

/-- A way that takes no part: disabled by fuse or retired (R36, R321). -/
def State.wayOff (s : State) (ic : Bool) (w : Nat) : Bool :=
  if ic then (s.fuse 6).getLsbD w || s.retired (0x20 + w) else (s.fuse 6).getLsbD (16 + w) || s.retired (0x30 + w)

/-- A group in service: none of its banks is disabled or retired (R347). -/
def State.inService (s : State) (g : Nat) : Bool :=
  decide (g < s.build.nGroups)
    && (List.range 8).all fun b => !s.bankFused (8 * g + b) && !s.retired (0x80 + (8 * g + b))

/-- SPX_CAP.INSERVICE. -/
def State.serviceMask (s : State) : Nat :=
  (List.range 16).foldl (fun a g => if s.inService g then a + 2 ^ g else a) 0

/-- The whole S1 scratchpad is in service (R367). -/
def State.s1Live (s : State) : Bool := !s.retired 0x80

/-! ## Placement (R348) -/

/-- The bank of unit `u`. -/
def Build.bankOf (b : Build) (u : Nat) : Nat :=
  let bu := b.bankBytes / 32
  let g := u / (8 * bu)
  let v := u % (8 * bu)
  8 * g + (v % 8 + v / 8) % 8

/-- The channel of a unit: its bank's, or 0x80 in S1 builds (R433). -/
def State.unitChannel (s : State) (u : Nat) : Nat := if s.build.s2 then 0x80 + s.build.bankOf u else 0x80

/-! ## Windows (R354) -/

def State.winBase (s : State) (n : Nat) : Nat := (s.reg (pSPX + 0x200 + 16 * n)).toNat
def State.winLast (s : State) (n : Nat) : Nat := (s.reg (pSPX + 0x204 + 16 * n)).toNat
def State.winAttr (s : State) (n : Nat) : Word := s.reg (pSPX + 0x208 + 16 * n)

/-- The governing window of a unit: the lowest enabled one that contains it. -/
def State.window (s : State) (u : Nat) : Option Nat :=
  (List.range 16).find? fun n => (s.winAttr n).getLsbD 15 && decide (s.winBase n ≤ 32 * u) && decide (32 * u ≤ s.winLast n)

/-- The enabled windows, from 0 up: first and last byte, whether the class is weight; what an access takes with it once it has
been checked (R349, R354). -/
def State.winList (s : State) : List (Nat × Nat × Bool) :=
  ((List.range 16).filter fun n => (s.winAttr n).getLsbD 15).map fun n =>
    (s.winBase n, s.winLast n, s.build.s2 && fld (s.winAttr n) 4 2 == 1)

/-- The class that a list of windows gives a unit: that of the first window that contains it, true for weight (R354, R357). -/
def classIn (ws : List (Nat × Nat × Bool)) (u : Nat) : Bool :=
  ((ws.find? fun w => decide (w.1 ≤ 32 * u) && decide (32 * u ≤ w.2.1)).map fun w => w.2.2).getD false

/-- The class of a unit as the windows stand now. -/
def State.weightClass (s : State) (u : Nat) : Bool := classIn s.winList u

/-! ## Checks (R349, R355, R356) -/

/-- The sub-ports. -/
inductive SubPort where
  | m
  | v
  | d
deriving DecidableEq, Repr

/-- Who accesses: the core at a level with the TIDs that may match, the fabric with a TID, or the part itself (walks,
the Tally, the scrub). -/
inductive Party where
  | core (pl : Nat) (tids : List (BitVec 16))
  | fabric (tid : BitVec 16)
  | internal
deriving DecidableEq, Repr

/-- A check to make: the party, its sub-port, the access kind 0 load, 1 store, 2 fetch. -/
structure SpxAcc where
  who : Party
  sub : SubPort
  kind : Nat
deriving DecidableEq, Repr

def subBit : SubPort → Nat
  | .m => 0
  | .v => 1
  | .d => 2

/-- SPX_BANKMAP's permission of a sub-port for a group. -/
def State.mapAllows (s : State) (g : Nat) (p : SubPort) : Bool :=
  (s.reg64 (pSPX + 0x110)).getLsbD (4 * g + subBit p)

/-- The permission bit of an access kind fails with this subcause. -/
def permCause (attr : Word) (kind : Nat) : Option Nat :=
  match kind with
  | 0 => if attr.getLsbD 11 then none else some 0x07
  | 1 => if attr.getLsbD 10 then none else some 0x08
  | _ => if attr.getLsbD 9 then none else some 0x09

/-- The TID test of a window. -/
def tidAllowed (attr : Word) (tids : List (BitVec 16)) : Bool :=
  attr.getLsbD 14 || tids.any fun t => t.toNat == fld attr 16 16

/-- The permission checks of R355, with unified mode's changes (R366): the first subcause that applies. -/
def State.permCheck (s : State) (a : SpxAcc) (win : Option Nat) : Option Nat :=
  let byCore (pl : Nat) (tids : List (BitVec 16)) : Option Nat :=
    match win with
    | none => some 0x04
    | some n =>
      let at' := s.winAttr n
      if pl < min 2 (fld at' 12 2) then some 0x05
      else if !tidAllowed at' tids then some 0x06
      else permCause at' a.kind
  let byFabric (tid : BitVec 16) : Option Nat :=
    match win with
    | none => some 0x04
    | some n =>
      let at' := s.winAttr n
      if !tidAllowed at' [tid] then some 0x06
      else if !at'.getLsbD 8 then some (if a.kind = 1 then 0x08 else 0x07)
      else permCause at' a.kind
  match a.who with
  | .internal => none
  | .core pl tids => if pl = 2 then (if s.porter then byCore 2 [0#16] else none) else byCore pl tids
  | .fabric tid => if tid = 0 && !s.porter then none else byFabric tid

/-- The check of one unit: the first subcause of R356's table that applies. -/
def State.unitCheck (s : State) (a : SpxAcc) (u : Nat) : Option Nat :=
  let off := 32 * u
  if s.build.capacity ≤ off then some 0x01
  else if s.build.s2 then
    let g := off / s.build.groupBytes
    if !s.inService g then some 0x01
    else if s.spx.groups[Fin.ofNat 16 g] != .on then some 0x02
    else if !s.mapAllows g a.sub then some 0x03
    else s.permCheck a (s.window u)
  else if !s.s1Live then some 0x01
  else s.permCheck a (s.window u)

/-- The units of a range from unit `u` on, `n` of them: the lowest failing one with its subcause. -/
def State.unitsCheck (s : State) (a : SpxAcc) (u : Nat) : Nat → Option (Nat × Nat)
  | 0 => none
  | n + 1 =>
    match s.unitCheck a u with
    | some c => some (u, c)
    | none => s.unitsCheck a (u + 1) n

/-- The number of units that a range of bytes touches. -/
def unitsIn (off len : Nat) : Nat := if len = 0 then 0 else (off + len - 1) / 32 + 1 - off / 32

/-- The check of a range: the offset that fails first and its subcause. -/
def State.rangeCheck (s : State) (a : SpxAcc) (off len : Nat) : Option (Nat × Nat) :=
  (s.unitsCheck a (off / 32) (unitsIn off len)).map fun r => (max off (32 * r.1), r.2)

/-- The DETAIL of a WINDOW fault (R356). -/
def State.windowDetail (s : State) (off sub kind : Nat) : Word :=
  match s.window (off / 32) with
  | some n => w32 (sub + n * 256 + kind * 2 ^ 12 + 2 ^ 14)
  | none => w32 (sub + kind * 2 ^ 12)

/-- CODE of a DENY capture: the subcause with the governing window of the unit (R356). -/
def State.denyCode (s : State) (off sub : Nat) : Nat :=
  match s.window (off / 32) with
  | some n => 2 ^ 12 + n * 256 + sub
  | none => sub

/-- The fabric response to a subcause (R356). -/
def fabricCode (sub : Nat) : Nat :=
  match sub with
  | 1 => 1
  | 2 => 4
  | _ => 2

/-! ## The own scratchpad in physical addresses (R346) -/

def State.spxBase (s : State) : Nat := (s.reg64 (pSPX + 0x104)).toNat

/-- The scratchpad address of an offset, as POISON and MCHK capture it (R189, R256). -/
def State.spxAddr (s : State) (off : Nat) : DWord := w64 (s.spxBase + off)

/-- The offset of a physical address in the own scratchpad. -/
def State.spxOffset (s : State) (pa : Nat) : Option Nat :=
  if s.spxBase ≤ pa && pa < s.spxBase + 2 ^ 23 then some (pa - s.spxBase) else none

end Sys2Proof.Machine
end

