-- ==== Sys2Proof/Machine/Power.lean ====
section
/-! DEFINITION. The Weighbridge: allowance, throttle, target and level (17_power_governor.md R400 to R407). -/

namespace Sys2Proof.Machine

/-! ## Allowance (R402, R403) -/

def State.enAllow (s : State) : Bool := (s.reg (pWEIGH + 0x100)).getLsbD 0
def State.enRamp (s : State) : Bool := (s.reg (pWEIGH + 0x100)).getLsbD 1
/-- WEIGH_ALLOW. -/
def State.allow (s : State) : Nat := (s.reg (pWEIGH + 0x114)).toNat

/-- E has reached the allowance (R403). -/
def State.spent (s : State) : Bool := decide (s.allow * 2 ^ 29 ≤ s.pwr.energy)

/-- The allowance holds T at 0: it is exhausted, or none has been sampled since the last reset (R403). -/
def State.allowHold (s : State) : Bool := s.enAllow && (s.pwr.unsampled || s.spent)

/-- The test of R403: EXHAUSTED is raised and counted, at most once per bell. -/
def State.checkAllow (s : State) : State :=
  if s.enAllow && !s.pwr.unsampled && s.spent && !s.pwr.exhausted then
    let s : State := { s with pwr := { s.pwr with exhausted := true } }
    (s.raiseErr pWEIGH ⟨0, s.allow, s.stamp, s.bell.tick.setWidth 64⟩).bump (pWEIGH + 0x128)
  else s

/-! ## Throttle, target, level (R401, R404, R405) -/

def State.hotAt (s : State) : Nat := fld (s.reg (pWEIGH + 0x108)) 0 8
def State.critAt (s : State) : Nat := fld (s.reg (pWEIGH + 0x108)) 8 8

/-- The effective throttle (R405). -/
def State.throttle (s : State) : Nat :=
  min 7 (s.pwr.throttle.toNat + if s.hotAt ≤ s.pwr.temp.toNat then fld (s.reg (pWEIGH + 0x108)) 16 3 else 0)

/-- The segments of an entry's crate. -/
def TileEntry.segs (e : TileEntry) : List Segment := (e.crate.map fun c => c.segs).getD []

/-- All passes and K-blocks of a TMMA or TMMA.SEG have been added. -/
def TileEntry.allAdded (e : TileEntry) : Bool :=
  e.kb == 0 || match e.op with
    | .tmma => e.kdone == e.kb
    | .tmmaSeg => e.segs.isEmpty || (decide (e.segs.length ≤ e.pass + 1) && e.kdone == e.kb)
    | _ => true

/-- A TMMA or TMMA.SEG is ready to use the array: it is the oldest queued instruction, it has K-blocks left, and no TSAVE has
stopped it or keeps it from starting (R192). -/
def State.arrayReady (s : State) : Bool :=
  match s.tile.queue with
  | e :: _ => (e.op == .tmma || e.op == .tmmaSeg) && !e.allAdded && !(s.tile.draining && (!s.tile.busy || s.tile.stopped))
  | [] => false

/-- T (R401). -/
def State.target (s : State) : Nat :=
  if s.allowHold || s.pwr.tempHold || !s.arrayReady then 0 else 8 - s.throttle

/-- L: equal to T while ENRAMP is 0 (R401). -/
def State.act (s : State) : Nat := if s.enRamp then s.pwr.level else s.target

/-- Cycles since the bell cycle, overtime included: P is this number modulo 8 (R400). -/
def State.age (s : State) : Nat := s.bell.c + s.bell.ot

def State.rampStep (s : State) : Nat := fld (s.reg (pWEIGH + 0x104)) 0 8

/-- The stagger point (R401). -/
def State.staggerPoint (s : State) : Nat := fld s.logical 0 4 * fld (s.reg (pWEIGH + 0x104)) 8 8

/-- With ENRAMP = 0, L follows T at once (R401). -/
def State.levelSync (s : State) : State :=
  if s.enRamp || s.pwr.level == s.target then s else { s with pwr := { s.pwr with level := s.target, since := 0 } }

/-- The cycle begins with L's step, where R401 makes one. -/
def State.stepLevel (s : State) : State :=
  if s.enRamp && s.pwr.level != s.target && decide (s.rampStep ≤ s.pwr.since)
      && (decide (s.target < s.pwr.level) || decide (s.staggerPoint ≤ s.bell.c)) then
    { s with pwr := { s.pwr with level := if s.target < s.pwr.level then s.pwr.level - 1 else s.pwr.level + 1, since := 0 } }
  else s

/-- The age of the cycle in which L steps next, if T stays as it is (R401). -/
def State.rampAge (s : State) : Option Nat :=
  if s.enRamp && s.pwr.level != s.target then
    let a := s.age + max 1 (s.rampStep - s.pwr.since)
    some (if s.target < s.pwr.level then a else max a s.staggerPoint)
  else none

/-- What the static event adds to E in a cycle (R402). -/
def State.staticRate (s : State) : Nat :=
  match s.pwr.state.toNat with
  | 0 => 32 * (s.reg (pWEIGH + 0x140)).toNat
  | 1 => 32 * (s.reg (pWEIGH + 0x144)).toNat
  | 2 => 32 * (s.reg (pWEIGH + 0x144)).toNat
  | _ => 0

/-- The age of the cycle in which the static event alone exhausts the allowance (R403). -/
def State.exhaustAge (s : State) : Option Nat :=
  if s.enAllow && !s.pwr.unsampled && !s.spent && s.staticRate != 0 then
    some (s.age + (s.allow * 2 ^ 29 - s.pwr.energy + s.staticRate - 1) / s.staticRate)
  else none

/-! ## Temperature (R405, R406) -/

/-- HOT, TEMP_CRIT and the hold as temp_code and the thresholds now stand: HOT and TEMP_CRIT are raised where temp_code reaches its
threshold. -/
def State.checkTemp (s : State) : State :=
  let t := s.pwr.temp.toNat
  let hot := decide (s.hotAt ≤ t)
  let crit := decide (s.critAt ≤ t)
  let low := if s.critAt ≤ s.hotAt then s.critAt else s.hotAt
  let newHot := hot && !s.pwr.hotSeen
  let newCrit := crit && !s.pwr.critSeen
  let hold := crit || (s.pwr.tempHold && decide (low ≤ t))
  let s : State := { s with pwr := { s.pwr with hotSeen := hot, critSeen := crit, tempHold := hold } }
  let s := if newHot then s.raise pWEIGH 1 else s
  if newCrit then s.raiseErr pWEIGH ⟨2, t, s.stamp, 0#64⟩ else s

/-! ## Forecast (R407) -/

/-- What pwr_forecast is driven with at C = SPLIT. -/
def State.forecastValue (s : State) : Nat :=
  let fc := s.reg (pWEIGH + 0x10C)
  let split := s.split
  if fc.getLsbD 16 && 4096 ≤ split then
    let num := s.pwr.energy * s.period
    let den := 2 ^ 29 * split
    min 0xFFFF ((num + den - 1) / den + fld (s.reg (pWEIGH + 0x110)) 0 16)
  else fld fc 0 16

def State.updateForecast (s : State) : State :=
  { s with pwr := { s.pwr with forecast := BitVec.ofNat 16 s.forecastValue } }

end Sys2Proof.Machine
end

