-- ==== Sys2Proof/Machine/Net.lean ====
section
/-! DEFINITION. The sending side of the network interface: routes, tags, lanes, flits, replay (16_fabric_and_pitch_map.md
R368 to R386, R391, R459, R460). -/

namespace Sys2Proof.Machine

/-! ## Error codes (R373) -/

def eBAD_ACCESS : Nat := 1
def eACCESS_DENIED : Nat := 2
def eTARGET_RESET : Nat := 3
def eBANK_OFF : Nat := 4
def eDATA_ERROR : Nat := 5
def eHOLE : Nat := 6
def eNO_ROUTE : Nat := 7

/-! ## Counters of the FAB page -/

def kLINKERR : Nat := pFAB + 0x128
def kLATERSP : Nat := pFAB + 0x12C
def kHOLEDROP : Nat := pFAB + 0x130
def kBADMSG : Nat := pFAB + 0x134

/-! ## Routes (R372, R391) -/

/-- The routing fields of a destination, or the error code that refuses it. -/
inductive Route where
  | go (pdie : BitVec 7) (pdv : Bool) (ppitch : BitVec 11) (ppv : Bool)
  | no (code : Nat)
deriving DecidableEq, Repr

/-- The translation of a destination's logical ID by the applied maps (R372, R391). -/
def State.route (s : State) (dst : Word) (tid : BitVec 16) : Route :=
  if fld dst 18 14 ≠ s.pkg then .go 0 false 0 false
  else
    let d := fld dst 11 7
    let e := s.pitch.die.get d
    if !e.msb then .no eNO_ROUTE
    else
      let pd := BitVec.ofNat 7 (fld e 0 7)
      if s.ownDie ≠ some d then .go pd true 0 false
      else
        let c := s.pitch.core.get (fld dst 0 11)
        match fld c 30 2 with
        | 0 => .no eNO_ROUTE
        | 1 => .go pd true (BitVec.ofNat 11 (fld c 0 11)) true
        | 2 => .no eHOLE
        | _ => if tid = 0 then .go pd true (BitVec.ofNat 11 (fld c 0 11)) true else .no eACCESS_DENIED

/-! ## Lanes -/

def Lane.active (l : Lane) : Bool := l.up && l.en && l.neg && !l.stopped

/-- The version in use; D2 before any negotiation. -/
def State.linkVer (s : State) : Nat := match s.net.link with | some r => r.ver.toNat | none => 2

/-- The lane of a message (R375): by the destination when both are in use. -/
def State.laneFor (s : State) (m : OutMsg) : Option (Fin 2) :=
  match s.net.lanes[0].active, s.net.lanes[1].active with
  | true, true =>
    let b := if m.phys then m.ppitch.getLsbD 0 != m.pdie.getLsbD 0 else m.dst.getLsbD 0 != m.dst.getLsbD 11
    some (if b then 1 else 0)
  | true, false => some 0
  | false, true => some 1
  | false, false => none

/-- The payload flits and the header (R371). -/
def OutMsg.flits (m : OutMsg) : Nat := 1 + (m.data.length + 31) / 32

/-- The channel of a message equals its class (R371). -/
def chan (c : BitVec 2) : Fin 4 := ⟨c.toNat, c.isLt⟩

/-- The flits kept for replay: the last 128 (R382). -/
def keep128 (xs : List SentFlit) : List SentFlit := xs.drop (xs.length - 128)

/-- The first message whose channel holds a credit, taken one flit further; `none` where no flit can leave. -/
def takeFlit (cr : Vector Nat 4) : List (OutMsg × Nat) → Option ((OutMsg × Nat) × List (OutMsg × Nat))
  | [] => none
  | (m, k) :: q =>
    if 0 < cr[chan m.cls] then some ((m, k), if k + 1 < m.flits then (m, k + 1) :: q else q)
    else (takeFlit cr q).map fun r => (r.1, (m, k) :: r.2)

/-- Sends flits while credits last (R22); answers the lane and the flits sent. -/
def pumpLane : Nat → Lane → Lane × Nat
  | 0, l => (l, 0)
  | n + 1, l =>
    if l.active then
      match takeFlit l.credits l.txq with
      | none => (l, 0)
      | some ((m, k), q) =>
        let c := chan m.cls
        let r := pumpLane n { l with
          txq := q, credits := l.credits.set c (l.credits[c] - 1), txSeq := l.txSeq + 1,
          sent := keep128 (l.sent ++ [⟨l.txSeq, some m, k⟩]) }
        (r.1, r.2 + 1)
    else (l, 0)

/-- The flits that a lane has still to send. -/
def Lane.backlog (l : Lane) : Nat := (l.txq.map fun x => x.1.flits).foldl (· + ·) 0

def State.setLane (s : State) (n : Fin 2) (l : Lane) : State := { s with net := { s.net with lanes := s.net.lanes.set n l } }

/-- Sends what the lane's credits allow; each flit costs its energy. -/
def State.pump (s : State) (n : Fin 2) : State :=
  let r := pumpLane s.net.lanes[n].backlog s.net.lanes[n]
  (s.setLane n r.1).charge 9 r.2

/-- Queues a message on its lane; answers whether there is one. -/
def State.enqueue (s : State) (m : OutMsg) : State × Bool :=
  match s.laneFor m with
  | none => (s, false)
  | some n =>
    let l := s.net.lanes[n]
    ((s.setLane n { l with txq := l.txq ++ [(m, 0)] }).pump n, true)

/-- Whether a D1 link can carry a TID (R374). -/
def tidFits (ver : Nat) (tid : BitVec 16) : Bool := ver != 1 || decide (tid.toNat ≤ 0xFE) || tid == 0xFFFF#16

/-- What a message carries beside its routing and its sender. -/
structure Body where
  cls : BitVec 2
  opc : BitVec 6
  len : Nat
  tid : BitVec 16
  stamp : DWord
  addr : BitVec 56
  tag : Byte
  data : List Byte
deriving DecidableEq, Repr

def State.outMsg (s : State) (b : Body) (dst : Word) (phys : Bool) (pdie : BitVec 7) (pdv : Bool) (ppitch : BitVec 11)
    (ppv : Bool) : OutMsg :=
  { cls := b.cls, opc := b.opc, pdie := pdie, ppitch := ppitch, ppv := ppv, pdv := pdv, phys := phys, su := s.srcId.2,
    len := b.len, tid := b.tid, src := s.srcId.1, dst := dst, stamp := b.stamp, addr := b.addr, tag := b.tag,
    data := b.data }

/-- Sends a message to a logical ID; answers the code that refuses it, if one does (R370, R374, R375, R391). -/
def State.post (s : State) (b : Body) (dst : Word) : State × Option Nat :=
  if !tidFits s.linkVer b.tid then (s, some eACCESS_DENIED)
  else
    match s.route dst b.tid with
    | .no c => (s, some c)
    | .go pd pdv pp ppv =>
      let r := s.enqueue (s.outMsg b dst false pd pdv pp ppv)
      (r.1, if r.2 then none else some eNO_ROUTE)

/-- Sends a message by its physical position alone (R368, R460). -/
def State.postPhys (s : State) (b : Body) (dst : Word) (pdie : BitVec 7) (ppitch : BitVec 11) : State × Option Nat :=
  if !tidFits s.linkVer b.tid then (s, some eACCESS_DENIED)
  else
    let r := s.enqueue (s.outMsg b dst true pdie true ppitch true)
    (r.1, if r.2 then none else some eNO_ROUTE)

/-- Sends a response, notice or CTRL message: one that the maps refuse is dropped and counted (R459), one without a lane
is not sent (R375). -/
def State.postOther (s : State) (b : Body) (dst : Word) : State :=
  match s.route dst b.tid with
  | .no _ => s.bump kHOLEDROP
  | .go pd pdv pp ppv => (s.enqueue (s.outMsg b dst false pd pdv pp ppv)).1

/-- An answer or notice to the sender of a message: by its unassigned ID where SU was set (R372, R460). -/
def State.answer (s : State) (b : Body) (src : Word) (su : Bool) : State :=
  if su then
    (s.postPhys b src (BitVec.ofNat 7 (fld src 11 7)) (BitVec.ofNat 11 (fld src 0 11))).1
  else s.postOther b src

/-! ## Tags (R378, R398, R399) -/

def State.freeTag (s : State) : Option Byte :=
  ((List.range 256).find? fun n => !s.net.tags.any fun t => t.tag.toNat == n).map (BitVec.ofNat 8)

def State.addTag (s : State) (t : TagEntry) : State := { s with net := { s.net with tags := s.net.tags ++ [t] } }
def State.dropTag (s : State) (tag : Byte) : State :=
  { s with net := { s.net with tags := s.net.tags.filter fun t => t.tag != tag } }

/-- Outstanding tags that are not absorbed. -/
def State.openTags (s : State) : List TagEntry := s.net.tags.filter fun t => !t.absorbed
/-- Requests of device accesses whose answers are outstanding (R328). -/
def State.deviceOut (s : State) : Bool := s.openTags.any fun t => t.device
def State.absorbedTags (s : State) : Nat := (s.net.tags.filter fun t => t.absorbed).length

/-- Marks every outstanding tag absorbed and raises ABSORBED when there are any, with their number as CODE (R398). -/
def State.absorbTags (s : State) : State × Nat :=
  let n := s.openTags.length
  let s := { s with net := { s.net with tags := s.net.tags.map fun t => { t with absorbed := true } } }
  if n = 0 then (s, 0)
  else (s.raiseErr pFAB ⟨2, n, s.stamp, 0#64⟩, n)

/-! ## The wire (R371, R374, R380, R385) -/

/-- Bytes 0 to 3 and 6 to 7 of a header, as numbers. -/
def OutMsg.word0 (m : OutMsg) (ver : Nat) : Nat :=
  ver + 256 * (m.cls.toNat * 64 + m.opc.toNat) + 65536 * (m.len + 512 * m.pdie.toNat)
def OutMsg.route16 (m : OutMsg) : Nat :=
  m.ppitch.toNat * 32 + (if m.ppv then 16 else 0) + (if m.pdv then 8 else 0) + (if m.phys then 4 else 0)
    + (if m.su then 2 else 0)

/-- The 32 bytes of a D2 header (R371). -/
def OutMsg.headerD2 (m : OutMsg) : List Byte :=
  leBytes (m.word0 2) 4 ++ leBytes m.tid.toNat 2 ++ leBytes m.route16 2 ++ leBytes m.src.toNat 4
    ++ leBytes m.dst.toNat 4 ++ leBytes m.stamp.toNat 8 ++ leBytes m.addr.toNat 7 ++ [m.tag]

/-- The 32 bytes of a D1 header (R374). -/
def OutMsg.headerD1 (m : OutMsg) : List Byte :=
  leBytes (m.word0 1) 4 ++ [m.tid.setWidth 8, m.tag] ++ leBytes m.route16 2 ++ leBytes m.src.toNat 4
    ++ leBytes m.dst.toNat 4 ++ leBytes (m.stamp.toNat % 2 ^ 24) 4 ++ leBytes (m.stamp.toNat / 2 ^ 24) 1
    ++ leBytes m.addr.toNat 7 ++ leBytes 0 4

/-- The 32 data bytes of flit `k` of a message. -/
def OutMsg.flit (m : OutMsg) (ver k : Nat) : List Byte :=
  if k = 0 then (if ver = 1 then m.headerD1 else m.headerD2)
  else
    let p := (m.data.drop (32 * (k - 1))).take 32
    p ++ List.replicate (32 - p.length) 0#8

/-- The HELLO flit of this core (R385). -/
def helloBytes (s : State) : List Byte :=
  [0x00#8, 0xC1#8, 0x02#8, 0x01#8] ++ leBytes 0x1F 4 ++ leBytes s.physWord.toNat 4 ++ List.replicate 20 0#8

/-- The CRC of a flit: its 32 bytes, its number and its control byte (R380). -/
def flitCrc (bytes : List Byte) (seq : Byte) (sop eop : Bool) (vc : BitVec 2) : BitVec 32 :=
  crc32c (bytes ++ [seq, BitVec.ofNat 8 ((if sop then 8 else 0) + (if eop then 4 else 0) + vc.toNat)])

/-! ## Lanes coming up, going down, retired (R383 to R385) -/

/-- Sends HELLO when the lane holds a CTRL credit (R385 step 3). -/
def State.sendHello (s : State) (n : Fin 2) : State :=
  let l := s.net.lanes[n]
  if 0 < l.credits[3] then
    (s.setLane n { l with credits := l.credits.set 3 (l.credits[3] - 1), helloSent := true, txSeq := l.txSeq + 1,
                          sent := keep128 (l.sent ++ [⟨l.txSeq, none, 0⟩]) }).charge 9 1
  else s

/-- Each message of which one of these flits, the first unacknowledged and those after it, was sent, once, in the order sent: it
begins with its header, or on its channel the list begins within it. -/
def sentMsgs (seen : List (BitVec 2)) : List SentFlit → List OutMsg
  | [] => []
  | f :: fs =>
    match f.msg with
    | none => sentMsgs seen fs
    | some m => if f.k = 0 || !seen.contains m.cls then m :: sentMsgs (m.cls :: seen) fs else sentMsgs seen fs

/-- The messages of a lane that are sent again whole elsewhere: those with a flit at or after the first number that is not
acknowledged, and those not sent whole (R383). A message begun before that number comes first. -/
def Lane.unresolved (l : Lane) : List OutMsg :=
  let after := match l.nakSeq with
    | none => []
    | some q => sentMsgs [] (l.sent.dropWhile fun (x : SentFlit) => x.seq != q)
  let begun := l.txq.filter fun x => x.2 != 0 && !(after.any fun m => m.cls == x.1.cls)
  begun.map Prod.fst ++ after ++ (l.txq.filter fun x => x.2 == 0).map Prod.fst

/-- Puts messages of a lost lane into a lane's queue: behind what has begun there, before any new message (R383). -/
def Lane.takeOn (l : Lane) (ms : List OutMsg) : Lane :=
  { l with txq := (l.txq.filter fun x => x.2 != 0) ++ ms.map (fun m => (m, 0)) ++ (l.txq.filter fun x => x.2 == 0) }

/-- Sends messages again on the lane that carries traffic; without one they are lost (R375, R383). -/
def State.resend (s : State) (ms : List OutMsg) : State :=
  if s.net.lanes[0].active then (s.setLane 0 (s.net.lanes[0].takeOn ms)).pump 0
  else if s.net.lanes[1].active then (s.setLane 1 (s.net.lanes[1].takeOn ms)).pump 1
  else { s with net := { s.net with lost := s.net.lost ++ ms } }

/-- The lane leaves service (R383): fab_lane_en falls, LANE_RETIRED is raised, unresolved messages move. -/
def State.retireLane (s : State) (n : Fin 2) (cause : Nat) : State :=
  let l := s.net.lanes[n]
  if l.retired then s
  else
    let ms := l.unresolved
    let s := s.setLane n { l with en := false, retired := true, neg := false, txq := [], sent := [] }
    (s.raiseErr pFAB ⟨6, cause * 256 + n.val, s.stamp, 0#64⟩).resend ms

/-- Every lane is retired: no lane remains (R383, R436). -/
def State.noLane (s : State) : Bool := s.net.lanes[0].retired && s.net.lanes[1].retired

end Sys2Proof.Machine
end

