-- ==== Sys2Proof/Machine/Ras.lean ====
section
/-! DEFINITION. Channels, buckets, retirement and fencing (19_faults_and_retirement.md R433 to R443), and what a reset entry
and a fence do to the work in progress (18_bring_up_and_reset.md R426). -/

namespace Sys2Proof.Machine

/-- The channels of the build (R433). -/
def State.hasChannel (s : State) (ch : Nat) : Bool :=
  decide (ch ≤ 1) || decide (4 ≤ ch ∧ ch ≤ 7) || decide (0x10 ≤ ch ∧ ch ≤ 0x13)
    || decide (0x20 ≤ ch ∧ ch < 0x20 + s.build.iWays) || decide (0x30 ≤ ch ∧ ch < 0x30 + s.build.dWays)
    || ch == 0x40 || ch == 0x41 || decide (0x80 ≤ ch ∧ ch < 0x80 + (if s.build.s2 then s.build.nBanks else 1))

def State.level (s : State) (ch : Nat) : Nat := (s.ras.levels.get ch).toNat
def State.setLevel (s : State) (ch n : Nat) : State :=
  { s with ras := { s.ras with levels := if n = 0 then s.ras.levels.erase ch else s.ras.levels.set ch (w32 n) } }
def State.thresh (s : State) : Nat := fld (s.reg (pRAS + 0x100)) 0 8
def State.ucw (s : State) : Nat := fld (s.reg (pRAS + 0x100)) 16 8

/-! ## Work that is abandoned (R426) -/

/-- What a reset entry and a fence stop: uncommitted instructions, the tile engine and its queue, the Tally's apply with
both buffers of every slot, the divide-and-root unit, and L (R426). -/
def State.abandonWork (s : State) : State :=
  { s with
    cpu := { s.cpu with
      wait := .none, waited := [], trapOwed := none, fetched := [], lineLoad := false, loop := none, issued := false, midUnits := false
      repOpen := false, m1 := [], div := none, movtStamp := none, dues := [], haltDue := false, halted := false, stepping := false }
    xlat := { s.xlat with walk := none, served := [], failed := [], bcast := none }
    tile := { s.tile with queue := [], busy := false, draining := false, stopped := false, restored := none, late := [], issue := s.tile.engine, heldTuse := [] }
    net := { s.net with held := s.tile.unanswered ++ s.net.held }
    tally := { s.tally with apply := none, due := none,
                            slots := s.tally.slots.map fun t => { t with rows0 := [], rows1 := [] } }
    pwr := { s.pwr with level := 0, since := 0 } }

/-! ## Fencing (R437, R438, R440) -/

/-- The core fences with a reason. A fence while fenced does nothing. -/
def State.fenceCore (s : State) (reason : Byte) (reapply fromFw : Bool) : State × List ErrEvt :=
  if s.ras.fence.isSome then (s, [])
  else
    let s := { s with ras := { s.ras with fence := some reason } }
    let r := if reapply then (s, []) else
      let l := s.addLedger 2 0xFF 0 (reason.setWidth 32) 0#64 fromFw
      (l.1, ⟨3, reason.toNat, s.stamp, 0#64⟩ :: l.2)
    let s := r.1.abandonWork
    let able := (s.reg (pFAB + 0x100)).getLsbD 8 && (s.net.link.map fun l => l.feat.getLsbD 4).getD false && !s.noLane
    let s := if !reapply && !able then s.bump kHOLEDROP else s
    let s := { s with
      net := { s.net with holeDue := !reapply && able }
      life := { s.life with opening := none, chal := none, verifying := false } }
    let s := if s.rst.phase == .run || s.rst.phase == .wait || s.rst.phase == .bootfail then
        { s with rst := { s.rst with
            phase := .drain, fenceDrain := true, cycles := 0, drainStamp := s.stamp, scrubDone := false
            drainLimit := max 256 (fld (s.reg (pRESET + 0x108)) 0 24)
            scrubWanted := decide (2 ≤ s.life.shadow.toNat) || (s.reg (pRESET + 0x104)).getLsbD 0 } }
      else s
    (s, r.2)

/-! ## Retirement (R436) -/

/-- CODE of an UNCORR capture of L1D: its way and set, by 16 * set + way. -/
def lineCode (i : Nat) : Nat := 2 ^ 15 + i % 16 * 2 ^ 11 + i / 16

/-- A Dirty line whose data is lost: UNCORR and a machine check; its channel apart (R321). -/
def State.lineLost (s : State) (i line : Nat) (ptag : BitVec 16) : State :=
  (s.raiseErr pCACHE ⟨1, lineCode i, s.stamp, w64 line⟩).machineCheck 5 false ptag.toNat (w64 line)

/-- The lines of a cache way that retires leave it. Dirty ones that can be read are to be written back, and are not fetched again
before that; the others are lost (R321). -/
def State.dropWay (s : State) (ic : Bool) (w : Nat) : State :=
  let c := if ic then s.caches.i else s.caches.d
  let gone := c.lines.filter fun e => e.1 % 16 == w && e.2.dirty
  let c' := { c with lines := c.lines.filter fun e => e.1 % 16 != w }
  let wb := (gone.filter fun e => e.2.err != .bad).map fun e => (e.2.line, e.2.data)
  let s := s.addReg (pCACHE + 0x11C) wb.length
  let s : State := { s with
    caches := { (if ic then { s.caches with i := c' } else { s.caches with d := c' }) with leaving := s.caches.leaving ++ wb } }
  (gone.filter fun e => e.2.err == .bad).foldl (fun s e => s.lineLost e.1 e.2.line 0#16) s

/-- The power-off of a group that leaves service (R362, R364, R436). -/
def leaveService : GroupState → GroupState
  | .on => .closing
  | .opening => .off
  | g => g

/-- The effect of a retirement (R436). -/
def State.retireEffect (s : State) (ch : Nat) (reapply fromFw : Bool) : State × List ErrEvt :=
  if ch ≤ 1 then
    let s := s.retireLane (if ch = 0 then 0 else 1) 4
    if s.noLane then s.fenceCore 4 reapply fromFw else (s, [])
  else if ch ≤ 7 then s.fenceCore 4 reapply fromFw
  else if ch ≤ 0x13 then (s, [])
  else if ch < 0x30 then (s.dropWay true (ch - 0x20), [])
  else if ch < 0x40 then (s.dropWay false (ch - 0x30), [])
  else if ch = 0x40 then s.fenceCore 1 reapply fromFw
  else if ch = 0x41 then s.fenceCore 2 reapply fromFw
  else
    let g := Fin.ofNat 16 ((ch - 0x80) / 8)
    let s : State := { s with spx := { s.spx with groups := s.spx.groups.set g (leaveService s.spx.groups[g]) } }
    if s.serviceMask == 0 then s.fenceCore 5 reapply fromFw else (s, [])

/-- Retires a channel that exists and is not retired yet (R434, R436, R443). -/
def State.retireChannel (s : State) (ch : Nat) (reapply fromFw : Bool) : State × List ErrEvt :=
  if !s.hasChannel ch || s.retired ch then (s, [])
  else
    let last := (s.ras.lastErr.find? fun e => e.1 == ch).map Prod.snd |>.getD (0#32, 0#64)
    let s := { s with ras := { s.ras with retired := s.ras.retired ||| (1#256 <<< ch) } }
    let r := if reapply then (s, []) else
      let s := s.orReg (pRAS + 0x10C) 0x8#32
      let l := s.addLedger 1 ch (s.level ch) last.1 last.2 fromFw
      (l.1, ⟨2, ch, s.stamp, last.2⟩ :: l.2)
    let e := r.1.retireEffect ch reapply fromFw
    (e.1, r.2 ++ e.2)

/-! ## Counting (R433 to R435) -/

/-- The leak, where it is due: every bucket that is not retired falls by 1, the counter starts anew (R434). -/
def State.leak (s : State) : State :=
  if s.ras.leakDue then
    let lv := s.ras.levels.filterMap fun (c : Nat × Word) =>
      if s.retired c.1 then some c else if c.2.toNat ≤ 1 then none else some (c.1, c.2 - 1#32)
    ({ s with ras := { s.ras with levels := lv, leakDue := false } }).setReg (pRAS + 0x108) 0#32
  else s

/-- What is counted on a channel. -/
inductive RasKind where
  | transient
  | uncorrectable
  | immediate
deriving DecidableEq, Repr

/-- The bucket of a channel rises by `n`; WARN is raised when it reaches half the threshold (R434, R435). -/
def State.fillBucket (s : State) (ch n : Nat) : State :=
  let a := s.level ch
  let b := min 255 (a + n)
  let h := (s.thresh + 1) / 2
  let s := s.setLevel ch b
  if a < h && h ≤ b then s.raise pRAS 7 else s

/-- The channel retires when its LEVEL has reached the threshold (R434). -/
def State.retireFull (s : State) (ch : Nat) : State × List ErrEvt :=
  if s.thresh ≤ s.level ch then s.retireChannel ch false false else (s, [])

/-- Notes the CODE and ADDR of the last error on a channel. -/
def State.noteErr (s : State) (ch code : Nat) (addr : DWord) : State :=
  { s with ras := { s.ras with lastErr := (ch, w32 code, addr) :: s.ras.lastErr.filter fun e => e.1 != ch } }

def State.flushEvts (r : State × List ErrEvt) : State := r.1.raiseErrs pRAS r.2

/-- A transient event: CORR, its counter, the bucket, perhaps retirement. -/
def State.countTransient (s : State) (ch : Nat) : State :=
  let s := ((s.raise pRAS 0).orReg (pRAS + 0x10C) 0x2#32).bump (pRAS + 0x144)
  State.flushEvts ((s.fillBucket ch 1).retireFull ch)

/-- An uncorrectable event: UNCORR, its counter and ledger entry, the bucket, perhaps retirement. -/
def State.countUncorr (s : State) (ch code : Nat) (addr : DWord) : State :=
  let s := (s.orReg (pRAS + 0x10C) 0x4#32).bump (pRAS + 0x148)
  let s := s.fillBucket ch s.ucw
  let lvl := s.level ch
  let r := s.retireFull ch
  let l := r.1.addLedger 4 ch lvl (w32 code) addr false
  l.1.raiseErrs pRAS (⟨1, ch, s.stamp, addr⟩ :: r.2 ++ l.2)

/-- An event on a channel with the CODE and ADDR of the detecting page: the bucket rises, WARN and retirement follow. -/
def State.rasCount (s : State) (ch : Nat) (k : RasKind) (code : Nat) (addr : DWord) : State :=
  if !s.hasChannel ch || s.retired ch then s
  else
    let s := s.leak.noteErr ch code addr
    match k with
    | .immediate => State.flushEvts (s.retireChannel ch false false)
    | .transient => s.countTransient ch
    | .uncorrectable => s.countUncorr ch code addr

/-- A lane leaves service for a cause of its own; causes 1 and 2 retire its channel too (R433); with no lane left the core fences
(R383, R436). -/
def State.loseLane (s : State) (n : Fin 2) (cause : Nat) : State :=
  let s := s.retireLane n cause
  if cause ≤ 2 then s.rasCount n.val .immediate (cause * 256 + n.val) 0#64
  else if s.noLane then
    let r := s.fenceCore 4 false false
    r.1.raiseErrs pRAS r.2
  else s

/-! ## Malformed and misrouted messages (R373, R378, R388) -/

/-- BAD_MSG: it is counted, and a malformed message counts on its virtual channel (R433). -/
def State.badMsg (s : State) (cls : BitVec 2) (opc : BitVec 6) (src : Word) : State :=
  let code := cls.toNat * 64 + opc.toNat
  let s := (s.raiseErr pFAB ⟨3, code, s.stamp, src.setWidth 64⟩).bump kBADMSG
  s.rasCount (4 + cls.toNat) .transient code (src.setWidth 64)

/-- MISROUTE (R388). -/
def State.misroute (s : State) (src dst : Word) (stamp : DWord) : State :=
  s.raiseErr pFAB ⟨4, 0, stamp, join64 src dst⟩

end Sys2Proof.Machine
end

