-- ==== Sys2Proof/Machine/Spx.lean ====
section
/-! DEFINITION. Units of the scratchpad as stored: their codes, reads with correction, writes with read-modify-write and
poison (15_scratchpad_port.md R357 to R361, R365). -/

namespace Sys2Proof.Machine

/-! ## The SEC-DED code of the activation class (R357) -/

/-- The positions of the 64 data bits: 1 to 71 without the powers of two. -/
def dataPositions : List Nat :=
  (List.range 72).filter fun p => p != 0 && p != 1 && p != 2 && p != 4 && p != 8 && p != 16 && p != 32 && p != 64

/-- XOR of the positions of the set bits of a data word, bit i standing at the i-th position. -/
def positionsXor (d : Nat) : List Nat → Nat
  | [] => 0
  | p :: ps => (if d % 2 = 1 then p else 0) ^^^ positionsXor (d / 2) ps

/-- The parity of the `n` low bits. -/
def parityNat (x : Nat) : Nat → Bool
  | 0 => false
  | n + 1 => (x % 2 == 1) != parityNat (x / 2) n

/-- The check byte of a data word. -/
def secded (d : Nat) : Nat :=
  let c := positionsXor d dataPositions
  c + (if parityNat d 64 != parityNat c 7 then 128 else 0)

/-- What a 72-bit word reads as: its data corrected, whether it was corrected, whether it is uncorrectable. -/
structure WordRead where
  data : Nat
  corrected : Bool
  bad : Bool
deriving DecidableEq, Repr

/-- Decodes a stored 72-bit word: no error, one corrected, two or more detected (R357). -/
def readWord (x : Nat) : WordRead :=
  let d := x % 2 ^ 64
  let syn := positionsXor d dataPositions ^^^ (x / 2 ^ 64 % 128)
  if parityNat x 72 then
    if syn = 0 || syn = 2 ^ Nat.log2 syn then (if syn ≤ 71 then ⟨d, true, false⟩ else ⟨d, false, true⟩)
    else if 71 < syn then ⟨d, false, true⟩
    else ⟨d ^^^ 2 ^ (dataPositions.findIdx fun p => p == syn), true, false⟩
  else if syn = 0 then ⟨d, false, false⟩
  else ⟨d, false, true⟩

/-! ## The BCH code of the weight class (R358) -/

/-- The product of the minimal polynomials of α, α^3 and α^5 over GF(2^9) with x^9 + x^4 + 1. -/
def bchGenerator : Nat := 0xD612B79

/-- The remainder of x^27 times the polynomial whose `n` low bits are those of `d`, highest bit first. -/
def bchRem (d : Nat) : Nat → Nat → Nat
  | 0, r => r
  | n + 1, r =>
    bchRem d n (if r.testBit 26 != d.testBit n then (2 * r % 2 ^ 27) ^^^ (bchGenerator % 2 ^ 27) else 2 * r % 2 ^ 27)

/-- The 28 check bits of a unit. -/
def bchCheck (d : Nat) : Nat :=
  let c := bchRem d 256 0
  c + (if parityNat d 256 != parityNat c 27 then 2 ^ 27 else 0)

/-! ## Units as stored -/

def State.mark (s : State) (u : Nat) : UnitMark := (s.spx.marks.find? fun m => m.unit == u).getD ⟨u, 0, 0, 0, none⟩

def State.setMark (s : State) (m : UnitMark) : State :=
  let rest := s.spx.marks.filter fun x => x.unit != m.unit
  let ms := if m.weight = 0#4 && m.poison = 0#4 && m.flips = 0#288 && m.base.isNone then rest
    else rest.filter (fun x => x.unit < m.unit) ++ m :: rest.filter (fun x => m.unit < x.unit)
  { s with spx := { s.spx with marks := ms } }

def State.unitData (s : State) (u : Nat) : List Byte := s.spx.mem.read (32 * u) 32

/-- Word `w` of a unit's data. -/
def wordOf (data : List Byte) (w : Nat) : Nat := leNat ((data.drop (8 * w)).take 8)

/-- The check bits [70:64] of word `w` of a weight unit (R358). -/
def weightCheck (data : List Byte) (w : Nat) : Nat := bchCheck (leNat data) / 2 ^ (7 * w) % 128

/-- The data of the weight unit that the words of the weight class belong to. -/
def UnitMark.whole (m : UnitMark) (data : List Byte) : List Byte := m.base.getD data

/-- The 8 check bits that word `w` was stored with. -/
def storedCheck (m : UnitMark) (data : List Byte) (w : Nat) : Nat :=
  if m.weight.getLsbD w then
    weightCheck (m.whole data) w + (if !m.poison.getLsbD w && 5 / 2 ^ w % 2 = 1 then 128 else 0)
  else if m.poison.getLsbD w then 255 - secded (wordOf data w)
  else secded (wordOf data w)

/-- The 72 bits that word `w` returns when the unit's bits `flips` come back flipped. -/
def returned (m : UnitMark) (data : List Byte) (flips : UnitFlips) (w : Nat) : Nat :=
  (wordOf data w + 2 ^ 64 * storedCheck m data w) ^^^ (flips.toNat / 2 ^ (72 * w) % 2 ^ 72)

/-- The number of ones among the `n` low bits. -/
def onesNat (x : Nat) : Nat → Nat
  | 0 => 0
  | n + 1 => x % 2 + onesNat (x / 2) n

/-- The bits in which a unit as returned differs from the weight unit that it was, over what the BCH code covers: all but bit 71 of
each word (R358). -/
def bchErrors (m : UnitMark) (data : List Byte) (flips : UnitFlips) : Nat :=
  (List.range 4).foldl (fun a w =>
    a + onesNat (returned m data flips w ^^^ (wordOf (m.whole data) w + 2 ^ 64 * weightCheck (m.whole data) w)) 71) 0

/-- The class tag as returned: bit 71 of each word (R358). -/
def tagOf (m : UnitMark) (data : List Byte) (flips : UnitFlips) : Nat :=
  (List.range 4).foldl (fun a w => a + returned m data flips w / 2 ^ 71 % 2 * 2 ^ w) 0

/-- A read of a unit: its bytes, whether a bit was corrected, its bad words, whether the tag was wrong, and whether more
bits are wrong than the code is stated to detect. -/
structure UnitRead where
  data : List Byte
  corrected : Bool
  bad : BitVec 4
  mismatch : Bool
  beyond : Bool
deriving DecidableEq, Repr

/-- The read of a unit in one class (R357 to R359). -/
def decodeUnit (weight : Bool) (m : UnitMark) (data : List Byte) (flips : UnitFlips) : UnitRead :=
  if weight then
    if tagOf m data flips ≠ 5 then ⟨data, false, 0xF#4, true, false⟩
    else if m.weight != 0#4 || m.base.isSome then
      let n := bchErrors m data flips
      if n = 0 then ⟨m.whole data, false, 0#4, false, false⟩
      else if n ≤ 3 then ⟨m.whole data, true, 0#4, false, false⟩
      else if n = 4 then ⟨data, false, 0xF#4, false, false⟩
      else ⟨data, false, 0#4, false, true⟩
    else ⟨data, false, 0#4, false, true⟩
  else
    let ws := (List.range 4).map fun w => readWord (returned m data flips w)
    let bad := (ws.zipIdx.filter fun x => x.1.bad).foldl (fun (a : BitVec 4) x => a ||| (1#4 <<< x.2)) 0#4
    ⟨ws.flatMap fun w => leBytes w.data 8, ws.any (·.corrected), bad, false, false⟩

/-! ## Reads (R361) -/

/-- The words of a unit that hold bytes `a` to `a + n - 1` of it. -/
def wordsNeeded (a n : Nat) : BitVec 4 :=
  (List.range 4).foldl (fun (x : BitVec 4) w => if a < 8 * w + 8 && 8 * w < a + n then x ||| (1#4 <<< w) else x) 0#4

/-- The CODE of an UNCORR capture of the SPX page. -/
def uncorrCode (reader : Nat) (mismatch weight : Bool) (bank : Nat) : Nat :=
  reader * 2 ^ 12 + (if mismatch then 2 ^ 11 else 0) + (if weight then 2 ^ 10 else 0) + bank % 128

/-- A corrected read: CORR, SPX_CORRCNT, the bank's bucket, the write-back that CWB asks for. -/
def State.spxCorr (s : State) (u : Nat) : State :=
  let s := (s.raise pSPX 0).bump (pSPX + 0x128)
  let s : State := if (s.reg (pSPX + 0x100)).getLsbD 0 && !s.spx.corr.contains u then
      { s with spx := { s.spx with corr := s.spx.corr ++ [u] } } else s
  s.rasCount (s.unitChannel u) .transient 0 (w64 (32 * u))

/-- An uncorrectable, poisoned or mismatching read: UNCORR; the bank counts it unless it is a poison or a mismatch (R433). -/
def State.spxUncorr (s : State) (u reader : Nat) (weight mismatch counts : Bool) : State :=
  let code := uncorrCode reader mismatch weight (if s.build.s2 then s.build.bankOf u else 0)
  let s := s.raiseErr pSPX ⟨1, code, s.stamp, w64 (32 * u)⟩
  if counts then s.rasCount (s.unitChannel u) .uncorrectable code (w64 (32 * u)) else s

/-- What a read of a unit does and returns: the state, the unit's bytes, and whether the reader of the words `need` has an
uncorrectable read. `reader`: 1 M, 2 V, 3 D, 4 write-back or read-modify-write. -/
def State.finishRead (s : State) (u reader : Nat) (weight : Bool) (need : BitVec 4) (m : UnitMark) (flips : UnitFlips)
    (data : List Byte) : State × List Byte × Bool :=
  let r := decodeUnit weight m data flips
  if r.beyond then
    let s' : State := { s with fresh := s.fresh + 1 }
    if Config.wrongDetected s.fresh then (s'.spxUncorr u reader weight false true, data, true)
    else (s', (List.range 32).map (Config.wrongByte s.fresh), false)
  else
    let s := if r.corrected then s.spxCorr u else s
    let hw := !r.mismatch && (if weight then m.poison = 0#4 else r.bad &&& ~~~m.poison != 0#4)
    let s := if r.bad != 0#4 then s.spxUncorr u reader weight r.mismatch hw else s
    (s, r.data, if weight then r.bad != 0#4 else r.bad &&& need != 0#4)

/-- The unit's group is without power: spx_bk_pwr_ack has fallen under it (R26, R364). -/
def State.unitDown (s : State) (u : Nat) : Bool :=
  let g := s.spx.groups[Fin.ofNat 16 (32 * u / s.build.groupBytes)]
  s.build.s2 && (g == .off || g == .opening)

/-- Reads a unit: new flipped bits stay stored until they are written over or back. A unit without power is not accessed, and its
reader has an uncorrectable read (R364). In S1 builds a flipped bit stands for an answer with spx1_rsp_err (R27, R367). -/
def State.readUnit (s : State) (u reader : Nat) (weight : Bool) (need : BitVec 4) (new : UnitFlips) :
    State × List Byte × Bool :=
  let m := s.mark u
  let fl := m.flips ^^^ new
  if s.unitDown u then (s.spxUncorr u reader weight false false, s.unitData u, true)
  else if s.build.s2 then ((s.setMark { m with flips := fl }).finishRead u reader weight need m fl (s.unitData u))
  else if fl = 0#288 then (s, s.unitData u, false)
  else ((s.setMark { m with flips := 0#288 }).spxUncorr u reader false false true, s.unitData u, true)

/-- The flipped bits that a list gives for a unit. -/
def flipsFor (fs : List (Nat × UnitFlips)) (u : Nat) : UnitFlips :=
  (fs.find? fun x => x.1 == u).map Prod.snd |>.getD 0#288

/-- Reads `n` units from `u` on in the classes given; answers their bytes and the units that the reader has as uncorrectable. -/
def State.readUnits (s : State) (cls : Nat → Bool) (reader : Nat) (fs : List (Nat × UnitFlips)) (lo hi u : Nat) :
    Nat → State × List Byte × List Nat
  | 0 => (s, [], [])
  | n + 1 =>
    let a := max lo (32 * u) - 32 * u
    let b := min hi (32 * u + 32) - 32 * u
    let r := s.readUnit u reader (cls u) (wordsNeeded a (b - a)) (flipsFor fs u)
    let q := r.1.readUnits cls reader fs lo hi (u + 1) n
    (q.1, r.2.1 ++ q.2.1, if r.2.2 then u :: q.2.2 else q.2.2)

/-- Reads bytes of the scratchpad at once in the classes given, whatever energy they cost: the bytes, and the bad units
(R352, R361). -/
def State.scaleReadBy (s : State) (cls : Nat → Bool) (reader : Nat) (fs : List (Nat × UnitFlips)) (off len : Nat) :
    State × List Byte × List Nat :=
  let u := off / 32
  let r := s.readUnits cls reader fs off (off + len) u (unitsIn off len)
  (r.1, (r.2.1.drop (off - 32 * u)).take len, r.2.2)

/-- The same with SPXRD for each unit (R402). -/
def State.spxReadBy (s : State) (cls : Nat → Bool) (reader : Nat) (fs : List (Nat × UnitFlips)) (off len : Nat) :
    State × List Byte × List Nat := (s.charge 5 (unitsIn off len)).scaleReadBy cls reader fs off len

/-- The same in the classes that the windows give now. -/
def State.spxRead (s : State) (reader : Nat) (fs : List (Nat × UnitFlips)) (off len : Nat) : State × List Byte × List Nat :=
  s.spxReadBy s.weightClass reader fs off len

/-! ## Writes (R360) -/

/-- Words of a unit that `n` bytes from `a` on cover whole. -/
def wordsWhole (a n : Nat) : BitVec 4 :=
  (List.range 4).foldl (fun (x : BitVec 4) w => if a ≤ 8 * w && 8 * w + 8 ≤ a + n then x ||| (1#4 <<< w) else x) 0#4

/-- The flipped bits of a unit that remain when words are written over. -/
def clearWords (fl : UnitFlips) (ws : BitVec 4) : UnitFlips :=
  (List.range 4).foldl
    (fun (f : UnitFlips) w => if ws.getLsbD w then f &&& ~~~(BitVec.ofNat 288 ((2 ^ 72 - 1) * 2 ^ (72 * w))) else f) fl

/-- Puts bytes into the unit and records its new codes; a corrected unit that waits for its write-back is written now. -/
def State.putUnit (s : State) (u a : Nat) (bs : List Byte) (m : UnitMark) : State :=
  let s := s.setMark m
  { s with spx := { s.spx with
      mem := s.spx.mem.write (32 * u + a) bs, corr := s.spx.corr.filter (· != u), wrote := u :: s.spx.wrote } }

/-- The merged bytes of a read-modify-write: the words written as they read, the new bytes over them. -/
def mergeBytes (old : List Byte) (a : Nat) (bs : List Byte) : List Byte :=
  old.take a ++ bs ++ old.drop (a + bs.length)

/-- The weight unit that a unit remembers once words of it are written in the activation class; none where it never was one. -/
def UnitMark.baseAfter (m : UnitMark) (data : List Byte) : Option (List Byte) :=
  if m.weight = 0#4 && m.base.isNone then none else some (m.whole data)

/-- Writes bytes into one unit from byte `a` on, in the class given; `new`: bits that its read returns flipped. A unit without power
takes none (R364). -/
def State.writeUnit (s : State) (u a : Nat) (bs : List Byte) (weight : Bool) (new : UnitFlips) : State :=
  let m := s.mark u
  if s.unitDown u then s
  else if !s.build.s2 then (s.charge 6 1).putUnit u a bs m
  else if weight then
    let s := s.charge 6 1
    if bs.length = 32 then s.putUnit u a bs ⟨u, 0xF#4, 0#4, 0#288, none⟩
    else
      let r := (s.charge 5 1).readUnit u 4 true 0xF#4 new
      let bytes := mergeBytes r.2.1 a bs
      r.1.putUnit u 0 bytes ⟨u, 0xF#4, if r.2.2 then 0xF#4 else 0#4, 0#288, none⟩
  else
    let s := s.charge 6 1
    let touched := wordsNeeded a bs.length
    let part := touched &&& ~~~wordsWhole a bs.length
    let base := m.baseAfter (s.unitData u)
    if part = 0#4 then
      s.putUnit u a bs ⟨u, m.weight &&& ~~~touched, m.poison &&& ~~~touched, clearWords m.flips touched, base⟩
    else
      let fl := m.flips ^^^ new
      let r := (s.charge 5 1).readUnit u 4 false part new
      let badWords := (decodeUnit false m (s.unitData u) fl).bad &&& part
      let bytes := mergeBytes r.2.1 a bs
      let lo := (List.range 4).foldl (fun n w => if touched.getLsbD w && 8 * w < n then 8 * w else n) a
      let hi := (List.range 4).foldl (fun n w => if touched.getLsbD w && n < 8 * w + 8 then 8 * w + 8 else n) 0
      r.1.putUnit u lo ((bytes.drop lo).take (hi - lo))
        ⟨u, m.weight &&& ~~~touched, (m.poison &&& ~~~touched) ||| badWords, clearWords fl touched, base⟩

/-- Writes bytes over units from `u` on with their classes; `fs`: flipped bits for the units' reads, in order. -/
def State.writeUnits (s : State) (lo : Nat) (bs : List Byte) (u : Nat) (fs : List UnitFlips) : List Bool → State
  | [] => s
  | w :: ws =>
    let a := lo - 32 * u
    let n := min bs.length (32 - a)
    let s := s.writeUnit u a (bs.take n) w (fs.headD 0#288)
    s.writeUnits (lo + n) (bs.drop n) (u + 1) fs.tail ws

/-- The classes of the units of a range. -/
def State.classes (s : State) (off len : Nat) : List Bool :=
  (List.range (unitsIn off len)).map fun k => s.weightClass (off / 32 + k)

/-- Writes bytes of the scratchpad at once. -/
def State.spxWriteAs (s : State) (off : Nat) (bs : List Byte) (wt : List Bool) (fs : List UnitFlips) : State :=
  if bs.isEmpty then s else s.writeUnits off bs (off / 32) fs wt

/-- The same in the classes that a function gives the units. -/
def State.spxWriteBy (s : State) (cls : Nat → Bool) (off : Nat) (bs : List Byte) : State :=
  s.spxWriteAs off bs ((List.range (unitsIn off bs.length)).map fun k => cls (off / 32 + k)) []

/-- The same with the classes that the windows give now. -/
def State.spxWrite (s : State) (off : Nat) (bs : List Byte) : State :=
  s.spxWriteAs off bs (s.classes off bs.length) []

/-- A unit written whole with the poison pattern of its class (R361's apply row). -/
def State.poisonUnit (s : State) (u : Nat) : State :=
  let w := s.weightClass u
  if s.unitDown u then s else (s.charge 6 1).setMark ⟨u, if w then 0xF#4 else 0#4, 0xF#4, 0#288, none⟩

/-- WRITES OF ONE CYCLE: `k` performs writes that fall in the same cycles as ones performed before it, given in the order D, V, M, so
that the later, of the higher priority, stand. Of the cycles `n` in which they meet writes of another sub-port in a unit, each
counts once; there are no more than units written twice (R351). -/
def State.meeting (s : State) (n : Nat) (k : State → State) : State :=
  let t := k { s with spx := { s.spx with wrote := [] } }
  let met := (s.spx.wrote.filter fun u => t.spx.wrote.contains u).length
  let t : State := { t with spx := { t.spx with wrote := t.spx.wrote ++ s.spx.wrote } }
  if s.build.s2 then t.addReg (pSPX + 0x120) (min n met) else t

/-- Zeros with activation-class codes over whole units (R363, R365). -/
def State.zeroUnits (s : State) (off len : Nat) : State :=
  { s with spx := { s.spx with
      mem := s.spx.mem.clear off len
      marks := s.spx.marks.filter fun m => 32 * m.unit < off || off + len ≤ 32 * m.unit
      corr := s.spx.corr.filter fun u => 32 * u < off || off + len ≤ 32 * u } }

end Sys2Proof.Machine
end

