-- ==== Sys2Proof/Machine/Reset.lean ====
section
/-! DEFINITION. Resets: the requested resets' phases, the whole reset, releases, group power, the image header, the pitch maps'
apply (18_bring_up_and_reset.md, R19 to R21, R362 to R365, R392 to R394). -/

namespace Sys2Proof.Machine

/-! ## Group power (R362, R363) -/

/-- Every in-service group follows its bit of SPX_BANKPWR, unless a transition is under way (R364). -/
def State.followPower (s : State) : State :=
  let want := s.reg (pSPX + 0x118)
  let next (g : Nat) (st : GroupState) : GroupState :=
    if !s.inService g then st
    else match st with
      | .off => if want.getLsbD g then .opening else .off
      | .on => if want.getLsbD g then .on else .closing
      | x => x
  { s with spx := { s.spx with groups := Vector.ofFn fun g => next g.val s.spx.groups[g] } }

/-- A write of SPX_BANKPWR; bits of groups that are not in service read 0; S1 builds ignore it (R364, R367). -/
def State.setBankpwr (s : State) (v : Word) : State :=
  if s.build.s2 then (s.setReg (pSPX + 0x118) (v &&& w32 s.serviceMask)).followPower else s

/-- A group's contents are lost (R26, R362). -/
def State.loseGroup (s : State) (g : Nat) : State := s.zeroUnits (g * s.build.groupBytes) s.build.groupBytes

/-- Every in-service group is ON (R416). -/
def State.groupsOn (s : State) : Bool :=
  (List.range 16).all fun g => !s.inService g || s.spx.groups[Fin.ofNat 16 g] == .on

/-! ## Scrubs (R365, R428) -/

/-- The state's scrub rule: PRODUCTION, RETURNED, SCRAPPED always scrub; otherwise RESET_POLICY.SCRUB decides. -/
def State.scrubPolicy (s : State) : Bool :=
  decide (2 ≤ s.life.shadow.toNat) || (s.reg (pRESET + 0x104)).getLsbD 0

/-- The groups of the scrub: in service and ON; in S1 builds the whole capacity. -/
def State.scrubGroups (s : State) (n : Nat) : Nat → State
  | 0 => s
  | k + 1 =>
    let g := n - (k + 1)
    let s := if s.inService g && s.spx.groups[Fin.ofNat 16 g] == .on then
        (s.loseGroup g).charge 6 (s.build.groupBytes / 32) else s
    s.scrubGroups n k

/-- The whole scrub: scratchpad, tile storage, F0 to F31. -/
def State.scrub (s : State) : State :=
  let s := if s.build.s2 then s.scrubGroups 16 16
    else (s.zeroUnits 0 s.build.capacity).charge 6 (s.build.capacity / 32)
  { s with
    tile := { s.tile with ops := [], pool := [] }
    cpu := { s.cpu with f := Vector.replicate 32 0#64 } }

/-- The write of one 64-byte unit by the S1 scrub. -/
def scrubReq (n : Nat) : S1Req := ⟨true, n, List.replicate 64 0#8, 0xFFFFFFFFFFFFFFFF#64, none⟩

/-- The scrub begins; in S1 builds it offers its first write (R367). -/
def State.startScrub (s : State) : State :=
  { s with
    rst := { s.rst with phase := .scrub, scrubAt := 1 }
    spx := { s.spx with s1offered := if s.build.s2 then s.spx.s1offered else [scrubReq 0] } }

/-- Every write of the scrub has been taken (R367). -/
def State.scrubOut (s : State) : Bool :=
  s.build.s2 || (s.spx.s1offered.isEmpty && decide (s.build.capacity / 64 ≤ s.rst.scrubAt))

/-! ## What a reset sets (R57, R432) -/

/-- Whether a register's value outlives a requested reset, or the wake from SLEEP. -/
def survives (sleep : Bool) (k : Nat) : Bool :=
  match regSpec k with
  | none => false
  | some r =>
    match r.keep with
    | .volatile => false
    | .untilSleep => !sleep
    | .retained => true
    | .always => true

/-- Unified mode's window 0 (R366). -/
def State.unifiedWindow (s : State) : State :=
  if s.porter then
    (s.setReg (pSPX + 0x204) (w32 (s.build.capacity - 32))).setReg (pSPX + 0x208) 0x0000AF00#32
  else s

/-- The registers after a requested reset: those that do not survive take their reset values, staged copies equal active
ones, no page is armed or locked (R53, R57). -/
def State.resetRegs (s : State) (sleep : Bool) : State :=
  let s : State := { s with
    regs := s.regs.filter (fun c => survives sleep c.1), staged := [], localHold := Hold.init, remoteHold := Hold.init }
  s.unifiedWindow.followPower

/-- The entry of a requested reset (R425 to R427). -/
def State.enterReset (s : State) (kind : Nat) (sleep force : Bool) : State :=
  let wanted := force || s.scrubPolicy || s.life.granted.isSome
  let limit := max 256 (fld (s.reg (pRESET + 0x108)) 0 24)
  let s := ((s.abandonWork.resetRegs sleep).checkTemp).bump (pRESET + 0x118)
  { s with
    tile := Tile.init s.tile.ops s.tile.pool
    tally := { Tally.init with waiting := s.tally.waiting }
    sync := Vector.replicate 64 0#32
    bell := { s.bell with splitDone := true, applyDone := true }
    pwr := { s.pwr with state := 0, energy := 0, exhausted := false, unsampled := true, forecast := 0, waking := none, railUp := none }
    life := { s.life with opening := none, chal := none, resp := List.replicate 16 0#32, verifying := false, xreq := 0 }
    rst := { s.rst with phase := .drain, kind := kind, sleep := sleep, wake := sleep && s.rst.wake, booting := false, railWait := none, scrubWanted := wanted,
                        scrubDone := false, fenceDrain := false, absorbed := 0, drainStamp := s.stamp,
                        drainLimit := limit, cycles := 0 } }

/-- A broader request replaces the reset in progress and keeps its phase (R21). -/
def State.replaceReset (s : State) (kind : Nat) : State :=
  let wanted := s.rst.scrubWanted || s.scrubPolicy || s.life.granted.isSome
  let t : State := { s with
    rst := { s.rst with kind := kind, scrubWanted := wanted, wake := s.rst.wake && decide (kind ≤ s.rst.kind) } }
  if s.rst.phase == .held && wanted && !s.rst.scrubDone then t.startScrub else t

/-- A request of kind 0 core, 1 cluster or 2 partition (R20, R21, R429, R430). -/
def State.requestReset (s : State) (kind : Nat) (force : Bool) : State :=
  if s.rst.wholeLow then s
  else
    match s.rst.phase with
    | .fuse | .wait | .bootfail => s
    | .drain | .scrub | .held =>
      if s.rst.fenceDrain then s.enterReset kind false force
      else if s.rst.kind < kind || force then s.replaceReset (max kind s.rst.kind) else s
    | .bad => if s.fuseBad then s else s.enterReset kind false force
    | .run =>
      match s.pwr.state.toNat with
      | 2 =>
        if s.pwr.railOk.getLsbD 1 then ({ s with pwr := { s.pwr with railEn := 3 } } : State).enterReset kind false force
        else { s with pwr := { s.pwr with railEn := 3 }, rst := { s.rst with railWait := some (max kind (s.rst.railWait.getD 0)) } }
      | 3 => { s with pwr := { s.pwr with railEn := 3 },
                      rst := { s.rst with railWait := some (max kind (s.rst.railWait.getD 0)), sleep := true, wake := false } }
      | 4 => s
      | _ => s.enterReset kind false force

/-- The drain ends: scrub, or held, or BAD after a fence (R425, R438). -/
def State.endDrain (s : State) : State :=
  let t : State := { s with
    rst := { s.rst with phase := if s.rst.fenceDrain then .bad else .held, drainStamp := s.stamp }
    cpu := { s.cpu with sb := [], loads := [] }
    spx := { s.spx with reads := [], s1offered := [], s1out := [] }
    boot := { s.boot with offered := [], out := [] } }
  if s.rst.scrubWanted then t.startScrub else t

/-! ## The maps' apply (R392, R393) -/

/-- The applied core map of a staged one: of two entries that name one pitch the higher becomes HOLE. Answers the map and
the conflicts, as index and pitch. -/
def applyCore (seen : List Nat) : WMap → WMap × List (Nat × Nat)
  | [] => ([], [])
  | (i, w) :: m =>
    if fld w 30 1 = 1 then
      let p := fld w 0 11
      if seen.contains p then
        let r := applyCore seen m
        ((i, setFld w 30 2 2) :: r.1, (i, p) :: r.2)
      else
        let r := applyCore (p :: seen) m
        ((i, w) :: r.1, r.2)
    else
      let r := applyCore seen m
      ((i, w) :: r.1, r.2)

/-- The staged maps and package become the applied ones. -/
def State.applyMaps (s : State) : State :=
  let r := applyCore [] s.pitch.stagedCore
  let s : State := { s with pitch := { s.pitch with core := r.1, die := s.pitch.stagedDie } }
  let s := (s.setReg (pPITCH + 0x114) (s.reg (pPITCH + 0x110))).bump (pPITCH + 0x118)
  s.raiseErrs pPITCH (r.2.map fun c => ⟨0, c.1, s.stamp, w64 c.2⟩)

/-! ## Debug permission (R456) -/

/-- The rows of R456's table: open to all, the WRAP instruction, the boundary registers, control, access, scan and self-test,
writing LIFE_XREQ, the session. -/
inductive DbgClass where
  | free
  | wrap
  | boundary
  | control
  | access
  | internal
  | request
  | session
deriving DecidableEq, Repr

/-- R456's table, by life-cycle state. -/
def dbgStateAllows (life : Nat) : DbgClass → Bool
  | .free => true
  | .wrap => life ≤ 3
  | .boundary => life ≤ 3
  | .control => life ≤ 1 || life == 3
  | .access => life ≤ 1 || life == 3
  | .internal => life == 0 || life == 3
  | .request => life == 0 || life == 3
  | .session => life == 2

/-- LIFE_DBGOFF's bit for a class. -/
def dbgOffBit : DbgClass → Option Nat
  | .boundary => some 0
  | .control => some 1
  | .access => some 2
  | .internal => some 3
  | _ => none

/-- The life-cycle state that debug access sees: SCRAPPED from a grant to its release (R451). -/
def State.dbgLife (s : State) : Nat := if s.life.granted.isSome then 4 else s.life.shadow.toNat

/-- The state and LIFE_DBGOFF permit a class (R456). -/
def State.dbgAllows (s : State) (c : DbgClass) : Bool :=
  dbgStateAllows s.dbgLife c && match dbgOffBit c with
    | some b => !(s.reg (pLIFE + 0x11C)).getLsbD b
    | none => true

/-- The class of a TAP instruction. -/
def tapClass (code : BitVec 5) : DbgClass :=
  match code.toNat with
  | 0x02 => .boundary
  | 0x03 => .boundary
  | 0x08 => .wrap
  | _ => .free

/-- The class of a wrapper instruction. -/
def wirClass (code : Byte) : DbgClass :=
  match code.toNat with
  | 0x01 => .boundary
  | 0x02 => .control
  | 0x10 => .control
  | 0x11 => .access
  | 0x20 => .internal
  | 0x21 => .internal
  | 0x31 => .session
  | _ => .free

/-- An instruction in use that is no longer permitted ends, its pending access is discarded (R456). -/
def State.dbgRecheck (s : State) : State :=
  { s with dbg := { s.dbg with
      tap := if s.dbgAllows (tapClass s.dbg.tap) then s.dbg.tap else 0x1F#5
      wir := if s.dbgAllows (wirClass s.dbg.wir) then s.dbg.wir else 0x00#8
      miss := if s.dbgAllows (wirClass s.dbg.wir) then s.dbg.miss else none } }

/-! ## Release (R416, R417, R427) -/

/-- Tile storage and F registers that no rule gives a value after SLEEP without a scrub (R432). -/
def State.sleepStorage (s : State) : State :=
  let k := s.fresh
  { s with
    fresh := k + 3
    tile := { s.tile with
      ops := Memory.write [] 0 ((List.range 33792).map (Config.sleepByte k))
      pool := Memory.write [] 0 ((List.range 131072).map (Config.sleepByte (k + 1))) }
    cpu := { s.cpu with f := Vector.ofFn fun i => Config.sleepReg (k + 2) i.val } }

/-- The core starts: the registers of R417, empty caches and translation stores, the per-bell actions that still lie ahead
of C (R208), the events of a release. A fenced core stays BAD. -/
def State.startCore (s : State) (ip : DWord) : State :=
  let s : State := { s with
    cpu := { Cpu.init ip s.cpu.f with ext := s.cpu.ext }
    caches := Caches.init
    xlat := Xlat.init
    boot := { s.boot with offered := [], out := [] }
    bell := { s.bell with splitDone := decide (s.split ≤ s.bell.c), applyDone := decide (s.applyAt ≤ s.bell.c) }
    rst := { s.rst with phase := if s.ras.fence.isSome then .bad else .run, releaseKept := false } }
  let s := s.raise pRESET 0
  if s.life.oddDue then
    ({ s with life := { s.life with oddDue := false } }).raiseErr pLIFE ⟨3, 0, s.stamp, (s.fuse 0).setWidth 64⟩
  else s

/-- The release from a requested reset, in the first cycle of the held phase with rst_hold low (R20, R427). -/
def State.releaseHeld (s : State) : State :=
  let s := if s.rst.kind = 2 then s.applyMaps else s
  let s := if s.rst.sleep && !s.rst.scrubDone then s.sleepStorage else s
  let s : State := { s with
    life := { s.life with shadow := s.life.granted.getD s.life.shadow, granted := none }
    rst := { s.rst with last := if s.rst.wake then 4 else s.rst.kind + 1, scrubbed := s.rst.scrubDone } }
  let n := s.rst.absorbed
  let s := s.setReg (pRESET + 0x11C) (w32 (min s.rst.cycles (2 ^ 32 - 1)))
  let s := if s.rst.scrubDone then s else s.raise pRESET 2
  let s := if n = 0 then s else s.raiseErr pRESET ⟨1, n, s.rst.drainStamp, 0#64⟩
  let s := s.startCore (s.reg64 (pRESET + 0x10C))
  State.dbgRecheck { s with rst := { s.rst with sleep := false, wake := false, absorbed := 0 } }

/-- The release from WAIT: the staged maps apply and the core starts at RESET_START (R416). -/
def State.releaseWait (s : State) : State :=
  let s := s.applyMaps
  let s : State := { s with rst := { s.rst with last := 0, scrubbed := true } }
  s.startCore (s.reg64 (pRESET + 0x10C))

/-- RELEASE in WAIT: kept until every in-service group is ON and both rails are good; ignored elsewhere and under TAINT (R31, R416,
R457). -/
def State.askRelease (s : State) : State :=
  if s.rst.phase == .wait && !s.rst.wholeLow && !s.life.taint && s.ras.fence.isNone then
    if s.groupsOn && s.pwr.railOk == 3#2 then s.releaseWait else { s with rst := { s.rst with releaseKept := true } }
  else s

/-- A kept release takes effect once nothing is missing. -/
def State.keptRelease (s : State) : State :=
  if s.rst.releaseKept then s.askRelease else s

/-! ## The whole reset (R17, R19, R432) -/

/-- Everything returns to its state after reset, but for what the model keeps: the build and the commands that wait. -/
def State.wholeReset (s : State) : State :=
  { State.reset with
    build := s.build, fresh := s.fresh, pending := s.pending
    dbg := { Debug.init with trstn := s.dbg.trstn, wsel := s.dbg.wsel } }

/-- The life-cycle decoding of fuse word 0: the code of the fuse state, and whether the word is odd (R448). -/
def decodeFuse0 (w : Word) : BitVec 3 × Bool :=
  let pop (lo : Nat) : Nat := ((List.range 8).filter fun i => w.getLsbD (lo + i)).length
  let blown (lo : Nat) : Bool := decide (5 ≤ pop lo)
  let few := [0, 8, 16, 24].any fun lo => decide (1 ≤ pop lo ∧ pop lo ≤ 4)
  if blown 24 then (4, few)
  else if blown 16 && !blown 8 then (4, true)
  else if blown 16 then (3, few)
  else if blown 8 then (2, few || !blown 0)
  else if blown 0 then (1, few)
  else (0, few)

/-- The header's read requests (R415). -/
def headerReads : List BootReq :=
  (List.range 4).map fun n => ⟨false, 8 * n, 0#64, none, some n, false, 0#16, false, none⟩

/-- After the last fuse word: the variants take effect; a BAD core stays, a porter leaves reset and reads its image header,
any other core waits (R19, R36). -/
def State.fusesRead (s : State) : State :=
  let s := (s.setBankpwr 0xFFFF#32).unifiedWindow
  if s.fuseBad then { s with rst := { s.rst with phase := .bad } }
  else if s.porter then
    let s := s.applyMaps.startCore 0#64
    { s with boot := { s.boot with offered := headerReads, out := [], header := [], bad := false },
             rst := { s.rst with booting := true } }
  else { s with rst := { s.rst with phase := .wait } }

/-- One fuse word arrives (R33, R449). -/
def State.fuseWord (s : State) (v : Word) : State :=
  if s.rst.phase == .fuse && !s.rst.wholeLow && decide (s.rst.fuseIdx < 16) then
    let n := s.rst.fuseIdx
    let s : State := { s with
      life := { s.life with fuses := s.life.fuses.set n v }
      rst := { s.rst with fuseIdx := n + 1 } }
    let s : State := if n = 0 then
        State.dbgRecheck { s with life := { s.life with shadow := (decodeFuse0 v).1, oddDue := (decodeFuse0 v).2 } } else s
    if n = 15 then s.fusesRead else s
  else s

/-- The first check of the image header that fails, 0 when all pass (R415). -/
def headerCheck (h : List DWord) (bad : Bool) : Nat :=
  let b := h.flatMap fun d => leBytes d.toNat 8
  let at' (o n : Nat) : Nat := leNat ((b.drop o).take n)
  let entry := at' 0x08 4
  if at' 0 4 ≠ 0xEC0AB007 then 1
  else if at' 4 2 ≠ 1 || at' 6 2 ≠ 0 || at' 0x18 8 ≠ 0 then 2
  else if at' 0x14 4 ≠ (crc32c (b.take 0x14)).toNat then 3
  else if entry % 64 ≠ 0 || entry < 0x20 || at' 0x0C 4 ≤ entry then 4
  else if bad then 5
  else 0

/-- The header is read whole: fetch starts at ENTRY, or the core halts in BOOTFAIL (R415). -/
def State.headerDone (s : State) : State :=
  let c := headerCheck s.boot.header s.boot.bad
  let b := s.boot.header.flatMap fun d => leBytes d.toNat 8
  let entry := leNat ((b.drop 8).take 4)
  let s := (s.setReg (pRESET + 0x208) (w32 (leNat ((b.drop 0x0C).take 4)))).setReg (pRESET + 0x20C) (w32 c)
  let s : State := { s with rst := { s.rst with booting := false } }
  if c = 0 then
    let ip := w64 (0xFC000000000000 + entry)
    let s := s.setReg64 (pRESET + 0x200) ip
    { s with cpu := { s.cpu with ip := ip } }
  else
    let s := s.raiseErr pRESET ⟨3, c, s.stamp, 0x18#64⟩
    { s with rst := { s.rst with phase := .bootfail } }

/-! ## Outputs -/

/-- rst_in_reset (R19, R425). -/
def State.inReset (s : State) : Bool :=
  match s.rst.phase with
  | .fuse | .wait | .scrub | .held => true
  | .bad => s.fuseBad
  | _ => false

/-- From the entry of a reset until its release; a fence's own drain and scrub are none (R208, R438, R461). -/
def State.resetting (s : State) : Bool :=
  match s.rst.phase with
  | .fuse | .wait | .held => true
  | .drain | .scrub => !s.rst.fenceDrain
  | .bad => s.fuseBad
  | .run | .bootfail => false

/-- core_halt: in reset, halted, BAD, BOOTFAIL or in SLEEP. -/
def State.coreHalt (s : State) : Bool :=
  s.inReset || s.cpu.halted || s.rst.phase == .bad || s.rst.phase == .bootfail || s.pwr.state == 3#3

end Sys2Proof.Machine
end

