-- ==== Sys2Proof/Machine/Life.lean ====
section
/-! DEFINITION. Life-cycle transitions and the return session (20_life_cycle_and_debug.md R448 to R455). -/

namespace Sys2Proof.Machine

/-- Whether the table of R450 permits a transition, a verified session apart. -/
def transitionOk (src dst : Nat) : Bool :=
  match src with
  | 0 => dst == 1 || dst == 2 || dst == 4
  | 1 => dst == 2 || dst == 4
  | 2 => dst == 3 || dst == 4
  | 3 => dst == 4
  | _ => false

def xreqTarget (v : Word) : Nat := fld v 0 3
def xreqConfirmed (v : Word) : Bool := fld v 16 16 == 0x4C43

/-- A refusal: LIFE_XSTAT.RESULT and XFAIL (R450). -/
def State.lifeFail (s : State) (result : Nat) : State :=
  let s := s.setReg (pLIFE + 0x10C) (setFld (s.reg (pLIFE + 0x10C)) 0 8 result)
  s.raiseErr pLIFE ⟨2, result, s.stamp, 0#64⟩

/-- A grant (R451): GRANT, TARGET, TRANSITION, and a core reset that scrubs. -/
def State.lifeGrant (s : State) (target : Nat) : State :=
  let s := (s.setReg (pLIFE + 0x10C) (w32 (2 ^ 31 + target * 2 ^ 8 + 1))).raise pLIFE 1
  let s : State := State.dbgRecheck { s with life := { s.life with granted := some (BitVec.ofNat 3 target) } }
  if s.rst.phase == .wait && !s.rst.wholeLow then s.enterReset 0 false true else s.requestReset 0 true

/-- A failed verification (R454). -/
def State.verifyFail (s : State) (result : Nat) : State :=
  let n := min 8 (s.life.fails + 1)
  ({ s with life := { s.life with chal := none, verifying := false, fails := n,
                                  lockout := s.life.lockout || n == 8 } }).lifeFail result

/-- A write of LIFE_XREQ (R450, R453, R454). -/
def State.lifeXreq (s : State) (v : Word) : State :=
  if s.life.verifying then s
  else if !xreqConfirmed v then s.lifeFail 3
  else if !transitionOk s.life.shadow.toNat (xreqTarget v) || s.life.granted.isSome then s.lifeFail 2
  else if xreqTarget v = 3 then
    if s.life.lockout then s.lifeFail 6 else { s with life := { s.life with xreq := v } }
  else s.lifeGrant (xreqTarget v)

/-- OPEN (R453): in PRODUCTION a new challenge begins to fill; under LOCKOUT it is ignored. -/
def State.lifeOpen (s : State) : State :=
  if s.life.verifying || s.life.lockout || s.life.shadow != 2#3 then s
  else
    let words := (List.range 8).map (Config.entropy s.fresh)
    { s with fresh := s.fresh + 1, life := { s.life with opening := some words, chal := none } }

/-- SUBMIT together with a LIFE_XREQ (R453, R454). -/
def State.lifeSubmit (s : State) (v : Word) : State :=
  if s.life.verifying || s.life.lockout then s
  else if xreqConfirmed v && xreqTarget v == 3 && s.life.shadow == 2#3 && s.life.granted.isNone then
    if s.life.chal.isSome then { s with life := { s.life with verifying := true, xreq := 0 } }
    else s.verifyFail 4
  else s.lifeXreq v

/-- Verification ends (R453). -/
def State.verifyDone (s : State) : State :=
  if !s.life.verifying then s
  else
    match s.life.chal with
    | none => s.verifyFail 4
    | some c =>
      let phys := s.physWord ||| (if s.porter then 0x40000#32 else 0#32)
      if Config.signatureGood c phys s.life.resp then
        ({ s with life := { s.life with chal := none, verifying := false } }).lifeGrant 3
      else s.verifyFail 5

/-- A write of LIFE_RESPn (R453, R454). -/
def State.lifeResp (s : State) (n : Nat) (v : Word) : State :=
  if s.life.verifying then s else { s with life := { s.life with resp := s.life.resp.set n v } }

end Sys2Proof.Machine
end

