-- ==== Sys2Proof/Machine/RegRead.lean ====
section
/-! DEFINITION. What every register reads: the common layout of the pages, the values that the core computes, the read side of
the 64-bit pairs (02_register_pages.md R45 to R60 and the register tables of every page). -/

namespace Sys2Proof.Machine

def bit (b : Bool) (n : Nat) : Nat := if b then 2 ^ n else 0

/-! ## Conditions that several pages report -/

/-- PAGE_STATUS.BUSY of the TILE page: instructions queued or running (R107). -/
def State.tileBusy (s : State) : Bool := !s.tile.queue.isEmpty || s.tile.draining

/-- A cache is active: enabled, and DET is 0 (R306). -/
def State.cacheOn (s : State) (ic : Bool) : Bool :=
  (s.reg (pCACHE + 0x100)).getLsbD (if ic then 0 else 1) && !s.detOn

/-- The streaming detector is active (R310). -/
def State.streaming (s : State) : Bool :=
  (s.reg (pCACHE + 0x100)).getLsbD 8 && decide (fld (s.reg (pCACHE + 0x104)) 0 7 ≤ s.caches.count)

/-- A SYNCWAIT or TCRATE TAKE waits at TR. -/
def State.syncWaiting (s : State) : Bool :=
  match s.cpu.wait with
  | .syncwait _ _ => true
  | .take _ => true
  | _ => false

/-- Every built way of a cache is disabled by fuse (R36). -/
def State.cacheFusedOff (s : State) (ic : Bool) : Bool :=
  (List.range (if ic then s.build.iWays else s.build.dWays)).all fun w => (s.fuse 6).getLsbD (if ic then w else 16 + w)

/-- The ways of a cache that are out of service. -/
def State.waysOff (s : State) (ic : Bool) : Nat :=
  (List.range (if ic then s.build.iWays else s.build.dWays)).foldl (fun a w => a + bit (s.wayOff ic w) w) 0

/-- The ways of the caches that can be locked: built, neither disabled by fuse nor retired (R312, R321). -/
def State.lockable (s : State) : Word :=
  let ways (ic : Bool) (n base : Nat) : Nat :=
    (List.range n).foldl (fun a w => a + bit (!s.wayOff ic w) (base + w)) 0
  w32 (ways true s.build.iWays 0 + ways false s.build.dWays 16)

/-! ## PAGE_CAPS and PAGE_STATUS -/

/-- PAGE_CAPS. -/
def State.caps (s : State) (page : Nat) : Word :=
  let b := s.build
  fixedCaps page ||| w32 (match page with
    | 0x1 => bit b.s2 0
    | 0x4 => bit b.s2 4 + bit b.s2 1
    | 0x6 => bit s.porter 4 + (if b.s2 then 15 else 0)
    | 0xF => bit b.porterCapable 1
    | _ => 0)

/-- PAGE_STATUS.BLOCKSTAT in place. -/
def State.blockStat (s : State) (page : Nat) : Nat :=
  match page with
  | 0x1 =>
    let lb := s.looping
    bit ((s.reg (pCORE + 0x114)).getLsbD 31) 10 + bit lb 9 + bit s.detOn 8
  | 0x2 => bit s.streaming 10 + bit (s.cacheOn false) 9 + bit (s.cacheOn true) 8
  | 0x3 => bit s.xlat.bcast.isSome 8
  | 0x4 => bit s.tileBusy 8
  | 0x6 =>
    let moving := s.spx.groups.toList.any fun g => g == .opening || g == .closing
    bit (s.rst.phase == .scrub) 9 + bit moving 8
  | 0x7 =>
    bit (s.rst.phase == .drain) 10 + bit s.net.lanes[1].active 9 + bit s.net.lanes[0].active 8
  | 0x8 =>
    let same := s.pitch.stagedCore == s.pitch.core && s.pitch.stagedDie == s.pitch.die
      && s.reg (pPITCH + 0x110) == s.reg (pPITCH + 0x114)
    bit (!same) 8
  | 0x9 => bit s.bell.unsync 10 + bit (decide (0 < s.bell.ot)) 9 + bit (decide (s.split ≤ s.bell.c)) 8
  | 0xA => bit s.tally.apply.isSome 8
  | 0xB => bit s.syncWaiting 8
  | 0xC => bit (s.allowHold || s.pwr.tempHold) 9 + bit (decide (s.act ≠ s.target)) 8
  | 0xD =>
    bit s.ras.fence.isSome 10 + bit (decide (16 ≤ s.ras.ledger.length)) 9 + bit (!s.ras.ledger.isEmpty) 8
  | 0xE => bit s.cpu.halted 10 + bit s.life.lockout 9 + bit s.life.chal.isSome 8
  | 0xF => bit s.inReset 8
  | _ => 0

/-- PAGE_STATUS. -/
def State.pageStatus (s : State) (page : Nat) : Word :=
  let p := page * 0x1000
  w32 (s.blockStat page + bit ((s.reg (p + 0xF00)).getLsbD 0) 2 + bit ((s.reg (p + 0xF04)).getLsbD 0) 1
    + bit (s.evtPend p != 0#32) 0)

/-- PAGE_ID. -/
def pageId (page : Nat) : Word := w32 ((0xA0 + page) * 2 ^ 24 + 0x00010300)

/-! ## The pages' computed registers: none where the register map holds the value -/

/-- IDENT (R58 to R60). -/
def State.identReg (s : State) (off : Nat) : Option Word :=
  match off with
  | 0x100 => some 0x01010300#32
  | 0x104 => some 0xEC0A0101#32
  | 0x108 => some s.logical
  | 0x10C => some (s.physWord ||| w32 (bit s.porter 18))
  | 0x110 => some s.build.word0
  | 0x114 => some s.build.word1
  | 0x118 =>
    some (w32 (bit s.rsvdSet 10 + bit (s.cacheFusedOff false) 9 + bit (s.cacheFusedOff true) 8 + fld (s.fuse 7) 0 4 * 16
      + bit s.fuseBad 0))
  | 0x11C => some (s.fuse 2)
  | 0x120 => some (s.fuse 3)
  | 0x124 => some (s.fuse 4)
  | 0x128 => some (s.fuse 5)
  | 0x12C => some (s.fuse 6)
  | 0x130 => some (if s.build.s2 then 0x203#32 else 0x103#32)
  | _ => none

/-- CORE. -/
def State.coreReg (s : State) (off : Nat) : Option Word :=
  match off with
  | 0x10C => some (w32 (s.pageIrqs * 2 ^ 16 + bit s.cpu.nmi 8 + s.cpu.ext.toNat))
  | 0x110 => some (s.cpu.ptag.setWidth 32)
  | _ => none

/-- CACHE. -/
def State.cacheReg (s : State) (off : Nat) : Option Word :=
  match off with
  | 0x108 => some (s.reg (pCACHE + 0x108) &&& s.lockable)
  | 0x10C => some (w32 (s.waysOff false * 2 ^ 16 + s.waysOff true))
  | 0x110 =>
    let b := s.build
    some (w32 (Nat.log2 b.dSets * 2 ^ 24 + b.dWays * 2 ^ 16 + Nat.log2 b.iSets * 2 ^ 8 + b.iWays))
  | _ => none

/-- TILE_TUSE: the engine view's live names. -/
def TileView.tuse (v : TileView) : Nat :=
  v.names.zipIdx.foldl (fun a x => a + bit x.1.isSome x.2) 0

/-- TILE (R107, R200: the engine view). -/
def State.tileReg (s : State) (off : Nat) : Option Word :=
  let t := s.tile
  match off with
  | 0x118 => some (w32 t.engine.tuse)
  | 0x11C => some (t.tuseOp.setWidth 32)
  | 0x120 =>
    let head := match t.queue with
      | e :: _ => e.itag.toNat
      | [] => 0
    some (w32 (t.nextItag.toNat * 2 ^ 24 + head * 2 ^ 16 + bit s.tileBusy 8 + t.queue.length))
  | 0x124 => some t.maskr
  | 0x128 => some (lo32 t.maskc)
  | 0x12C => some (hi32 t.maskc)
  | 0x140 => some t.poison
  | 0x144 => some (t.poisonOp.setWidth 32)
  | _ => none

/-- CONV. -/
def State.convReg (s : State) (off : Nat) : Option Word :=
  let t := s.tile
  match off with
  | 0x100 => some (t.rbits.setWidth 32)
  | 0x108 => some (lo32 t.seed)
  | 0x10C => some (hi32 t.seed)
  | 0x118 => some (t.lanes.getD (fld (s.reg (pCONV + 0x114)) 0 5) 0#32)
  | _ => none

def groupCode : GroupState → Nat
  | .off => 0
  | .opening => 1
  | .on => 2
  | .closing => 3

/-- SPX; S1 builds have no bank map and no power control (R367). -/
def State.spxReg (s : State) (off : Nat) : Option Word :=
  match off with
  | 0x10C =>
    if s.build.s2 then
      let n := ((List.range 16).filter fun g => s.inService g).length
      some (w32 (s.serviceMask * 2 ^ 16 + n * s.build.groupBytes / 1024))
    else some (if s.s1Live then w32 (2 ^ 16 + s.build.capacity / 1024) else 0#32)
  | 0x110 => if s.build.s2 then none else some 0#32
  | 0x114 => if s.build.s2 then none else some 0#32
  | 0x118 => some (if s.build.s2 then s.reg (pSPX + 0x118) &&& w32 s.serviceMask else 0#32)
  | 0x11C =>
    some (w32 ((List.range 16).foldl (fun a g => a + groupCode s.spx.groups[Fin.ofNat 16 g] * 4 ^ g) 0))
  | _ => none

/-- FAB. -/
def State.fabReg (s : State) (off : Nat) : Option Word :=
  let n := s.net
  match off with
  | 0x100 => some (s.reg (pFAB + 0x100) ||| n.laneOff.setWidth 32)
  | 0x104 =>
    some (match n.link with
      | some r => w32 (2 ^ 31 + r.pmax.toNat * 2 ^ 16 + r.pmin.toNat * 2 ^ 8 + r.ver.toNat)
      | none => 0#32)
  | 0x108 => some (match n.link with | some r => r.feat | none => 0#32)
  | 0x10C => some (match n.link with | some r => r.pfeat | none => 0#32)
  | 0x110 =>
    let two (f : Lane → Bool) : Nat := bit (f n.lanes[1]) 1 + bit (f n.lanes[0]) 0
    some (w32 (two Lane.neg * 2 ^ 10 + two Lane.up * 2 ^ 8 + two Lane.en * 2 ^ 4 + two Lane.retired))
  | 0x118 => some (w32 (s.absorbedTags * 2 ^ 16 + (256 - n.tags.length)))
  | _ => none

/-- The reverse entry of a pitch (R390). -/
def State.reverseEntry (s : State) (p : Nat) : Word :=
  match s.pitch.core.find? fun e => fld e.2 30 1 == 1 && fld e.2 0 11 == p with
  | some e => w32 (fld e.2 30 2 * 2 ^ 30 + e.1)
  | none => 0#32

/-- PITCH_SEL: the die map is selected; the index. -/
def State.selDie (s : State) : Bool := (s.reg (pPITCH + 0x100)).getLsbD 31
def State.selIndex (s : State) : Nat := fld (s.reg (pPITCH + 0x100)) 0 11

/-- PITCH. -/
def State.pitchReg (s : State) (off : Nat) : Option Word :=
  let i := s.selIndex
  match off with
  | 0x104 => some (if s.selDie then s.pitch.stagedDie.get i else s.pitch.stagedCore.get i)
  | 0x108 => some (if s.selDie then s.pitch.die.get i else s.pitch.core.get i)
  | 0x10C => some (if s.selDie then 0#32 else s.reverseEntry i)
  | _ => none

/-- BELL. -/
def State.bellReg (s : State) (off : Nat) : Option Word :=
  match off with
  | 0x10C => some (lo32 (s.bell.tick.setWidth 64))
  | 0x110 => some (hi32 (s.bell.tick.setWidth 64))
  | 0x114 => some (lo32 s.stamp)
  | 0x118 => some (hi32 s.stamp)
  | 0x124 => some (w32 (bit s.bell.unsync 31))
  | _ => none

/-- SYNC: SYNC_VALn. -/
def State.syncReg (s : State) (off : Nat) : Option Word :=
  if 0x100 ≤ off ∧ off < 0x200 ∧ off % 4 = 0 then some s.sync[ctr ((off - 0x100) / 4)] else none

/-- WEIGH. -/
def State.weighReg (s : State) (off : Nat) : Option Word :=
  match off with
  | 0x118 => some (w32 (min (2 ^ 32 - 1) (s.pwr.energy / 2 ^ 29)))
  | 0x120 => some (w32 (s.pwr.temp.toNat * 2 ^ 24 + s.throttle * 2 ^ 16 + s.target * 2 ^ 8 + s.act))
  | 0x124 => some (w32 (s.pwr.req.toNat * 2 ^ 8 + s.pwr.state.toNat))
  | _ => none

/-- Word `w` of a ledger entry (R444). -/
def LedgerEntry.word (e : LedgerEntry) (w : Nat) : Word :=
  match w with
  | 0 => e.epoch ++ e.lseq
  | 1 => e.flags ++ e.level ++ e.channel ++ e.type
  | 2 => lo32 e.stamp
  | 3 => hi32 e.stamp
  | 4 => e.logid
  | 5 => e.phys
  | 6 => e.code
  | 8 => lo32 e.addr
  | 9 => hi32 e.addr
  | _ => 0#32

/-- RAS_LCACHE: a slot without an unconsumed entry reads 0. -/
def State.lcacheWord (s : State) (off : Nat) : Word :=
  let k := (off - 0x400) / 64
  match s.ras.ledger[(k + 16 - s.ras.oldest) % 16]? with
  | some e => e.word (off % 64 / 4)
  | none => 0#32

/-- RAS. -/
def State.rasReg (s : State) (off : Nat) : Option Word :=
  let r := s.ras
  match off with
  | 0x118 => some (match r.fence with | some c => 0x80000000#32 ||| c.setWidth 32 | none => 0#32)
  | 0x120 =>
    let ch := fld (s.reg (pRAS + 0x11C)) 0 8
    some (if s.hasChannel ch then w32 (bit (s.retired ch) 8 + s.level ch) else 0#32)
  | 0x128 => some (w32 (r.nextLseq.toNat * 2 ^ 16 + r.ledger.length * 2 ^ 8 + r.oldest))
  | _ =>
    if 0x180 ≤ off ∧ off < 0x1A0 ∧ off % 4 = 0 then some (r.retired.extractLsb' (8 * (off - 0x180)) 32)
    else if 0x400 ≤ off ∧ off < 0x800 ∧ off % 4 = 0 then some (s.lcacheWord off)
    else none

/-- LIFE. -/
def State.lifeReg (s : State) (off : Nat) : Option Word :=
  let l := s.life
  match off with
  | 0x100 => some (w32 (bit l.taint 8 + (decodeFuse0 (s.fuse 0)).1.toNat * 16 + l.shadow.toNat))
  | 0x104 => some (s.fuse 0)
  | 0x114 => some (w32 l.fails)
  | 0x118 => some 1#32
  | _ =>
    if 0x140 ≤ off ∧ off < 0x160 ∧ off % 4 = 0 then some ((l.chal.getD []).getD ((off - 0x140) / 4) 0#32)
    else none

def phaseCode : Phase → Nat
  | .run => 0
  | .fuse => 1
  | .wait => 2
  | .drain => 3
  | .scrub => 4
  | .held => 5
  | .bad => 6
  | .bootfail => 7

/-- RESET. -/
def State.resetReg (s : State) (off : Nat) : Option Word :=
  match off with
  | 0x104 => some (w32 (bit s.scrubPolicy 0))
  | 0x114 => some (w32 (s.rst.last * 2 ^ 28 + bit s.rst.scrubbed 27 + phaseCode s.rst.phase * 2 ^ 16))
  | _ => none

/-- The registers of a page that the core computes. -/
def State.pageReg (s : State) (page off : Nat) : Option Word :=
  match page with
  | 0x0 => s.identReg off
  | 0x1 => s.coreReg off
  | 0x2 => s.cacheReg off
  | 0x4 => s.tileReg off
  | 0x5 => s.convReg off
  | 0x6 => s.spxReg off
  | 0x7 => s.fabReg off
  | 0x8 => s.pitchReg off
  | 0x9 => s.bellReg off
  | 0xB => s.syncReg off
  | 0xC => s.weighReg off
  | 0xD => s.rasReg off
  | 0xE => s.lifeReg off
  | 0xF => s.resetReg off
  | _ => none

/-- The registers of the common layout that the core computes. -/
def State.commonReg (s : State) (page off : Nat) : Option Word :=
  match off with
  | 0x000 => some (pageId page)
  | 0x004 => some (s.caps page)
  | 0x00C => some (s.pageStatus page)
  | 0x018 => some (s.evtPend (page * 0x1000))
  | _ => none

/-- The value that a register holds now; an offset without a register reads 0 (R6). -/
def State.regNow (s : State) (key : Nat) : Word :=
  let page := key / 0x1000
  let off := key % 0x1000
  let v := if off < 0x100 || 0xF00 ≤ off then s.commonReg page off else s.pageReg page off
  v.getD (if (regSpec key).isSome then s.reg key else 0#32)

/-! ## Reading (R55, R390) -/

def State.hold (s : State) : Accessor → Hold
  | .local => s.localHold
  | .remote => s.remoteHold

def State.setHold (s : State) (who : Accessor) (h : Hold) : State :=
  match who with
  | .local => { s with localHold := h }
  | .remote => { s with remoteHold := h }

/-- AUTOINC: an access to PITCH_STAGED increments INDEX, wrapping at the table size. -/
def State.autoInc (s : State) : State :=
  let sel := s.reg (pPITCH + 0x100)
  if sel.getLsbD 30 then
    s.setReg (pPITCH + 0x100) (setFld sel 0 11 ((s.selIndex + 1) % (if s.selDie then 128 else 2048)))
  else s

/-- A register read by an accessor: its value, and what the read does (R55, R390). -/
def State.readReg (s : State) (who : Accessor) (key : Nat) : State × Word :=
  let h := s.hold who
  let s : State := if key = pCORE + 0x00C then { s with fresh := s.fresh + 1 } else s
  if key = pPITCH + 0x104 then (s.autoInc, s.regNow key)
  else if isPairLow key then
    (s.setHold who { h with rd := s.regNow (key + 4), read := key :: h.read.filter (· != key) }, s.regNow key)
  else if 4 ≤ key && isPairLow (key - 4) && h.read.contains (key - 4) then (s, h.rd)
  else (s, s.regNow key)

end Sys2Proof.Machine
end

