-- ==== Sys2Proof/Machine/RegWrite.lean ====
section
/-! DEFINITION. Register writes: access codes, locks, staged copies, pairs, and the registers whose writes do something of
their own (02_register_pages.md R47 to R56; R117, R118, R149, R163, R211, R228, R364, R383, R390, R399, R435 to R447). -/

namespace Sys2Proof.Machine

/-! ## Locks and arming (R52, R53) -/

def State.locked (s : State) (page : Nat) : Bool := (s.reg (page * 0x1000 + 0xF00)).getLsbD 0

/-- PAGE_LOCK: write-once. -/
def State.writeLock (s : State) (page : Nat) (v : Word) : State :=
  if s.locked page then s else s.setReg (page * 0x1000 + 0xF00) (v &&& 1#32)

/-- CANCEL: every staged copy of the page is reloaded, ARM ends 0. -/
def State.cancelApply (s : State) (page : Nat) : State :=
  let s : State := { s with staged := s.staged.filter fun c => c.1 / 0x1000 != page }
  s.setReg (page * 0x1000 + 0xF04) 0#32

/-- ARM. -/
def State.armApply (s : State) (page : Nat) : State := s.setReg (page * 0x1000 + 0xF04) 1#32

/-- PAGE_APPLY. -/
def State.writeApply (s : State) (page : Nat) (v : Word) : State :=
  if v.getLsbD 1 then s.cancelApply page else if v.getLsbD 0 then s.armApply page else s

/-! ## Events (R49 to R51) -/

/-- A test of error events: CODE 0xFFFF. -/
def State.testErrs (s : State) (page : Nat) (m : Word) : State :=
  if m = 0#32 then s
  else
    let k := s.fresh
    let es := ((List.range 32).filter fun b => m.getLsbD b).map fun b =>
      (⟨b, 0xFFFF, s.stamp, Config.testAddr k⟩ : ErrEvt)
    ({ s with fresh := k + 1 }).raiseErrs (page * 0x1000) es

/-- EVT_SET. -/
def State.writeEvtSet (s : State) (page : Nat) (v : Word) : State :=
  let m := v &&& evtMask page
  (s.orReg (page * 0x1000 + 0x010) (m &&& ~~~errMask page)).testErrs page (m &&& errMask page)

/-- EVT_RAW. -/
def State.writeEvtRaw (s : State) (page : Nat) (v : Word) : State :=
  s.setReg (page * 0x1000 + 0x010) (s.reg (page * 0x1000 + 0x010) &&& ~~~v)

/-- A W1C write to a register whose VALID bit takes OVFL with it: ERR_INFO, CORE_MCHK, TILE_DEFER. -/
def State.clearValid (s : State) (key : Nat) (v : Word) : State :=
  if v.getLsbD 31 then s.setReg key (s.reg key &&& 0x3FFFFFFF#32) else s

/-! ## Values that a write leaves unchanged -/

/-- Keeps `n` bits from `lo` up of the old value. -/
def keepFld (old new : Word) (lo n : Nat) : Word := setFld new lo n (fld old lo n)

/-- The value that a write leaves, field by field, where the register tables refuse some values. -/
def State.legal (s : State) (key : Nat) (old new : Word) : Word :=
  let page := key / 0x1000
  let off := key % 0x1000
  if key = 0x1100 then (if s.build.s2 then new else new &&& 0xFFFFFFFE#32)
  else if key = 0x1184 then (if fld new 0 2 = 3 then keepFld old new 0 2 else new)
  else if key = 0x2100 then
    new &&& (if s.cacheFusedOff true then 0xFFFFFFFE#32 else 0xFFFFFFFF#32)
      &&& (if s.cacheFusedOff false then 0xFFFFFFFD#32 else 0xFFFFFFFF#32)
  else if key = 0x2104 then (if 4 ≤ new.toNat ∧ new.toNat ≤ 64 then new else old)
  else if key = 0x2108 then new &&& s.lockable
  else if page = 3 ∧ 0x200 ≤ off ∧ off % 16 = 8 then (if 4 ≤ fld new 0 3 then keepFld old new 0 3 else new)
  else if page = 6 ∧ 0x200 ≤ off ∧ off % 16 = 8 then
    (if 2 ≤ fld new 4 2 ∨ (!s.build.s2 ∧ fld new 4 2 ≠ 0) then keepFld old new 4 2 else new)
  else if page = 7 ∧ 0x200 ≤ off ∧ off % 16 = 12 then
    let n := if 23 ≤ fld new 24 6 ∧ fld new 24 6 ≤ 48 then new else keepFld old new 24 6
    if 6 ≤ fld n 16 6 ∧ fld n 16 6 ≤ 30 then n else keepFld old n 16 6
  else if key = 0xD100 then
    let n := if fld new 0 8 = 0 then keepFld old new 0 8 else new
    if fld n 16 8 = 0 then keepFld old n 16 8 else n
  else new

/-- The same for staged copies (R205 and the WEIGH_RAMP table). -/
def legalStaged (key : Nat) (old new : Word) : Word :=
  if key = 0x9104 then (if 4096 ≤ fld new 0 25 ∧ fld new 0 25 ≤ 16777216 then new else old)
  else if key = 0xC104 then (if fld new 0 8 < 4 then keepFld old new 0 8 else new)
  else new

/-! ## A write by the access codes (R47) -/

def State.plainWrite (s : State) (key : Nat) (v : Word) : State :=
  match regSpec key with
  | none => s
  | some r =>
    let lock := s.locked (key / 0x1000)
    let m := r.rw ||| (if lock then 0#32 else r.rwl)
    let old := s.reg key
    let new := s.legal key old (((old &&& ~~~m) ||| (v &&& m)) &&& ~~~(v &&& r.w1c))
    let st := s.stagedReg key
    let s := if new = old then s else s.setReg key new
    let s : State := if r.rwb = 0#32 then s else
      { s with staged := s.staged.set key (legalStaged key st ((st &&& ~~~r.rwb) ||| (v &&& r.rwb))) }
    if lock && r.rwl != 0#32 then s.raise (key / 0x1000 * 0x1000) 31 else s

/-! ## TILE and CONV (R117, R118, R143, R149, R163, R200) -/

/-- A page write that waits for the instructions queued now takes effect. -/
def State.lateNow (s : State) : LateWrite → State
  | .maskr v => { s with tile := { s.tile with maskr := v } }
  | .maskc v => { s with tile := { s.tile with maskc := v } }
  | .seed v => { s with tile := { s.tile with seed := v, lanes := rngSeed (lo32 v) } }
  | .rbits v => { s with tile := { s.tile with rbits := v } }

/-- A page write ordered behind the instructions that are queued now; `m`: the remote request to answer once it has taken effect. -/
def State.lateWrite (s : State) (w : LateWrite) (m : Option InMsg) : State :=
  if s.tile.queue.isEmpty then s.lateNow w
  else { s with tile := { s.tile with late := s.tile.late ++ [(s.tile.queue.length, w, m)] } }

/-- The register is one whose writes are ordered so: the masks, CONV_SEED, CONV_CTRL, each at the word that acts. -/
def lateKey (key : Nat) (v : Word) : Bool :=
  key == 0x4124 || key == 0x412C || key == 0x510C || (key == 0x5100 && decide (1 ≤ fld v 0 5 ∧ fld v 0 5 ≤ 16))

/-- The names that survive a write of TILE_TUSE. -/
def keepNames (v : Word) (ns : List (Option NameInfo)) : List (Option NameInfo) :=
  ns.zipIdx.map fun x => if v.getLsbD x.2 then x.1 else none

/-- A write of TILE_TUSE takes effect: names end, with their poison; setting is discarded. -/
def State.setTuse (s : State) (v : Word) : State :=
  let t := s.tile
  let gone := w32 t.engine.tuse &&& ~~~v
  { s with tile := { t with
      issue := { t.issue with names := keepNames v t.issue.names }
      engine := { t.engine with names := keepNames v t.engine.names }
      poison := t.poison &&& ~~~gone } }

/-- A write of TILE_TUSE (offset 0x118) or TILE_TUSE_OP takes effect. -/
def State.tuseNow (s : State) (off : Nat) (v : Word) : State :=
  if off = 0x118 then s.setTuse v else { s with tile := { s.tile with tuseOp := v.setWidth 8 } }

/-- A write of TILE_TUSE or TILE_TUSE_OP: with the engine idle it takes effect, otherwise it waits (R117). -/
def State.writeTuse (s : State) (off : Nat) (v : Word) (m : Option InMsg) : State :=
  if s.tileBusy then { s with tile := { s.tile with heldTuse := s.tile.heldTuse ++ [(off, v, m)] } }
  else s.tuseNow off v

/-- CONV_CTRL: RBITS takes 1 to 16. -/
def State.writeRbits (s : State) (v : Word) (m : Option InMsg) : State :=
  let n := fld v 0 5
  if 1 ≤ n ∧ n ≤ 16 then s.lateWrite (.rbits (BitVec.ofNat 5 n)) m else s

/-! ## FAB, PITCH, BELL -/

/-- FAB_CTRL (R383): LANE_OFF is RWL. -/
def State.writeFabCtrl (s : State) (v : Word) : State :=
  let s := s.plainWrite (pFAB + 0x100) v
  if s.locked 7 then s.raise pFAB 31
  else
    let s : State := { s with net := { s.net with laneOff := v.setWidth 2 } }
    let off (s : State) (n : Fin 2) : State :=
      if v.getLsbD n.val && !s.net.lanes[n].retired then s.loseLane n 3 else s
    off (off s 0) 1

/-- FAB_ABSORB_CLR (R399). -/
def State.absorbClear (s : State) : State :=
  { s with net := { s.net with tags := s.net.tags.filter fun t => !t.absorbed } }

/-- PITCH_STAGED (R390). -/
def State.writeStaged (s : State) (v : Word) : State :=
  let put (m : WMap) (i : Nat) (w : Word) : WMap := if w = 0#32 then m.erase i else m.set i w
  let i := s.selIndex
  let s : State :=
    if s.selDie then
      if i < 128 then
        { s with pitch := { s.pitch with stagedDie := put s.pitch.stagedDie i (v &&& 0x8000007F#32) } }
      else s
    else { s with pitch := { s.pitch with stagedCore := put s.pitch.stagedCore i (v &&& 0xC00007FF#32) } }
  s.autoInc

/-- BELL_SKEW_CLR (R211). -/
def State.skewClear (s : State) (v : Word) : State :=
  if v.getLsbD 0 then s.setReg (pBELL + 0x11C) (s.reg (pBELL + 0x11C) &&& 0xFFFF#32) else s

/-! ## RAS (R435 to R447) -/

/-- The reason that a write of RAS_FENCE fences with (R440). -/
def fenceReason (v : Word) : Byte :=
  let r := fld v 0 8
  if r = 3 ∨ r = 6 ∨ 0x80 ≤ r then BitVec.ofNat 8 r
  else if v.getLsbD 9 ∧ (r = 1 ∨ r = 2 ∨ r = 4 ∨ r = 5) then BitVec.ofNat 8 r
  else 6#8

/-- RAS_FENCE. -/
def State.writeFence (s : State) (v : Word) : State :=
  if v.getLsbD 8 then State.flushEvts (s.fenceCore (fenceReason v) (v.getLsbD 9) true) else s

/-- RAS_RETIRE. -/
def State.writeRetire (s : State) (v : Word) : State :=
  if v.getLsbD 8 then State.flushEvts (s.retireChannel (fld v 0 8) (v.getLsbD 9) true) else s

/-- RAS_BKT.LEVEL: RWL; an absent channel ignores it (R435). -/
def State.writeBkt (s : State) (v : Word) : State :=
  if s.locked 0xD then s.raise pRAS 31
  else
    let s := s.leak
    let ch := fld (s.reg (pRAS + 0x11C)) 0 8
    if s.hasChannel ch then s.setLevel ch (fld v 0 8) else s

/-- RAS_LPOP: the oldest entries are consumed (R443). -/
def State.popLedger (s : State) (v : Word) : State :=
  let n := min (fld v 0 5) s.ras.ledger.length
  { s with ras := { s.ras with ledger := s.ras.ledger.drop n, oldest := (s.ras.oldest + n) % 16 } }

/-! ## LIFE, RESET, WEIGH -/

/-- LIFE_SESS. -/
def State.writeSess (s : State) (v : Word) : State :=
  let s := if v.getLsbD 0 then s.lifeOpen else s
  if v.getLsbD 1 then s.lifeSubmit s.life.xreq else s

/-- WEIGH_CTRL: L moves by steps from the T of this cycle once ENRAMP is set; ENALLOW applies the test of the allowance (R401,
R403). -/
def State.writeWeighCtrl (s : State) (v : Word) : State := (s.levelSync.plainWrite (pWEIGH + 0x100) v).checkAllow

/-- RESET_CTRL (R416, R425). -/
def State.writeResetCtrl (s : State) (v : Word) : State :=
  let s := if v.getLsbD 8 then s.askRelease else s
  if v.getLsbD 0 then s.requestReset 0 false else s

/-! ## The write of a register that is no pair -/

/-- Writes with an effect of their own in the common layout. -/
def State.commonWrite (s : State) (page off : Nat) (v : Word) : State :=
  match off with
  | 0x010 => s.writeEvtRaw page v
  | 0x01C => s.writeEvtSet page v
  | 0x020 => s.clearValid (page * 0x1000 + 0x020) v
  | 0xF00 => s.writeLock page v
  | 0xF04 => s.writeApply page v
  | _ => s.plainWrite (page * 0x1000 + off) v

/-- The write of SYNC_VALn or SYNC_ADDn, or of a plain register of the page (R228). -/
def State.syncWrite (s : State) (off : Nat) (v : Word) : State :=
  if off % 4 ≠ 0 then s
  else if 0x100 ≤ off ∧ off < 0x200 then s.syncSet (ctr ((off - 0x100) / 4)) v
  else if 0x300 ≤ off ∧ off < 0x400 then s.syncAdd (ctr ((off - 0x300) / 4)) v
  else s.plainWrite (pSYNC + off) v

/-- A change of mode empties the fetch buffer (R249, R254). -/
def State.dropFetch (s : State) : State := ({ s with cpu := { s.cpu with fetched := [] } } : State).dropLoop

/-- Writes with an effect of their own in the CORE to FAB pages. -/
def State.midWrite (s : State) (page off : Nat) (v : Word) (m : Option InMsg) : State :=
  match page, off with
  | 0x1, 0x100 => (s.plainWrite (pCORE + 0x100) v).dropFetch
  | 0x2, 0x100 => (s.plainWrite (pCACHE + 0x100) v).dropFetch
  | 0x1, 0x114 => s.clearValid (pCORE + 0x114) v
  | 0x3, 0x100 => (s.plainWrite (pXLAT + 0x100) v).dropLoop
  | 0x3, 0x10C => (s.plainWrite (pXLAT + 0x10C) v).dropLoop
  | 0x4, 0x118 => s.writeTuse 0x118 v m
  | 0x4, 0x11C => s.writeTuse 0x11C v m
  | 0x4, 0x124 => s.lateWrite (.maskr v) m
  | 0x4, 0x148 => s.clearValid (pTILE + 0x148) v
  | 0x5, 0x100 => s.writeRbits v m
  | 0x6, 0x118 => s.setBankpwr v
  | 0x7, 0x100 => s.writeFabCtrl v
  | 0x7, 0x11C => if v.getLsbD 0 then s.absorbClear else s
  | _, _ => s.plainWrite (page * 0x1000 + off) v

/-- Writes with an effect of their own in the PITCH to RESET pages. -/
def State.highWrite (s : State) (page off : Nat) (v : Word) : State :=
  match page, off with
  | 0x8, 0x104 => s.writeStaged v
  | 0x9, 0x120 => s.skewClear v
  | 0xC, 0x100 => s.writeWeighCtrl v
  | 0xC, 0x108 => (s.plainWrite (pWEIGH + 0x108) v).checkTemp
  | 0xD, 0x114 => s.writeFence v
  | 0xD, 0x120 => s.writeBkt v
  | 0xD, 0x124 => s.writeRetire v
  | 0xD, 0x12C => s.popLedger v
  | 0xE, 0x11C => (s.plainWrite (pLIFE + 0x11C) v).dbgRecheck
  | 0xE, 0x108 => s.lifeXreq v
  | 0xE, 0x110 => s.writeSess v
  | 0xF, 0x100 => s.writeResetCtrl v
  | _, _ =>
    if page = 0xB then s.syncWrite off v
    else if page = 0xE ∧ 0x180 ≤ off ∧ off < 0x1C0 ∧ off % 4 = 0 then s.lifeResp ((off - 0x180) / 4) v
    else s.plainWrite (page * 0x1000 + off) v

/-- A write of one 32-bit register; `m`: the request to answer once a held write takes effect. -/
def State.wordWrite (s : State) (key : Nat) (v : Word) (m : Option InMsg) : State :=
  let page := key / 0x1000
  let off := key % 0x1000
  if off < 0x100 || 0xF00 ≤ off then s.commonWrite page off v
  else if page < 8 then s.midWrite page off v m
  else s.highWrite page off v

/-! ## Pairs (R55) -/

/-- A pair with a writable field. -/
def pairWritable (lo : Nat) : Bool :=
  let has (k : Nat) : Bool :=
    match regSpec k with
    | some r => (r.rw ||| r.rwl ||| r.rwb ||| r.w1c) != 0#32
    | none => false
  lo == 0x4128 || lo == 0x5108 || has lo || has (lo + 4)

/-- The low word that a high-word write takes where none was written: staged for RWB fields, else current. -/
def State.pairLow (s : State) (lo : Nat) : Word :=
  match regSpec lo with
  | some r => if r.rwb = 0#32 then s.regNow lo else s.stagedReg lo
  | none => s.regNow lo

/-- A whole pair is written in one cycle. -/
def State.pairStore (s : State) (lo : Nat) (vl vh : Word) (m : Option InMsg) : State :=
  if lo = 0x4128 then s.lateWrite (.maskc (join64 vh vl)) m
  else if lo = 0x5108 then s.lateWrite (.seed (join64 vh vl)) m
  else if lo = 0x3104 then ((s.plainWrite lo vl).plainWrite (lo + 4) vh).dropLoop
  else (s.plainWrite lo vl).plainWrite (lo + 4) vh

/-- A write of a pair's low word. -/
def State.pairWriteLow (s : State) (who : Accessor) (lo : Nat) (v : Word) : State :=
  let h := s.hold who
  s.setHold who { h with wr := v, written := lo :: h.written.filter (· != lo) }

/-- A write of a pair's high word. -/
def State.pairWriteHigh (s : State) (who : Accessor) (lo : Nat) (v : Word) (m : Option InMsg) : State :=
  let h := s.hold who
  let low := if h.written.contains lo then h.wr else s.pairLow lo
  let forget (h : Hold) : Hold := { h with written := h.written.filter (· != lo) }
  let s : State := { s with localHold := forget s.localHold, remoteHold := forget s.remoteHold }
  s.pairStore lo low v m

/-- A register write by an accessor; a source that it may end is remembered after a WFI (R274). -/
def State.writeReg (s : State) (who : Accessor) (key : Nat) (v : Word) (m : Option InMsg := none) : State :=
  let s := s.latchWfi
  if isPairLow key then (if pairWritable key then s.pairWriteLow who key v else s)
  else if 4 ≤ key && isPairLow (key - 4) then (if pairWritable (key - 4) then s.pairWriteHigh who (key - 4) v m else s)
  else s.wordWrite key v m

/-! ## Who may write, and when -/

/-- The pages that a held or waiting core serves, and a fenced one (R44, R439). -/
def heldPage (page : Nat) : Bool := page == 0 || page == 8 || page == 0xD || page == 0xE || page == 0xF

/-- A remote access to a page finds the core ready to serve it: in BOOTFAIL, which is out of reset, every page is served (R44, R415,
R439). -/
def State.pageServed (s : State) (page : Nat) : Bool :=
  match s.rst.phase with
  | .run => s.ras.fence.isNone || heldPage page
  | .bootfail => s.ras.fence.isNone || heldPage page
  | .fuse => false
  | .drain => s.rst.fenceDrain && heldPage page
  | .scrub => s.rst.fenceDrain && heldPage page
  | _ => heldPage page

/-- A write that is serialising in the sense of R249, compared with what the register holds. -/
def State.serialising (s : State) (key : Nat) (v : Word) : Bool :=
  match key with
  | 0x1100 => v.getLsbD 0 != (s.reg key).getLsbD 0
  | 0x2100 => fld v 0 2 != fld (s.reg key) 0 2
  | 0x3100 => true
  | 0x3108 => true
  | 0x310C => true
  | 0x6108 => true
  | _ => false

/-- A write that must wait now: a serialising one for the store buffer, and a remote one for the boundary of an instruction that
commits in units; a local one of TILE_TUSE for the engine (R117, R249). -/
def State.writeWaits (s : State) (who : Accessor) (key : Nat) (v : Word) : Bool :=
  (s.serialising key v && (!s.cpu.sb.isEmpty || (who == .remote && s.cpu.midUnits)))
    || (who == .local && (key == 0x4118 || key == 0x411C) && s.tileBusy)

/-- An accessor can reach a page: the own core while it runs at level M, others as R44 and R439 state, a core in WAIT
only by a lane that carries traffic (R37). -/
def State.reaches (s : State) (who : Accessor) (page : Nat) : Bool :=
  match who with
  | .local => s.rst.phase == .run && s.ras.fence.isNone && s.pl == 2
  | .remote => s.pageServed page && (s.rst.phase != .wait || s.net.lanes[0].active || s.net.lanes[1].active)

/-- A register write arrives from an accessor: it acts where it can be served and need not wait. -/
def State.accessWrite (s : State) (who : Accessor) (key : Nat) (v : Word) : State :=
  if s.reaches who (key / 0x1000) && !s.writeWaits who key v then s.writeReg who key v else s

end Sys2Proof.Machine
end

