-- ==== Sys2Proof/Machine/Tally.lean ====
section
/-! DEFINITION. The Tally: descriptors, judging and staging of contributions, applies (09_bell_tally_sync.md R212 to R226, R461). -/

namespace Sys2Proof.Machine

/-- The difference of two ticks as R203 reads it. -/
def tickDiff (a b : BitVec 40) : Int := (a - b).toInt

/-! ## Descriptors (R212) -/

/-- The bytes of an element. -/
def tallyElem (fmt : Nat) : Nat :=
  match fmt with
  | 0x0 => 4
  | 0x9 => 4
  | 0xA => 8
  | _ => 16

def TallyDesc.size (d : TallyDesc) : Nat := tallyElem d.fmt
/-- COUNT times the element size. -/
def TallyDesc.total (d : TallyDesc) : Nat := d.count * d.size
/-- D: the blocks of 64 bytes of a vector. -/
def TallyDesc.blocks (d : TallyDesc) : Nat := (d.total + 63) / 64
/-- ROW (R214). -/
def TallyDesc.row (d : TallyDesc) : Nat := 64 + 64 * d.blocks
/-- The offset of row `k` of buffer `p`. -/
def TallyDesc.rowAt (d : TallyDesc) (p k : Nat) : Nat := d.arena + p * (d.expect * d.row) + k * d.row

/-- A descriptor from its 32 bytes; none where a field is illegal or a reserved bit set. -/
def parseDesc (b : List Byte) : Option TallyDesc :=
  let n (o k : Nat) : Nat := leNat ((b.drop o).take k)
  let mode := n 0x1C 1
  let done := n 0x1D 1
  let wb := n 0x1E 2
  let fmt := mode % 16
  let d : TallyDesc :=
    { dest := n 0 8, arena := n 8 8, idLo := w32 (n 0x10 4), idHi := w32 (n 0x14 4), count := n 0x18 2 + 1,
      expect := n 0x1A 2 % 4096 + 1, replace := mode / 64 % 2 == 1, op := mode / 16 % 4, fmt := fmt,
      doneEn := done / 64 % 2 == 1, done := done % 64, wbase := (BitVec.ofNat 10 wb).toInt }
  let ok := decide (n 0x1A 2 < 4096) && decide (mode < 128) && d.op != 3
    && (fmt == 0 || fmt == 9 || fmt == 0xA || fmt == 0xB) && decide (done < 128) && decide (wb < 1024)
    && (fmt == 0xB || wb == 0) && decide (d.idLo.toNat ≤ d.idHi.toNat) && d.dest % d.size == 0 && d.arena % 64 == 0
  if ok then some d else none

/-- A Tally access through the D sub-port. -/
def tallyAcc : SpxAcc := ⟨.internal, .d, 0⟩

/-- The ranges of a descriptor lie in the scratchpad as the D sub-port sees it (R212, R349). -/
def State.descRanges (s : State) (d : TallyDesc) : Bool :=
  let ok (off len : Nat) : Bool :=
    decide (off + len ≤ s.build.capacity) && (match s.rangeCheck tallyAcc off len with
      | some (_, 2) => true
      | some _ => false
      | none => true)
  ok d.dest d.total && ok d.arena (2 * d.expect * d.row)

/-! ## Slots -/

def State.slot (s : State) (n : Nat) : TallySlot := s.tally.slots.getD n TallySlot.init
def State.setSlot (s : State) (n : Nat) (t : TallySlot) : State :=
  { s with tally := { s.tally with slots := s.tally.slots.set n t } }
def TallySlot.rows (t : TallySlot) (p : Nat) : List TallyRow := if p = 0 then t.rows0 else t.rows1
def TallySlot.setRows (t : TallySlot) (p : Nat) (rs : List TallyRow) : TallySlot :=
  if p = 0 then { t with rows0 := rs } else { t with rows1 := rs }

/-- A slot is armed for a tick (R213). -/
def TallySlot.armedFor (t : TallySlot) (u : BitVec 40) : Bool :=
  t.desc.isSome && decide (0 ≤ tickDiff u t.armedAt) && (match t.disarmedAt with
    | none => true
    | some d => decide (tickDiff u d < 0))

/-- Buffer p of a tick. -/
def bufOf (u : BitVec 40) : Nat := u.toNat % 2

/-- The complete rows of a buffer, with their places. -/
def completeRows (d : TallyDesc) (rs : List TallyRow) : List (Nat × TallyRow) :=
  (rs.zipIdx.filter fun x => x.1.staged == d.total).map fun x => (x.2, x.1)

/-! ## INCOMPLETE (R222) -/

/-- The event of a slot without its rows. -/
def State.incompleteEvt (s : State) (slot cause rows : Nat) (tick : BitVec 40) : ErrEvt :=
  ⟨0, cause * 256 + slot, s.stamp, w64 (rows % 4096 * 2 ^ 40 + tick.toNat)⟩

/-- The bit of TALLY_INCOMPLETE is set and the buffer released. -/
def State.markIncomplete (s : State) (slot p : Nat) : State :=
  (s.setSlot slot ((s.slot slot).setRows p [])).setReg64 (pTALLY + 0x114)
    (s.reg64 (pTALLY + 0x114) ||| (1#64 <<< slot))

/-- The rows that count for a slot's tick. -/
def State.rowsDone (s : State) (slot p : Nat) : Nat :=
  match (s.slot slot).desc with
  | none => 0
  | some d => (completeRows d ((s.slot slot).rows p)).length

/-- Several slots become INCOMPLETE with one cause. -/
def State.incompleteAll (s : State) (cause : Nat) (tick : BitVec 40) (slots : List Nat) : State × List ErrEvt :=
  let p := bufOf tick
  let es := slots.map fun n => s.incompleteEvt n cause (s.rowsDone n p) tick
  (slots.foldl (fun s n => s.markIncomplete n p) s, es)

/-! ## The rejection of a contribution (R218) -/

/-- A reject notice arrives: NOTICE is raised and counted. -/
def State.noticeIn (s : State) (src : Word) (cause slot : Nat) (stamp : DWord) : State :=
  (s.raiseErr pTALLY ⟨5, cause * 256 + slot, stamp, src.setWidth 64⟩).bump (pTALLY + 0x128)

/-- Sends a reject notice; one to the own ID loops back. -/
def State.sendNotice (s : State) (m : TallyMsg) (cause : Nat) : State :=
  let b : Body := ⟨1, 4, 0, m.tid, m.stamp, BitVec.ofNat 56 (cause * 256 + m.slot.toNat), 0, []⟩
  if !m.su && s.liveId == some m.src then s.noticeIn m.src cause m.slot.toNat m.stamp
  else s.answer b m.src m.su

/-- Rejects a contribution. -/
def State.rejectContrib (s : State) (m : TallyMsg) (cause : Nat) : State :=
  let b := if cause = 1 then 1 else if cause = 2 then 2 else 3
  let s := s.raiseErr pTALLY ⟨b, cause * 256 + m.slot.toNat, m.stamp, m.src.setWidth 64⟩
  (s.bump (if cause = 1 then pTALLY + 0x120 else pTALLY + 0x124)).sendNotice m cause

/-! ## Judging (R217) -/

/-- What becomes of an arriving contribution. -/
inductive Judgement where
  /-- It waits in the network interface; held for the next tick, or for its slot's descriptor. -/
  | wait (held : Bool)
  | reject (cause : Nat)
  | stage (row : Option Nat) (held : Bool)
deriving DecidableEq, Repr

def stampTick (v : DWord) : BitVec 40 := v.extractLsb' 24 40
def stampC (v : DWord) : Nat := v.toNat % 2 ^ 24

/-- The further tests: the first that fails, or the row that the message goes to. -/
def State.furtherTests (s : State) (m : TallyMsg) (held : Bool) : Judgement :=
  let u := stampTick m.stamp
  let t := s.slot m.slot.toNat
  let rs := t.rows (bufOf u)
  match t.desc with
  | none => .reject 4
  | some d =>
    if !t.armedFor u then .reject 4
    else if m.src.toNat < d.idLo.toNat ∨ d.idHi.toNat < m.src.toNat then .reject 5
    else
      let k := rs.findIdx? fun r => r.src == m.src
      let staged := match k with
        | some i => (rs.map (·.staged)).getD i 0
        | none => 0
      if k.isNone && d.expect ≤ rs.length then .reject 6
      else if m.offset.toNat ≠ staged then .reject 7
      else if m.data.length % d.size ≠ 0 ∨ d.total < m.offset.toNat + m.data.length then .reject 8
      else .stage k held

/-- The apply of a tick's buffer still runs, or has yet to begin (R217, R223). -/
def State.bufferBusy (s : State) (u : BitVec 40) : Bool :=
  let same (v : BitVec 40) : Bool := bufOf v == bufOf u
  (s.tally.apply.map fun a => same a.tick).getD false || (s.tally.due.map fun d => same d.1).getD false

/-- The judgement of a contribution at the receiver's tick and cycle; `held`: it was held for the tick that has begun since, until
the apply of its buffer ends. -/
def State.judge (s : State) (m : TallyMsg) (held : Bool) : Judgement :=
  let u := stampTick m.stamp
  let d := tickDiff u s.bell.tick
  let late := decide (s.applyAt ≤ s.bell.c)
  if (s.slot m.slot.toNat).unread then .wait false
  else if s.bell.unsync then .reject 3
  else if d = -1 then (if late then .reject 1 else s.furtherTests m held)
  else if d = 0 then (if held && s.bufferBusy u then .wait true else s.furtherTests m held)
  else if d = 1 then
    (if !late then .reject 2 else if s.bufferBusy u then .wait true else s.furtherTests m true)
  else if 2 ≤ d then .reject 2
  else .reject 1

/-! ## Staging (R214, R217, R362) -/

/-- The refused arena write of a contribution. -/
def State.arenaRefused (s : State) (m : TallyMsg) (off sub : Nat) : State :=
  let addr := w64 (m.src.toNat * 2 ^ 32 + off)
  if sub = 2 then
    (s.raiseErr pSPX ⟨3, off / s.build.groupBytes, m.stamp, addr⟩).bump (pSPX + 0x124)
  else (s.raiseErr pSPX ⟨2, s.denyCode off sub, m.stamp, addr⟩).bump (pSPX + 0x12C)

/-- Writes a message into row `k` of its buffer. -/
def State.stageRow (s : State) (m : TallyMsg) (d : TallyDesc) (isNew : Bool) (k : Nat) : State × Bool :=
  let u := stampTick m.stamp
  let p := bufOf u
  let n := m.slot.toNat
  let off := d.rowAt p k
  match s.rangeCheck ⟨.internal, .d, 1⟩ off 64, s.rangeCheck ⟨.internal, .d, 1⟩ (off + 64 + m.offset.toNat) m.data.length with
  | some (o, c), _ => (s.arenaRefused m o c, false)
  | none, some (o, c) => (s.arenaRefused m o c, false)
  | none, none =>
    let t := s.slot n
    let staged := m.offset.toNat + m.data.length
    let stamp := if isNew then m.stamp else ((t.rows p).map (·.stamp)).getD k m.stamp
    let row : TallyRow := ⟨m.src, staged, stamp⟩
    let rs := if isNew then t.rows p ++ [row] else (t.rows p).set k row
    let head := leBytes m.src.toNat 4 ++ leBytes staged 4
      ++ (if isNew then leBytes stamp.toNat 8 ++ List.replicate 48 0#8 else [])
    let s := (s.spxWrite off head).spxWrite (off + 64 + m.offset.toNat) m.data
    (s.setSlot n (t.setRows p rs), true)

/-- BELL_SKEW.MAXAHEAD (R211). -/
def State.noteSkew (s : State) (m : TallyMsg) : State :=
  let dist : Int := tickDiff (stampTick m.stamp) s.bell.tick * s.period + ((stampC m.stamp : Int) - s.bell.c)
  let old := s.reg (pBELL + 0x11C)
  if (fld old 16 16 : Int) < dist then s.setReg (pBELL + 0x11C) (setFld old 16 16 (min 65535 dist.toNat)) else s

/-- What becomes of a contribution: the state after it, or `none` with whether it waits as a held one. -/
def State.tryContrib (s : State) (m : TallyMsg) (held : Bool) : Except Bool State :=
  if s.ras.fence.isSome then .ok (s.bump kHOLEDROP)
  else if s.resetting then .ok (s.sendNotice m 9)
  else
    match s.judge m held with
    | .wait h => .error (held || h)
    | .reject c => .ok (s.rejectContrib m c)
    | .stage row h =>
      match (s.slot m.slot.toNat).desc with
      | none => .ok s
      | some d =>
        let k := row.getD ((s.slot m.slot.toNat).rows (bufOf (stampTick m.stamp))).length
        let r := s.stageRow m d row.isNone k
        .ok (if h && r.2 then r.1.bump (pTALLY + 0x12C) else r.1)

/-- A contribution waits behind every one of its source that still waits (R216). -/
def behind (kept : List (TallyMsg × Bool)) (m : TallyMsg) : Bool := kept.any fun x => x.1.src == m.src && x.1.su == m.su

/-- A TALLY message arrives: its stamp is measured, and it acts or waits in the network interface (R211, R216, R217). -/
def State.contribIn (s : State) (m : TallyMsg) : State :=
  let wait (s : State) (held : Bool) : State := { s with tally := { s.tally with waiting := s.tally.waiting ++ [(m, held)] } }
  let s := if s.ras.fence.isSome || s.resetting then s else s.noteSkew m
  if behind s.tally.waiting m then wait s false
  else
    match s.tryContrib m false with
    | .ok s' => s'
    | .error h => wait s h

/-- Judges the waiting contributions again, oldest first; those of a source behind one that still waits wait too. -/
def State.retryContribs (s : State) (kept : List (TallyMsg × Bool)) : List (TallyMsg × Bool) → State
  | [] => { s with tally := { s.tally with waiting := kept } }
  | m :: ms =>
    if behind kept m.1 then s.retryContribs (kept ++ [m]) ms
    else
      match s.tryContrib m.1 m.2 with
      | .ok s' => s'.retryContribs kept ms
      | .error h => s.retryContribs (kept ++ [(m.1, h)]) ms

def State.serveWaiting (s : State) : State :=
  if s.tally.waiting.isEmpty then s else s.retryContribs [] s.tally.waiting

/-! ## Descriptor reads (R212) -/

/-- A descriptor is rejected: SLOT_BAD, and the active arm bit is cleared. -/
def State.slotBad (s : State) (n : Nat) : State :=
  let s := s.setSlot n { s.slot n with unread := false, desc := none }
  let s := s.setReg64 (pTALLY + 0x10C) (s.reg64 (pTALLY + 0x10C) &&& ~~~(1#64 <<< n))
  s.raiseErr pTALLY ⟨4, n, s.stamp, 0#64⟩

/-- The descriptor of a newly armed slot is read. -/
def State.readDesc (s : State) (n : Nat) (flips : UnitFlips) : State :=
  let base := (s.reg64 (pTALLY + 0x104)).toNat + 32 * n
  match s.rangeCheck tallyAcc base 32 with
  | some _ => s.slotBad n
  | none =>
    let u := base / 32
    let r := (s.charge 5 1).readUnit u 3 (s.weightClass u) 0xF#4 flips
    if r.2.2 then r.1.slotBad n
    else
      match parseDesc r.2.1 with
      | some d =>
        if r.1.descRanges d then r.1.setSlot n { r.1.slot n with unread := false, desc := some d } else r.1.slotBad n
      | none => r.1.slotBad n

/-- The lowest newly armed slot is read next. -/
def State.nextUnread (s : State) : Option Nat := s.tally.slots.findIdx? fun t => t.unread

/-! ## Arming changes at a bell (R213) -/

def State.armSlots (s : State) (old new : DWord) (tick : BitVec 40) : State :=
  let slots := s.tally.slots.zipIdx.map fun x =>
    let was := old.getLsbD x.2
    let now := new.getLsbD x.2
    if now && !was then
      ({ unread := true, desc := none, armedAt := tick, disarmedAt := none, rows0 := [], rows1 := [] } : TallySlot)
    else if was && !now then { x.1 with unread := false, disarmedAt := some tick }
    else x.1
  { s with tally := { s.tally with slots := slots } }

/-! ## The operations of an apply (R221) -/

/-- Flags of TALLY_FLAGS from those of an operation: INV 0, OVF 1, UFL 3. -/
def tallyFlags (f : TFlags) : Word :=
  w32 (bit (f.getLsbD 0) 0 + bit (f.getLsbD 1) 1 + bit (f.getLsbD 2) 3)

/-- binary32 ADD. -/
def addF32 (a b : FVal) : BitVec 32 × TFlags :=
  let inv := a.isInf && b.isInf && a.sign != b.sign
  let r := to32 .rne (a.add b)
  (r.1, r.2.toTile ||| (if inv then tfINV else 0))

/-- The larger (or smaller) of two values, the first where they are equal; `z`: -0 lies below +0. -/
def pickSecond (max : Bool) (o : Ordering) : Bool := if max then o == .lt else o == .gt

/-- binary32 MAX and MIN. -/
def maxF32 (max : Bool) (x y : BitVec 32) : BitVec 32 :=
  let a := dec32 x
  let b := dec32 y
  if a.isNan || b.isNan then nan32
  else
    let v := if pickSecond max (a.cmpZ b) then b else a
    (to32 .rne v).1

/-- F32C MAX and MIN: on equal values the first is kept, bit for bit (R113); a pair taken over is written as R77 says. -/
def maxPair (max : Bool) (x y : Pair) : Pair :=
  let a := x.value
  let b := y.value
  if a.isNan || b.isNan then Pair.nan else if pickSecond max (a.cmpZ b) then y.canon else x

def pairOf (n : Nat) : Pair := ⟨w32 n, w32 (n / 2 ^ 32)⟩
def Pair.num (p : Pair) : Nat := p.s.toNat + 2 ^ 32 * p.e.toNat

/-- The two's-complement number of `w` bits. -/
def ofTwos (w n : Nat) : Int := (BitVec.ofNat w n).toInt
def toTwos (w : Nat) (x : Int) : Nat := (BitVec.ofInt w x).toNat

/-- ADD, MAX (1) or MIN (2) of two integers in `w` bits. -/
def combineInt (op w : Nat) (r c : Int) : Int × TFlags :=
  match op with
  | 0 => holdInt w tfOVF (r + c)
  | 1 => (if r < c then c else r, 0)
  | _ => (if c < r then c else r, 0)

/-- One term combined into the running value, both as the numbers that their bytes spell. -/
def combine (fmt op : Nat) (r c : Nat) : Nat × TFlags :=
  match fmt with
  | 0x0 =>
    if op = 0 then
      let x := addF32 (dec32 (w32 r)) (dec32 (w32 c))
      (x.1.toNat, x.2)
    else ((maxF32 (op == 1) (w32 r) (w32 c)).toNat, 0)
  | 0xA =>
    if op = 0 then
      let x := merge (pairOf r) (pairOf c)
      (x.1.num, x.2)
    else ((maxPair (op == 1) (pairOf r) (pairOf c)).num, 0)
  | 0x9 =>
    let x := combineInt op 32 (ofTwos 32 r) (ofTwos 32 c)
    (toTwos 32 x.1, x.2)
  | _ =>
    let x := combineInt op 128 (ofTwos 128 r) (ofTwos 128 c)
    (toTwos 128 x.1, x.2)

/-- The terms of one element combined in order. -/
def combineAll (fmt op : Nat) : Nat → List Nat → Nat × TFlags
  | r, [] => (r, 0)
  | r, c :: cs =>
    let x := combine fmt op r c
    let y := combineAll fmt op x.1 cs
    (y.1, x.2 ||| y.2)

/-- A vector's elements as numbers. -/
def elems (size : Nat) (b : List Byte) : Nat → List Nat
  | 0 => []
  | n + 1 => leNat (b.take size) :: elems size (b.drop size) n

/-- The combination of whole vectors, element by element: the first vector holds the first terms. -/
def combineVecs (fmt op : Nat) : List Nat → List (List Nat) → List Nat × TFlags
  | [], _ => ([], 0)
  | r :: rs, vs =>
    let x := combineAll fmt op r (vs.filterMap List.head?)
    let y := combineVecs fmt op rs (vs.map List.tail)
    (x.1 :: y.1, x.2 ||| y.2)

/-- The elements of a vector at `off` whose bytes touch a bad unit. -/
def badElems (off size count : Nat) (bad : List Nat) : List Nat :=
  (List.range count).filter fun j =>
    (List.range (unitsIn (off + j * size) size)).any fun k => bad.contains ((off + j * size) / 32 + k)

/-! ## Applying (R220 to R223) -/

/-- Rows in ascending order of source ID. -/
def insertRow (r : Nat × TallyRow) : List (Nat × TallyRow) → List (Nat × TallyRow)
  | [] => [r]
  | x :: xs => if r.2.src.toNat < x.2.src.toNat then r :: x :: xs else x :: insertRow r xs
def sortRows (rs : List (Nat × TallyRow)) : List (Nat × TallyRow) := rs.foldr insertRow []

/-- The cycles that a slot occupies (R220). -/
def TallyDesc.cycles (d : TallyDesc) (k : Nat) : Nat :=
  4 + (if d.replace then 0 else d.blocks) + k * (1 + d.blocks) + d.blocks

/-- Goes through the slots of an apply: INCOMPLETE ones are passed over in the same cycle; the first complete one is worked
on (R220, R222). -/
def State.pickSlot (s : State) (tick : BitVec 40) (cycles : Nat) : List Nat → State
  | [] => ({ s with tally := { s.tally with apply := none } }).setReg (pTALLY + 0x130) (w32 cycles)
  | n :: ns =>
    let p := bufOf tick
    match (s.slot n).desc with
    | none => s.pickSlot tick cycles ns
    | some d =>
      let rs := completeRows d ((s.slot n).rows p)
      if rs.length < d.expect then
        let e := s.incompleteEvt n 1 rs.length tick
        ((s.markIncomplete n p).raiseErr pTALLY e).pickSlot tick cycles ns
      else
        { s with tally := { s.tally with
            apply := some ⟨tick, ⟨n, d, sortRows rs⟩, ns, cycles + d.cycles rs.length⟩ } }

/-- The slots armed for a tick. -/
def State.armedSlots (s : State) (u : BitVec 40) : List Nat :=
  (List.range 64).filter fun n => (s.slot n).armedFor u

/-- C reaches A (R220, R225). An apply whose slot in progress has not completed goes before the new one (R223). -/
def State.applyStart (s : State) : State :=
  let tick := s.bell.tick - 1
  let slots := s.armedSlots tick
  if s.bell.unsync then
    let r := s.incompleteAll 1 tick slots
    r.1.raiseErrs pTALLY r.2
  else if slots.isEmpty then s
  else if s.tally.apply.isSome then { s with tally := { s.tally with due := some (tick, slots) } }
  else s.pickSlot tick 0 slots

/-- The apply that waited for the slot in progress begins. -/
def State.startDue (s : State) : State :=
  match s.tally.apply, s.tally.due with
  | none, some (tick, slots) => ({ s with tally := { s.tally with due := none } }).pickSlot tick 0 slots
  | _, _ => s

/-- Reads the rows of the slot in progress: their elements and the elements read from bad units. -/
def State.readRows (s : State) (d : TallyDesc) (p : Nat) : List (Nat × TallyRow) → State × List (List Nat) × List Nat
  | [] => (s, [], [])
  | r :: rs =>
    let off := d.rowAt p r.1 + 64
    let x := s.spxRead 3 [] off d.total
    let y := x.1.readRows d p rs
    (y.1, elems d.size x.2.1 d.count :: y.2.1, badElems off d.size d.count x.2.2 ++ y.2.2)

/-- An element as DEST receives it: an F32C pair as R77 says. -/
def TallyDesc.written (d : TallyDesc) (v : Nat) : Nat := if d.fmt = 0xA then (pairOf v).canon.num else v

/-- Writes the results of DEST; a unit with an element whose term was uncorrectable is poisoned whole (R361). -/
def State.writeTallyDest (s : State) (d : TallyDesc) (vals : List Nat) (bad : List Nat) : State :=
  let s := s.spxWrite d.dest (vals.flatMap fun v => leBytes (d.written v) d.size)
  let units := (bad.flatMap fun j =>
    (List.range (unitsIn (d.dest + j * d.size) d.size)).map fun k => (d.dest + j * d.size) / 32 + k).eraseDups
  units.foldl State.poisonUnit s

/-- The work of one slot: terms read, combined and written; flags and the done counter. -/
def State.applySlot (s : State) (tick : BitVec 40) (w : TallyWork) : State :=
  let d := w.desc
  let p := bufOf tick
  let r := s.readRows d p w.rows
  let x := if d.replace then (r.1, [], []) else r.1.spxRead 3 [] d.dest d.total
  let vecs := if d.replace then r.2.1 else elems d.size x.2.1 d.count :: r.2.1
  let bad := r.2.2 ++ (if d.replace then [] else badElems d.dest d.size d.count x.2.2)
  let c := combineVecs d.fmt d.op (vecs.headD []) vecs.tail
  let s := x.1.writeTallyDest d c.1 bad
  let fl := tallyFlags c.2
  let old := s.reg (pTALLY + 0x11C)
  let s := if fl &&& ~~~old = 0#32 then s else (s.setReg (pTALLY + 0x11C) (old ||| fl)).raise pTALLY 7
  if d.doneEn then s.syncAdd (ctr d.done) 1#32 else s

/-- The slot in progress is done: its buffer is released and the next slot starts. -/
def State.applyDone (s : State) : State :=
  match s.tally.apply with
  | none => s
  | some a =>
    let s := s.applySlot a.tick a.cur
    let s := s.setSlot a.cur.slot ((s.slot a.cur.slot).setRows (bufOf a.tick) [])
    (s.pickSlot a.tick a.cycles a.todo).startDue

/-! ## At a bell (R223, R224) -/

/-- An apply that has not finished at the bell: every slot but the one in progress is abandoned. -/
def State.abandonApply (s : State) : State × List ErrEvt :=
  match s.tally.apply with
  | none => (s, [])
  | some a =>
    let r := s.incompleteAll 2 a.tick a.todo
    let d := s.tally.due.getD (0, [])
    let q := r.1.incompleteAll 2 d.1 d.2
    ({ q.1 with tally := { q.1.tally with apply := some { a with todo := [] }, due := none } },
      ⟨6, a.todo.length + d.2.length, s.stamp, 0#64⟩ :: (r.2 ++ q.2))

/-- A tick load that is not the old tick + 1: staged rows are discarded. -/
def State.loadDiscard (s : State) (tick : BitVec 40) : State × List ErrEvt :=
  let armed := s.reg64 (pTALLY + 0x10C)
  let hit := (List.range 64).filter fun n =>
    armed.getLsbD n && !((s.slot n).rows0.isEmpty && (s.slot n).rows1.isEmpty)
  let es := hit.map fun n => s.incompleteEvt n 3 (s.rowsDone n 0 + s.rowsDone n 1) (tick - 1)
  let s := hit.foldl (fun s n => (s.markIncomplete n 0).markIncomplete n 1) s
  ({ s with tally := { s.tally with slots := s.tally.slots.map fun t => { t with rows0 := [], rows1 := [] } } }, es)

end Sys2Proof.Machine
end

