-- ==== Sys2Proof/Machine/Bell.lean ====
section
/-! DEFINITION. Time: the cycles of a bell with what happens at their offsets, and the bell itself (09_bell_tally_sync.md R201 to
R211; R53, R402, R403, R407, R434). -/

namespace Sys2Proof.Machine

/-! ## Cycles that pass within a bell -/

/-- The bell unit and its clock run: not in OFF, not while rst_whole_n is low. -/
def State.clockOn (s : State) : Bool := s.pwr.state != 4#3 && !s.rst.wholeLow

/-- The per-bell actions that serve the core's work take place: not in a reset, not fenced, not in SLEEP (R208). -/
def State.serving (s : State) : Bool := !s.resetting && s.ras.fence.isNone && s.pwr.state != 3#3

/-- The Weighbridge samples the allowance and updates the forecast: not in a reset, not in SLEEP (R30, R208, R403). -/
def State.sampling (s : State) : Bool := !s.resetting && s.pwr.state != 3#3

/-- Of `n` cycles of which the first has P = `p`, those that level `l` does not grant (R400). -/
def ungranted (l p : Nat) : Nat → Nat
  | 0 => 0
  | n + 1 => (if p % 8 < l then 0 else 1) + ungranted l (p + 1) n

/-- A TMMA that waits for the Weighbridge counts in TILE_GAPCYC (R400). -/
def State.countGap (s : State) (p n : Nat) : State :=
  if s.arrayReady then s.bump64 (pTILE + 0x138) (n / 8 * (8 - s.act) + ungranted s.act p (n % 8)) else s

/-- What `n` cycles from age `a` on count at the level that stands: CORE_CYCLES, the static energy, TILE_GAPCYC, the reset's
length, the time since a wake began and since its rail rose, the time that a source waits in IDLE or NAP (R250); mchk_out falls. -/
def State.countCycles (s : State) (a n : Nat) : State :=
  let p := s.pwr.state.toNat
  let s := if p = 0 ∧ s.rst.phase = .run then s.bump64 (pCORE + 0x118) n else s
  let s := if p = 0 then s.charge 0 n else if p = 1 ∨ p = 2 then s.charge 1 n else s
  let s := s.countGap a n
  { s with
    mchkOut := false
    spx := { s.spx with wrote := [] }
    cpu := { s.cpu with dues := if n ≠ 0 ∧ (p = 1 ∨ p = 2) then laterDues s.cpu.dues s.dueIds n n else s.cpu.dues }
    pwr := { s.pwr with waking := s.pwr.waking.map fun (k : Nat) => k + n
                        railUp := s.pwr.railUp.map fun (k : Nat) => k + n }
    rst := { s.rst with cycles := s.rst.cycles + n } }

/-- The cycle that is `a` cycles past the bell cycle: C holds at PERIOD - 1 in overtime (R201). -/
def State.setAge (s : State) (a : Nat) : State :=
  let c := min a (s.period - 1)
  { s with bell := { s.bell with c := c, ot := a - c } }

/-- `n` cycles more since L changed. -/
def State.elapse (s : State) (n : Nat) : State := { s with pwr := { s.pwr with since := s.pwr.since + n } }

/-- One cycle, of age `a`: L's step, then what the cycle counts (R401, R402). -/
def State.cycleAt (s : State) (a : Nat) : State := ((s.setAge a).elapse 1).stepLevel.countCycles a 1

/-- The split hook and the forecast update at C = SPLIT (R205, R227, R407). -/
def State.splitNow (s : State) : State :=
  let ctl := s.reg (pBELL + 0x100)
  let s := if s.serving && ctl.getLsbD 30 then s.syncAdd (ctr (fld ctl 24 6)) 1#32 else s
  let s : State := { s with bell := { s.bell with splitDone := true } }
  if s.sampling then s.updateForecast else s

/-- The Tally's close and apply at C = A (R220). -/
def State.closeNow (s : State) : State :=
  let s : State := { s with bell := { s.bell with applyDone := true } }
  if s.serving then s.applyStart else s

/-- SPLIT lies ahead in this bell. -/
def State.splitAhead (s : State) : Bool := !s.bell.splitDone && decide (s.age < s.split ∧ s.split < s.period)

/-- A lies ahead in this bell. -/
def State.applyAhead (s : State) : Bool := !s.bell.applyDone && decide (s.age < s.applyAt ∧ s.applyAt < s.period)

/-- The age of the next cycle, `t` at the latest, in which more happens than counting. -/
def State.nextAge (s : State) (t : Nat) : Nat :=
  let t := min t ((s.rampAge).getD t)
  let t := min t ((s.exhaustAge).getD t)
  let t := if s.splitAhead then min t s.split else t
  if s.applyAhead then min t s.applyAt else t

/-- What happens at the offset C in the cycle that has just begun. -/
def State.offsetActs (s : State) (split apply : Bool) : State :=
  let s := if split && s.bell.c == s.split then s.splitNow else s
  if apply && s.bell.c == s.applyAt then s.closeNow else s

/-- Time goes on, cycle by cycle or over stretches in which only counters move, to the cycle of age `t`. -/
def State.passTo (t : Nat) : Nat → State → State
  | 0, s => s
  | k + 1, s =>
    let s := s.checkAllow.levelSync
    if t ≤ s.age then s
    else
      let n := s.nextAge t
      let skip := n - 1 - s.age
      let split := s.splitAhead
      let apply := s.applyAhead
      let s := ((s.countCycles (s.age + 1) skip).elapse skip).cycleAt n
      passTo t k (s.offsetActs split apply).checkAllow

/-- The steps of passTo within a bell: L's at most 25 steps, exhaustion, SPLIT and A. -/
def passSteps : Nat := 64

/-- The age of the last cycle before a substituted bell (R207). -/
def State.lastAge (s : State) : Nat := s.period - 1 + 1024

/-- Time goes on to the cycle of age `t`, at most to the last before a substituted bell. -/
def State.reach (s : State) (t : Nat) : State :=
  if s.clockOn then s.leak.passTo (min t s.lastAge) passSteps else s

/-- C rises to `c`, at most to PERIOD - 1, with what happens on the way in order. -/
def State.riseTo (s : State) (c : Nat) : State := s.reach (min c (s.period - 1))

/-! ## The bell (R201 to R210) -/

/-- OVERRUN's causes for the tick that ends (R210). -/
def State.overrun (s : State) : Nat :=
  let old (v : DWord) : Bool := stampTick v == s.bell.tick
  let queued := [s.net.lanes[0], s.net.lanes[1]].any fun l => l.txq.any fun m => m.1.cls == 2#2 && old m.1.stamp
  let moving := s.cpu.sb.any fun e => match e.kind with
    | .movt _ _ st drop => !drop && old st
    | _ => false
  let at' := match s.cpu.movtStamp with
    | some st => old st
    | none => false
  bit (queued || moving || (at' && !s.bell.unsync)) 0 + bit ((s.reg (pBELL + 0x100)).getLsbD 31 && s.tileBusy) 1

/-- DEV of a bell of `l` cycles (R206). -/
def bellDev (l p : Nat) : Int := max (-32767) (min 32767 ((l : Int) - p))

/-- A page whose ARM is set copies its staged RWB fields (R53). -/
def State.applyPage (s : State) (page : Nat) : State :=
  if (s.reg (page * 0x1000 + 0xF04)).getLsbD 0 then
    let act (s : State) (c : Nat × Word) : State :=
      match regSpec c.1 with
      | some r => s.setReg c.1 ((s.reg c.1 &&& ~~~r.rwb) ||| (c.2 &&& r.rwb))
      | none => s
    let s := (s.staged.filter fun c => c.1 / 0x1000 == page).foldl act s
    s.setReg (page * 0x1000 + 0xF04) 0#32
  else s

/-- The pages with RWB fields: BELL, TALLY, WEIGH; ARM of any other page is cleared all the same. -/
def State.applyRwb (s : State) : State := (List.range 16).foldl State.applyPage s

/-- The allowance is sampled and E starts anew (R402, R403). -/
def State.sampleAllow (s : State) (allow : BitVec 16) : State :=
  let s := s.setReg (pWEIGH + 0x11C) (w32 (min (2 ^ 32 - 1) (s.pwr.energy / 2 ^ 29)))
  let s : State := { s with pwr := { s.pwr with energy := 0, exhausted := false } }
  if s.sampling then
    ({ s with pwr := { s.pwr with unsampled := false } }).setReg (pWEIGH + 0x114) (allow.setWidth 32)
  else s

/-- Clear at bell, then the bell hook (R228). -/
def State.bellSync (s : State) : State :=
  let clr (n : Nat) : Bool := (s.reg (pSYNC + 0x200 + 4 * n)).getLsbD 13
  let s : State := { s with sync := Vector.ofFn fun i => if clr i.val then 0#32 else s.sync[i] }
  let ctl := s.reg (pBELL + 0x100)
  if s.serving && ctl.getLsbD 23 then s.syncAdd (ctr (fld ctl 17 6)) 1#32 else s

/-- The leak counter counts the bell; at BELLS a leak is due in this cycle (R434). -/
def State.countLeak (s : State) : State :=
  let s := s.leak
  let b := fld (s.reg (pRAS + 0x104)) 0 24
  let n := ((s.reg (pRAS + 0x108)).toNat + 1) % 2 ^ 24
  let s : State := { s with ras := { s.ras with leakDue := b != 0 && decide (b ≤ n) } }
  s.setReg (pRAS + 0x108) (w32 n)

/-- The Tally at a bell: the apply that still runs, a tick load that jumps, arming (R213, R223, R224). -/
def State.bellTally (s : State) (old : BitVec 40) (load : Bool) (arm : DWord) : State :=
  if s.serving then
    let r := s.abandonApply
    let jump := load && s.bell.tick != old + 1
    let q := if jump then r.1.loadDiscard s.bell.tick else (r.1, [])
    let s := q.1.raiseErrs pTALLY (r.2 ++ q.2)
    let s := s.armSlots arm (s.reg64 (pTALLY + 0x10C)) s.bell.tick
    { s with bell := { s.bell with applyDone := jump } }
  else s

/-- The BELL page's events of a bell. -/
def State.bellEvents (s : State) (causes : Nat) (old : BitVec 40) (dev : Int) (missed : Bool) : State :=
  let tol := fld (s.reg (pBELL + 0x100)) 0 10
  let st := s.stamp
  let es := (if causes = 0 then [] else [(⟨0, causes, st, old.setWidth 64⟩ : ErrEvt)])
    ++ (if (tol : Int) < dev then [⟨1, dev.toNat, st, 0#64⟩] else [])
    ++ (if missed then [⟨2, 0, st, 0#64⟩] else [])
    ++ (if dev < -(tol : Int) then [⟨3, (-dev).toNat, st, 0#64⟩] else [])
  s.raiseErrs pBELL es

/-- The tick and C of the new bell (R201), UNSYNC (R207). -/
def State.newTick (s : State) (load : Bool) (tick : BitVec 40) (missed : Bool) : State :=
  { s with bell := { s.bell with
      tick := if load then tick else s.bell.tick + 1, c := 0, ot := 0, splitDone := false, applyDone := false
      unsync := missed || (s.bell.unsync && !load) } }

/-- The end of a bell cycle: SPLIT = 0, the cycle itself. -/
def State.bellEnd (s : State) : State :=
  let s := if s.split == 0 then s.splitNow else s
  (s.levelSync.cycleAt 0).checkAllow

/-- A bell, in the order of R209. -/
def State.bellNow (s : State) (load : Bool) (tick : BitVec 40) (allow : BitVec 16) (missed : Bool) : State :=
  if !s.clockOn then s
  else
    let s := s.checkAllow.levelSync
    let causes := s.overrun
    let old := s.bell.tick
    let dev := bellDev (s.bell.c + 1 + s.bell.ot) s.period
    let arm := s.reg64 (pTALLY + 0x10C)
    let s := (s.newTick load tick missed).countLeak
    let s := s.setReg (pBELL + 0x11C) (setFld (s.reg (pBELL + 0x11C)) 0 16 (dev % 65536).toNat)
    let s := s.bellEvents causes old dev missed
    let s := if missed then s.bump (pBELL + 0x128) else s
    let s := (s.applyRwb.sampleAllow allow).bellTally old load arm
    s.bellSync.bellEnd

/-- A substituted bell: 1,024 overtime cycles have passed without a pulse (R207). -/
def State.substituteNow (s : State) (allow : BitVec 16) : State :=
  if s.clockOn then (s.reach s.lastAge).bellNow false 0 allow true else s

/-- One cycle in which nothing is commanded. -/
def State.idleCycle (s : State) : State :=
  if s.age < s.lastAge then s.reach (s.age + 1) else s.substituteNow ((s.reg (pWEIGH + 0x114)).setWidth 16)

end Sys2Proof.Machine
end

