-- ==== Sys2Proof/Machine/VecAlu.lean ====
section
/-! DEFINITION. Vector results as functions of the views' elements (12_vector_extension.md R290, R294 to R297). -/

namespace Sys2Proof.Machine

/-- A vector view: 128 bits; a D view uses the low 64. -/
abbrev VView := BitVec 128

/-- The element width of a size code (R291). -/
def vWidth (sz : Fin 4) : Nat := 8 * 2 ^ sz.val

/-- The bits of a view: 64, or 128 with WIDE. -/
def viewBits (wide : Bool) : Nat := if wide then 128 else 64

/-- The elements of a view of `bits` bits, in index order, as unsigned numbers (R290). -/
def vElems (bits w : Nat) (v : VView) : List Nat := (List.range (bits / w)).map fun k => v.toNat / 2 ^ (w * k) % 2 ^ w

/-- A view from its elements, element 0 lowest. -/
def vPack (w : Nat) : List Nat → Nat
  | [] => 0
  | x :: xs => x % 2 ^ w + 2 ^ w * vPack w xs

def vOf (w : Nat) (xs : List Nat) : VView := BitVec.ofNat 128 (vPack w xs)

/-- An element read as signed or unsigned. -/
def elInt (w : Nat) (uns : Bool) (n : Nat) : Int := if !uns && decide (2 ^ (w - 1) ≤ n) then (n : Int) - 2 ^ w else n

/-- The low `w` bits of an integer. -/
def elNat (w : Nat) (i : Int) : Nat := (i % 2 ^ w).toNat

/-- All ones of width `w`, or 0: the mask of a comparison. -/
def elMask (w : Nat) (b : Bool) : Nat := if b then 2 ^ w - 1 else 0

/-- sat_X of R295. -/
def elSat (w : Nat) (uns : Bool) (i : Int) : Nat :=
  let lo : Int := if uns then 0 else -(2 ^ (w - 1))
  let hi : Int := if uns then 2 ^ w - 1 else 2 ^ (w - 1) - 1
  elNat w (max lo (min hi i))

/-- An element operation of two sources over a view. -/
def vMap2 (bits w : Nat) (f : Nat → Nat → Nat) (a b : VView) : VView :=
  vOf w ((vElems bits w a).zipWith f (vElems bits w b))

/-- An element operation of one source over a view. -/
def vMap1 (bits w : Nat) (f : Nat → Nat) (a : VView) : VView := vOf w ((vElems bits w a).map f)

/-! ## Escape 0xD4 (R294) -/

def elAdd (w : Nat) (a b : Nat) : Nat := elNat w ((a : Int) + b)
def elSub (w : Nat) (a b : Nat) : Nat := elNat w ((a : Int) - b)
def elMul (w : Nat) (a b : Nat) : Nat := elNat w ((a : Int) * b)
def elMin (w : Nat) (x : Bool) (a b : Nat) : Nat := if elInt w x b < elInt w x a then b else a
def elMax (w : Nat) (x : Bool) (a b : Nat) : Nat := if elInt w x a < elInt w x b then b else a
def elShl (w : Nat) (a s : Nat) : Nat := a * 2 ^ s % 2 ^ w
def elShr (w : Nat) (arith : Bool) (a s : Nat) : Nat := elNat w (elInt w (!arith) a / 2 ^ s)

/-! ## Escape 0xD5 (R295) -/

/-- The fraction product of VMULFX; `rnd` adds a half of the last place before the floor. -/
def elMulFx (w : Nat) (rnd : Bool) (a b : Nat) : Nat :=
  let p := 2 * elInt w false a * elInt w false b
  elSat w false ((if rnd then p + 2 ^ (w - 1) else p) / 2 ^ w)

/-- The rounding shift of VSHRR and VNARRS: exact halves move toward +infinity. -/
def shiftRound (v : Int) (s : Nat) : Int := (v + 2 ^ (s - 1)) / 2 ^ s

/-! ## Floating point (R296, R297) -/

/-- The precision of a floating-point size: 0b11 is binary64. -/
def vPrec (sz : Fin 4) : Prec := if sz.val = 3 then .double else .single

/-- Results of the elements with the OR of their exceptions. -/
def vCollect (w : Nat) (rs : List (Nat × Sticky)) : VView × Sticky :=
  (vOf w (rs.map Prod.fst), rs.foldl (fun f r => f ||| r.2) 0)

/-- An element-wise floating-point operation of two sources. -/
def vfMap2 (bits : Nat) (sz : Fin 4) (f : BitVec 64 → BitVec 64 → BitVec 64 × Sticky) (a b : VView) : VView × Sticky :=
  let w := vWidth sz
  vCollect w ((vElems bits w a).zipWith (fun x y => let r := f (BitVec.ofNat 64 x) (BitVec.ofNat 64 y); (r.1.toNat, r.2))
    (vElems bits w b))

/-- An element-wise operation of one source with result width `w'`. -/
def vfMap1 (bits w w' : Nat) (f : Nat → Nat × Sticky) (a : VView) : VView × Sticky :=
  vCollect w' ((vElems bits w a).map f)

/-- A comparison element: the mask, and INV on a NaN operand when `sig`. -/
def vfCmp (w : Nat) (p : Prec) (sig : Bool) (test : Ordering → Bool) (a b : Nat) : Nat × Sticky :=
  let x := fpRead p (BitVec.ofNat 64 a)
  let y := fpRead p (BitVec.ofNat 64 b)
  if x.isNan || y.isNan then (0, if sig then stINV else 0) else (elMask w (test (x.cmp y)), 0)

/-- An element conversion with the outcomes of R82: a NaN source sets no flag, and INV comes with INX, since the result is not its
source (R297). -/
def cvtElem {w : Nat} (conv : FVal → BitVec w × RFlags) (v : FVal) : Nat × Sticky :=
  let r := conv v
  (r.1.toNat, r.2.toSticky ||| (if r.2.inv then stINX else 0))

end Sys2Proof.Machine
end

