-- ==== Sys2Proof/Machine/Xlat.lean ====
section
/-! DEFINITION. Translation: tree replacement, the translation stores, walks, permissions, invalidation, and the classification
of physical addresses (14_translation.md R322 to R339, 16_fabric_and_pitch_map.md R368, R369, R308, R412). -/

namespace Sys2Proof.Machine

/-! ## Tree pseudo-LRU (R308) -/

/-- The tree bits after way `w` is used, over the `d` levels below node `n`: every node on the path points away from `w`. -/
def treeTouch (w : Nat) : Nat → Nat → Word → Word
  | 0, _, t => t
  | d + 1, n, t =>
    let b := w.testBit d
    let t := setFld t n 1 (if b then 0 else 1)
    treeTouch w d (2 * n + (if b then 1 else 0)) t

/-- A way of the half-range of `2 ^ d` ways from `lo` is eligible. -/
def anyEligible (ok : Nat → Bool) (lo d : Nat) : Bool := (List.range (2 ^ d)).any fun k => ok (lo + k)

/-- The walk to the victim from node `n`, which covers `2 ^ d` ways from `lo`. -/
def treeWalk (t : Word) (ok : Nat → Bool) : Nat → Nat → Nat → Nat
  | 0, lo, _ => lo
  | d + 1, lo, n =>
    let up := t.getLsbD n
    let hi := lo + 2 ^ d
    let goUp := if up then anyEligible ok hi d else !anyEligible ok lo d
    if goUp then treeWalk t ok d hi (2 * n + 1) else treeWalk t ok d lo (2 * n)

/-- The victim among `ways` ways: the lowest eligible Invalid way, else the way that the tree points to. -/
def treeVictim (ways : Nat) (t : Word) (ok valid : Nat → Bool) : Option Nat :=
  match (List.range ways).find? fun w => ok w && !valid w with
  | some w => some w
  | none => if (List.range ways).any ok then some (treeWalk t ok (Nat.log2 ways) 0 1) else none

/-! ## Physical addresses (R38, R328, R329, R368, R369, R412) -/

/-- What a request on the fabric addresses: a register of a core by its logical ID, a register by a physical position,
memory of a core. -/
inductive Dest where
  | reg (dst : Word) (off : Nat)
  | phys (pdie : BitVec 7) (ppitch : BitVec 11) (off : Nat)
  | mem (dst : Word) (addr : Nat)
deriving DecidableEq, Repr

/-- Aperture `n` contains a physical address, and where it sends it (R369). -/
def State.aperture (s : State) (n pa : Nat) : Option (Option Dest) :=
  let base := (s.reg64 (pFAB + 0x200 + 16 * n)).toNat
  let cfg := (s.reg64 (pFAB + 0x208 + 16 * n)).toNat
  let spx := !cfg.testBit 62
  let size := if spx then 41 else cfg / 2 ^ 56 % 64
  let b := base / 2 ^ size * 2 ^ size
  if cfg.testBit 63 && decide (b ≤ pa ∧ pa < b + 2 ^ size) then
    if spx then some (some (.mem (w32 (cfg / 2 ^ 18 % 2 ^ 14 * 2 ^ 18 + pa / 2 ^ 23 % 2 ^ 18)) (pa % 2 ^ 23)))
    else
      let k := (pa - b) / 2 ^ (cfg / 2 ^ 48 % 64)
      let dst := cfg % 2 ^ 32 + k % (cfg / 2 ^ 40 % 32 + 1) * 2 ^ 11
      some (if dst < 2 ^ 32 then some (.mem (w32 dst) pa) else none)
  else none

/-- Where the network interface sends an access, by rows 3 to 6 of R368's table; none: NO_ROUTE. -/
def State.dest (s : State) (pa : Nat) : Option Dest :=
  if pa / 2 ^ 48 = 0xFE then some (.reg (w32 (pa / 2 ^ 16)) (pa % 2 ^ 16))
  else if pa / 2 ^ 34 = 0xFD000000000000 / 2 ^ 34 then
    some (.phys (BitVec.ofNat 7 (pa / 2 ^ 27)) (BitVec.ofNat 11 (pa / 2 ^ 16)) (pa % 2 ^ 16))
  else ((List.range 8).findSome? fun n => s.aperture n pa).getD none

def inLocalRegs (pa : Nat) : Bool := decide (0xFFFFFFFFFF0000 ≤ pa ∧ pa < 2 ^ 56)
/-- The register windows: local, remote, physical (R38, R39, R368). -/
def inRegWindow (pa : Nat) : Bool :=
  inLocalRegs pa || pa / 2 ^ 48 == 0xFE || pa / 2 ^ 34 == 0xFD000000000000 / 2 ^ 34
/-- The boot window of a porter (R412). -/
def State.inBoot (s : State) (pa : Nat) : Bool := s.porter && pa / 2 ^ 16 == 0xFC000000000000 / 2 ^ 16

/-- What a physical address reaches. -/
def State.physTarget (s : State) (pa : Nat) : Target :=
  if s.inBoot pa then .boot (pa % 2 ^ 16)
  else match s.spxOffset pa with
    | some o => .spx o []
    | none => if inLocalRegs pa then .regs (pa % 2 ^ 16) else .phys pa

/-- The strictest type of the region windows that contain an address (R329). -/
def State.ratType (s : State) (pa : Nat) : Nat :=
  (List.range 16).foldl (fun a n =>
    let base := (s.reg64 (pXLAT + 0x200 + 16 * n)).toNat
    let last := (s.reg64 (pXLAT + 0x208 + 16 * n)).toNat
    if base.testBit 0 && decide (base / 4096 ≤ pa / 4096 ∧ pa / 4096 ≤ last / 4096) then max a (last % 8) else a) 0

/-- The effective type of an access to an address with a page type (R328, R412). -/
def State.effType (s : State) (pa mt : Nat) : Nat :=
  if inRegWindow pa then 3 else max (max mt (s.ratType pa)) (if s.inBoot pa then 1 else 0)

/-! ## The translation stores (R334, R335, R337; R436 for a retired store) -/

/-- An entry matches an address under a TID. -/
def TlbEntry.hits (e : TlbEntry) (va : Nat) (tid : BitVec 16) : Bool :=
  va % 2 ^ 57 / 2 ^ e.size == e.va.toNat % 2 ^ 57 / 2 ^ e.size && (e.g || e.tid == tid)

def State.setXlat (s : State) (x : Xlat) : State := { s with xlat := x }

/-- Puts an entry into a fully associative store of `n` entries. -/
def State.putFull (s : State) (n : Nat) (m : List TlbEntry) (e : TlbEntry) : State × List TlbEntry :=
  if m.length < n then (s, m ++ [{ e with bad := false }])
  else
    let k := Config.replaced s.fresh % n
    ({ s with fresh := s.fresh + 1 }, m.eraseIdx k ++ [{ e with bad := false }])

/-- Copies an entry into the L1 TLB of an access kind. -/
def State.fillL1 (s : State) (kind : Nat) (e : TlbEntry) : State :=
  if s.retired (if kind = 2 then 0x10 else 0x11) then s
  else if kind = 2 then
    let r := s.putFull 16 s.xlat.itlb e
    r.1.setXlat { r.1.xlat with itlb := r.2 }
  else
    let r := s.putFull 32 s.xlat.dtlb e
    r.1.setXlat { r.1.xlat with dtlb := r.2 }

/-- The set of the L2 TLB that an address has for a page size. -/
def l2Set (va size : Nat) : Nat := va / 2 ^ size % 256

def State.touchL2 (s : State) (i : Nat) : State :=
  let set := i / 4
  s.setXlat { s.xlat with l2tree := s.xlat.l2tree.set set (treeTouch (i % 4) 2 1 (s.xlat.l2tree.get set)) }

/-- Installs an entry in the L2 or the overflow TLB, as its SIZE decides. -/
def State.fillL2 (s : State) (e : TlbEntry) : State :=
  if (e.size = 12 ∨ e.size = 16 ∨ e.size = 21 ∨ e.size = 30) ∧ !s.retired 0x12 then
    let set := l2Set e.va.toNat e.size
    let used (w : Nat) : Bool := s.xlat.l2.any fun x => x.1 == 4 * set + w
    let w := (treeVictim 4 (s.xlat.l2tree.get set) (fun _ => true) used).getD 0
    let i := 4 * set + w
    (s.setXlat { s.xlat with l2 := (i, e) :: s.xlat.l2.filter fun x => x.1 != i }).touchL2 i
  else if s.retired 0x13 then s
  else
    let r := s.putFull 64 s.xlat.ovf e
    r.1.setXlat { r.1.xlat with ovf := r.2 }

/-- The L2 entry that matches: it stands in the set that its SIZE gives the address. -/
def State.findL2 (s : State) (va : Nat) (tid : BitVec 16) : Option (Nat × TlbEntry) :=
  s.xlat.l2.find? fun x => x.2.hits va tid && x.1 / 4 == l2Set va x.2.size

/-- The lookup of the L2 and overflow TLBs after an L1 miss; `bad`: the entry hit fails its parity check, as does one that a bit
error has struck (R337). -/
def State.lookupL2 (s : State) (va : Nat) (tid : BitVec 16) (kind : Nat) (bad : Bool) : State × Option TlbEntry :=
  match if s.retired 0x12 then none else s.findL2 va tid with
  | some (i, e) =>
    if bad || e.bad then
      ((s.setXlat { s.xlat with l2 := s.xlat.l2.filter fun x => x.1 != i }).rasCount 0x12 .transient 0 0#64, none)
    else ((s.touchL2 i).fillL1 kind e, some e)
  | none =>
    match (if s.retired 0x13 then [] else s.xlat.ovf).find? fun e => e.hits va tid with
    | some e =>
      if bad || e.bad then
        ((s.setXlat { s.xlat with ovf := s.xlat.ovf.filter fun x => x != e }).rasCount 0x13 .transient 0 0#64, none)
      else (s.fillL1 kind e, some e)
    | none => (s, none)

/-- The lookup of an address by an access kind (R335); what a walk has found for the instruction at TR serves it before. -/
def State.lookup (s : State) (va : Nat) (kind : Nat) (bad : Bool) : State × Option TlbEntry :=
  let tid := s.cpu.tid
  match s.xlat.served.find? fun x => x.1 == (kind == 2) && x.2.hits va tid with
  | some x => (s, some x.2)
  | none =>
    let l1 := if s.retired (if kind = 2 then 0x10 else 0x11) then [] else if kind = 2 then s.xlat.itlb else s.xlat.dtlb
    let missed (s : State) : State := s.bump (if kind = 2 then pXLAT + 0x120 else pXLAT + 0x124)
    match l1.find? fun e => e.hits va tid with
    | some e =>
      if bad || e.bad then
        let x := if kind = 2 then { s.xlat with itlb := l1.filter fun y => y != e }
          else { s.xlat with dtlb := l1.filter fun y => y != e }
        ((missed ((s.setXlat x).rasCount (if kind = 2 then 0x10 else 0x11) .transient 0 0#64)).lookupL2 va tid kind false)
      else (s, some e)
    | none => (missed s).lookupL2 va tid kind bad

/-! ## Translating one address (R322, R323, R330, R331) -/

/-- The DETAIL of a TRANSLATION fault. -/
def xlatDetail (sub lvl kind : Nat) : Word := w32 (sub + lvl * 256 + kind * 4096)

/-- The permission check of a translated access against its leaf (R330): the subcause that applies. -/
def State.leafCheck (s : State) (e : TlbEntry) (kind : Nat) : Option Nat :=
  let perm : Option Nat :=
    match kind with
    | 0 => if e.r then none else some 5
    | 1 => if e.w then none else some 6
    | _ => if e.x then none else some 7
  let ctl := s.reg (pXLAT + 0x100)
  if s.pl = 0 then (if e.u then perm else some 8)
  else if e.u then
    if kind = 2 then (if ctl.getLsbD 1 then some 9 else perm)
    else if ctl.getLsbD 2 && !flagUA s.cpu.flags then some 0xA
    else perm
  else perm

/-- What translating an address gives: a physical address with its page type and page size; a fault, with the same where a leaf was
found; or a walk that has to end first. -/
inductive TRes where
  | pa (pa mt page : Nat)
  | fault (detail : Word) (leaf : Option (Nat × Nat))
  | wait
deriving DecidableEq, Repr

/-- Bits [63:57] equal bit 56. -/
def canonical (va : DWord) : Bool := va.extractLsb' 56 8 == 0#8 || va.extractLsb' 56 8 == 0xFF#8

def State.untranslated (s : State) : Bool := s.pl == 2 || !(s.reg (pXLAT + 0x100)).getLsbD 0

/-- A walk begins; its access waits for PAGE_WALK_DONE. -/
def State.startWalk (s : State) (va : DWord) (kind : Nat) : State :=
  (s.setXlat { s.xlat with walk := some ⟨s.xlat.nextWalk, va, s.cpu.tid, kind, false, none, none, none⟩,
                           nextWalk := s.xlat.nextWalk + 1 }).bump (pXLAT + 0x128)

/-- The space of the current TID lies outside the address-space table (R324). -/
def State.noSpace (s : State) : Bool := s.cpu.tid == 0#16 || decide ((s.reg (pXLAT + 0x10C)).toNat ≤ s.cpu.tid.toNat)

/-- The translation of one address for an access kind: 0 load, 1 store, 2 fetch (R322 to R324, R331). -/
def State.translate (s : State) (va : DWord) (kind : Nat) (bad : Bool) : State × TRes :=
  if s.untranslated then
    if va.extractLsb' 56 8 = 0#8 then (s, .pa va.toNat 0 64) else (s, .fault (xlatDetail 1 7 kind) none)
  else if !canonical va then (s, .fault (xlatDetail 1 7 kind) none)
  else if s.noSpace then (s, .fault (xlatDetail 2 5 kind) none)
  else
    match s.xlat.failed.find? fun f => f.va == va && f.kind == kind with
    | some f => (s, .fault f.detail none)
    | none =>
      let r := s.lookup va.toNat kind bad
      match r.2 with
      | none => (r.1.startWalk va kind, .wait)
      | some e =>
        let pa := e.pa.toNat / 2 ^ e.size * 2 ^ e.size + va.toNat % 2 ^ e.size
        match r.1.leafCheck e kind with
        | some c => (r.1, .fault (xlatDetail c e.level kind) (some (pa, e.mt)))
        | none => (r.1, .pa pa e.mt e.size)

/-! ## Walks (R324 to R327, R332, R333) -/

/-- WALK_ABORT at a level with its event. -/
def State.walkAbort (s : State) (pa lvl : Nat) : State :=
  s.raiseErr pXLAT ⟨0, lvl * 256 + 0x0C, s.stamp, w64 pa⟩

/-- A page-table entry as the fields of R325. -/
def ptePa (v : DWord) : Nat := v.toNat / 4096 % 2 ^ 44 * 4096
def pteSize (v : DWord) : Nat := v.toNat / 2 ^ 56 % 64
def pteMt (v : DWord) : Nat := v.toNat / 128 % 8

/-- R327 at level `k`. -/
def pteReserved (v : DWord) (k : Nat) : Bool :=
  let size := pteSize v
  let common := v.getLsbD 63 || v.getLsbD 62 || v.getLsbD 11 || v.getLsbD 10 || decide (4 ≤ pteMt v)
    || (v.getLsbD 3 && !v.getLsbD 2)
  if v.getLsbD 1 then
    common || decide (k = 4 ∨ size < 12 + 9 * k ∨ 20 + 9 * k < size ∨ 46 < size) || ptePa v % 2 ^ size != 0
  else
    common || size != 0 || v.toNat / 4 % 256 != 0 || k == 0

/-- The entry that a leaf at level `k` gives. -/
def leafEntry (v va : DWord) (tid : BitVec 16) (k : Nat) : TlbEntry :=
  { va := w64 (va.toNat % 2 ^ 57 / 4096 * 4096), size := pteSize v, level := k, tid := tid, g := v.getLsbD 6, u := v.getLsbD 5,
    x := v.getLsbD 4, w := v.getLsbD 3, r := v.getLsbD 2, mt := pteMt v, pa := w64 (ptePa v), bad := false }

/-! ## DET slips (R255) -/

/-- Cycles are lost in DET mode. -/
def State.slip (s : State) : State :=
  if s.detOn then
    let n := Config.slipCycles s.fresh
    let s : State := { s with fresh := s.fresh + 1 }
    if n = 0 then s else (s.addReg (pCORE + 0x12C) n).raise pCORE 1
  else s

/-! ## Invalidation (R339) -/

/-- A removal: its scope and operands. -/
structure Inval where
  scope : Nat
  tid : BitVec 16
  va : Nat
  len : Nat
deriving DecidableEq, Repr

/-- The page of an entry overlaps the range, which ends at 2^57. -/
def Inval.overlaps (i : Inval) (lo size : Nat) : Bool :=
  let base := lo % 2 ^ 57 / 2 ^ size * 2 ^ size
  let start := i.va % 2 ^ 57
  i.len != 0 && decide (base < min (2 ^ 57) (start + i.len) ∧ start < base + 2 ^ size)

/-- The removal takes an entry. -/
def Inval.covers (i : Inval) (e : TlbEntry) : Bool :=
  match i.scope with
  | 0 => true
  | 1 => !e.g && e.tid == i.tid
  | 2 => i.overlaps e.va.toNat e.size
  | _ => !e.g && e.tid == i.tid && i.overlaps e.va.toNat e.size

/-- The removal covers an address under a TID. -/
def Inval.coversVa (i : Inval) (va : DWord) (tid : BitVec 16) : Bool :=
  match i.scope with
  | 0 => true
  | 1 => tid == i.tid
  | 2 => i.overlaps va.toNat 0
  | _ => tid == i.tid && i.overlaps va.toNat 0

/-- The stored entries and the root latch that a removal takes go. -/
def State.invalidate (s : State) (i : Inval) : State :=
  let x := s.xlat
  let keep (m : List TlbEntry) : List TlbEntry := m.filter fun e => !i.covers e
  let latch := match i.scope with
    | 0 => none
    | 1 => x.root.filter fun r => r.1 != i.tid
    | _ => x.root
  s.setXlat { x with
    itlb := keep x.itlb, dtlb := keep x.dtlb, ovf := keep x.ovf, l2 := x.l2.filter fun e => !i.covers e.2, root := latch
    served := x.served.filter fun e => !i.covers e.2
    failed := x.failed.filter fun f => !i.coversVa f.va s.cpu.tid
    walk := x.walk.map fun w => if i.coversVa w.va w.tid then { w with killed := true } else w }

/-! ## One access (R39, R40, R283, R284, R288, R306, R356, R413) -/

/-- An access to make at TR: address, bytes, kind, sub-port, whether it is an STD, a failed parity check of the translation
entry that it hits, whether it is a unit of a string or move instruction and, if so, one whose addresses or length are no multiples
of 8 (R277), and whether it is an element of a gather or scatter, whose address its faults report (R301). -/
structure Acc where
  va : DWord
  len : Nat
  kind : Nat
  sub : SubPort
  std : Bool
  bad : Bool
  unit : Bool
  misfit : Bool
  elem : Bool
deriving DecidableEq, Repr

/-- What the checks at TR give. -/
inductive XOut where
  | parts (ps : List Part)
  | fault (cause : Nat) (detail : Word) (xaddr : DWord)
  | wait
deriving DecidableEq, Repr

/-- The party of the core's own accesses. -/
def State.corePart (s : State) : Party := .core s.pl [s.cpu.tid]

def alignDetail (a : Acc) (device : Bool) : Word :=
  w32 ((if a.unit then 3 else Nat.log2 a.len) + (if device then 16 else 0))

/-- The access may stand where it does (R39, R277, R283, R284, R413): `pa` is the address of its first byte in this part; `split`:
it crosses a 64-byte boundary. -/
def State.alignOk (s : State) (a : Acc) (pa ty : Nat) (split : Bool) : Bool :=
  let device := if a.unit then !a.misfit else !split && pa % a.len == 0
  if inRegWindow pa && !s.inBoot pa && (s.spxOffset pa).isNone then !a.unit && !split && a.len == 4 && pa % 4 == 0
  else if s.inBoot pa then
    (if a.kind = 1 then a.std && pa % 8 == 0 else decide (a.len ≤ 8 ∧ pa / 8 = (pa + a.len - 1) / 8)) && (decide (ty < 2) || device)
  else decide (ty < 2) || device

/-- What a physical address that an access reached refuses whatever its page says: the local register window below M, then a place
where the access may not stand (R40, R283, R288). -/
def State.placeFault (s : State) (a : Acc) (pa mt : Nat) (split : Bool) (xaddr : DWord) : Option XOut :=
  let ty := s.effType pa mt
  let own := match s.physTarget pa with
    | .regs _ => true
    | _ => false
  if own && s.pl != 2 then some (.fault cPRIV 0#32 xaddr)
  else if !s.alignOk a pa ty split then some (.fault cALIGN (alignDetail a (decide (2 ≤ ty))) xaddr)
  else none

/-- The part of a checked access at a physical address, or the WINDOW fault of the scratchpad (R306, R349). -/
def State.partAt (s : State) (a : Acc) (va : DWord) (len pa mt page : Nat) : XOut :=
  let ty := s.effType pa mt
  let dev := decide (2 ≤ ty)
  match s.physTarget pa with
  | .spx off _ =>
    match s.rangeCheck ⟨s.corePart, a.sub, a.kind⟩ off len with
    | some (o, c) => .fault cWINDOW (s.windowDetail o c a.kind) (if a.elem then a.va else va + w64 (o - off))
    | none => .parts [⟨.spx off (s.classes off len), len, false, dev, ty == 3, page⟩]
  | .phys p => .parts [⟨.phys p, len, ty == 0 && s.cacheOn (a.kind == 2), dev, ty == 3, page⟩]
  | t => .parts [⟨t, len, false, dev, ty == 3, page⟩]

/-- One half of an access: translated and checked; answers its part. -/
def State.accHalf (s : State) (a : Acc) (va : DWord) (len : Nat) (split : Bool) : State × XOut :=
  let t := s.translate va a.kind a.bad
  let x := if a.elem then a.va else va
  match t.2 with
  | .wait => (t.1, .wait)
  | .fault d leaf =>
    (t.1, (leaf.bind fun l => t.1.placeFault a l.1 l.2 split x).getD (.fault cTRANSLATION d x))
  | .pa pa mt page => (t.1, (t.1.placeFault a pa mt split x).getD (t.1.partAt a va len pa mt page))

/-- The checks of an address that an instruction names without accessing it: a maintenance form or a preload, as a load, a store or a
fetch (R288, R313, R315). Answers its physical address and page type. -/
def State.checkAt (s : State) (va : DWord) (kind : Nat) : State × Sum XOut (Nat × Nat) :=
  let t := s.translate va kind false
  let own (pa : Nat) : Bool := match t.1.physTarget pa with
    | .regs _ => t.1.pl != 2
    | _ => false
  match t.2 with
  | .wait => (t.1, .inl .wait)
  | .fault d leaf => (t.1, .inl (if leaf.any fun l => own l.1 then .fault cPRIV 0#32 va else .fault cTRANSLATION d va))
  | .pa pa mt page =>
    if own pa then (t.1, .inl (.fault cPRIV 0#32 va))
    else match t.1.partAt ⟨va, 1, kind, .v, false, false, false, false, false⟩ va 1 pa mt page with
      | .fault c d x => (t.1, .inl (.fault c d x))
      | _ => (t.1, .inr (pa, mt))

/-- An access, split at a 64-byte boundary; the lower half's faults come first (R284). -/
def State.access (s : State) (a : Acc) : State × XOut :=
  let n := min a.len (64 - a.va.toNat % 64)
  let split := decide (n < a.len)
  let lo := s.accHalf a a.va n split
  if split then
    match lo.2 with
    | .parts ps =>
      let hi := lo.1.accHalf a (a.va + w64 n) (a.len - n) split
      match hi.2 with
      | .parts qs => (hi.1, .parts (ps ++ qs))
      | r => (hi.1, r)
    | _ => lo
  else lo

end Sys2Proof.Machine
end

