-- ==== Sys2Proof/Machine/Operands.lean ====
section
/-! DEFINITION. Every operand form: integer second sources, addresses, vector views, what a finished load writes
(11_instruction_set.md R258, R259, R265 to R268, 12_vector_extension.md R289, R290, R299). -/

namespace Sys2Proof.Machine

/-! ## Integer sources (R265, R266) -/

/-- The value of an integer operation's second source. -/
def State.intSrc (s : State) : IntSrc → DWord
  | .reg b => s.g b
  | .imm8 i => i.signExtend 64
  | .imm32 i => i.signExtend 64

/-- The registers that the second source names. -/
def srcRegs : IntSrc → List (Fin 32)
  | .reg b => [b]
  | _ => []

/-- Bytes of an integer instruction by the form of its second source. -/
def srcLen : IntSrc → Nat
  | .reg _ => 3
  | .imm8 _ => 4
  | .imm32 _ => 7

/-! ## Addresses (R267, R298) -/

def dispVal : Disp → DWord
  | .d16 i => i.signExtend 64
  | .d32 i => i.signExtend 64

/-- Bytes of a load or store: the displacement's form and the NT prefix. -/
def dispLen : Disp → Nat
  | .d16 _ => 5
  | .d32 _ => 7

def memLen (o : MemArgs) : Nat := dispLen o.disp + (if o.nt then 1 else 0)

/-- G[B] + G[A] * m + displacement, m the access size where X is 1. -/
def State.memAddr (s : State) (o : MemArgs) (size : Nat) : DWord :=
  s.g o.b + s.g o.a * w64 (if o.x then size else 1) + dispVal o.disp

/-- The address of VLD and VST. -/
def State.vmemAddr (s : State) (o : VMemArgs) (size : Nat) : DWord :=
  s.g o.b + s.g o.a * w64 (if o.x then size else 1) + o.disp.signExtend 64

/-- The target of a relative branch: IP plus the displacement (R268). -/
def branchVal : BranchDisp → DWord
  | .d16 i => i.signExtend 64
  | .d32 i => i.signExtend 64

def branchLen : BranchDisp → Nat
  | .d16 _ => 3
  | .d32 _ => 5

/-! ## Vector views (R289, R290) -/

def qLow (n : Fin 32) : Fin 32 := Fin.ofNat 32 (2 * n.val)
def qHigh (n : Fin 32) : Fin 32 := Fin.ofNat 32 (2 * n.val + 1)

/-- The bits of a view: Dn, zero-extended, or Qn. -/
def State.view (s : State) (wide : Bool) (n : Fin 32) : VView :=
  if wide then s.f (qHigh n) ++ s.f (qLow n) else (s.f n).setWidth 128

/-- A write through a view changes the F registers that it covers. -/
def State.setView (s : State) (wide : Bool) (n : Fin 32) (v : VView) : State :=
  if wide then (s.setF (qLow n) (v.setWidth 64)).setF (qHigh n) (v.extractLsb' 64 64) else s.setF n (v.setWidth 64)

/-- The F registers of a view, as numbers of the register file. -/
def viewList (wide : Bool) (n : Fin 32) : List (Fin 32) := if wide then [qLow n, qHigh n] else [n]

/-- A view with element `k` of width `w` replaced. -/
def setElem (w k : Nat) (v : VView) (x : Nat) : VView :=
  let m := BitVec.ofNat 128 ((2 ^ w - 1) * 2 ^ (w * k))
  (v &&& ~~~m) ||| BitVec.ofNat 128 (x % 2 ^ w * 2 ^ (w * k))

/-- A field that names a view: with WIDE it must be 0 to 15 (R291). -/
def viewOk (wide : Bool) (n : Fin 32) : Bool := !wide || decide (n.val < 16)

/-! ## CRC control (R282) -/

/-- The user parameters of CORE_CRCCFG and CORE_CRCPOLY. -/
def State.userCrc (s : State) : CrcParam :=
  let cfg := s.reg (pCORE + 0x184)
  ⟨8 * 2 ^ fld cfg 0 2, s.reg (pCORE + 0x180), cfg.getLsbD 2⟩

/-- A CRC step with a selector. -/
def State.crc (s : State) (sel : Nat) (state : DWord) (bs : List Byte) : DWord := crcStep (crcParam sel s.userCrc) state bs

/-! ## What a finished load writes (R233, R259, R267) -/

/-- The little-endian value of a load's bytes, extended. -/
def loadVal (bs : List Byte) (sgn : Bool) : DWord :=
  let n := leNat bs
  let w := 8 * bs.length
  if sgn && decide (2 ^ (w - 1) ≤ n) then w64 (n + 2 ^ 64 - 2 ^ w) else w64 n

/-- Writes a load's destination; a bad load writes 0. -/
def State.writeDest (s : State) (d : LoadDest) (bs : List Byte) (bad : Bool) : State :=
  let v := if bad then 0 else leNat bs
  match d with
  | .g n sgn => s.setG n (if bad then 0#64 else loadVal bs sgn)
  | .f n => s.setF n (w64 v)
  | .v wide n => s.setView wide n (BitVec.ofNat 128 v)
  | .el wide n w k => s.setView wide n (setElem w k (s.view wide n) v)
  | .crc n sel => s.setG n (if bad then 0#64 else s.crc sel (s.g n) bs)

end Sys2Proof.Machine
end

