-- ==== Sys2Proof/Machine/Serve.lean ====
section
/-! DEFINITION. Requests served by this core, whether they come from the fabric or loop back, and requests that it sends
(16_fabric_and_pitch_map.md R368 to R370, R378, R388, R389, R396; R39 to R44, R230, R355, R356, R439). -/

namespace Sys2Proof.Machine

/-! ## Serving -/

/-- A request as served: opcode 1 RD, 2 WR, 3 REGRD, 4 REGWR, 5 SADD. -/
structure Req where
  opc : Nat
  src : Word
  tid : BitVec 16
  phys : Bool
  len : Nat
  addr : Nat
  data : List Byte
  stamp : DWord
  msg : Option InMsg
deriving DecidableEq, Repr

/-- How a request is answered: at once, not yet, or later by the write that it left waiting (R43, R117, R118). -/
inductive Ans where
  | data (bs : List Byte)
  | ack
  | err (code : Nat)
  | hold
  | later
deriving DecidableEq, Repr

/-- The core's state refuses a request: TARGET_RESET, or HOLE when fenced (R44, R396, R398, R439). -/
def State.stateRefuses (s : State) (r : Req) : Option Nat :=
  let isReg := r.opc == 3 || r.opc == 4
  let page := r.addr % 2 ^ 16 / 4096
  if s.ras.fence.isSome then
    if isReg && r.phys && r.tid == 0#16 && heldPage page then
      (if s.pageServed page then none else some eTARGET_RESET)
    else some eHOLE
  else if isReg then (if s.pageServed page then none else some eTARGET_RESET)
  else if s.rst.phase == .run || s.rst.phase == .bootfail then none
  else some eTARGET_RESET

/-- The events and counters of a fabric access that the port refuses (R356). -/
def State.denyFabric (s : State) (src : Word) (stamp : DWord) (off sub : Nat) : State :=
  let addr := w64 (src.toNat * 2 ^ 32 + off % 2 ^ 23)
  if sub = 2 then (s.raiseErr pSPX ⟨3, off / s.build.groupBytes, stamp, addr⟩).bump (pSPX + 0x124)
  else (s.raiseErr pSPX ⟨2, s.denyCode off sub, stamp, addr⟩).bump (pSPX + 0x12C)

/-- RD and WR (R389). -/
def State.serveMem (s : State) (r : Req) : State × Ans :=
  match s.rangeCheck ⟨.fabric r.tid, .d, if r.opc = 2 then 1 else 0⟩ r.addr r.len with
  | some (off, sub) => (s.denyFabric r.src r.stamp off sub, .err (fabricCode sub))
  | none =>
    if r.opc = 2 then (s.spxWrite r.addr r.data, .ack)
    else
      let q := s.spxRead 3 [] r.addr r.len
      (q.1, if q.2.2.isEmpty then .data q.2.1 else .err eDATA_ERROR)

/-- REGRD and REGWR (R39, R41, R43). -/
def State.serveReg (s : State) (r : Req) : State × Ans :=
  let key := r.addr % 2 ^ 16
  if r.len ≠ 4 ∨ key % 4 ≠ 0 then (s, .err eBAD_ACCESS)
  else if r.tid ≠ 0 then (s, .err eACCESS_DENIED)
  else if r.opc = 3 then
    let q := s.readReg .remote key
    (q.1, .data (leBytes q.2.toNat 4))
  else
    let v := w32 (leNat r.data)
    if s.writeWaits .remote key v then (s, .hold)
    else
      let later := ((key == 0x4118 || key == 0x411C) && s.tileBusy) || (lateKey key v && !s.tile.queue.isEmpty)
      if later && r.msg.isNone then (s, .hold)
      else (s.writeReg .remote key v r.msg, if later then .later else .ack)

/-- SADD (R230). -/
def State.serveSadd (s : State) (r : Req) : State × Ans :=
  let n := r.addr % 64
  let cfg := s.reg (pSYNC + 0x200 + 4 * n)
  if cfg.getLsbD 14 && (cfg.getLsbD 15 || fld cfg 16 16 == r.tid.toNat) then
    (s.syncAdd (ctr n) (w32 (leNat r.data)), .ack)
  else (s.raiseErr pSYNC ⟨0, n, r.stamp, r.src.setWidth 64⟩, .err eACCESS_DENIED)

/-- An accepted request is served (R389). -/
def State.serveReq (s : State) (r : Req) : State × Ans :=
  match s.stateRefuses r with
  | some c => (s, .err c)
  | none =>
    match r.opc with
    | 1 => s.serveMem r
    | 2 => s.serveMem r
    | 5 => s.serveSadd r
    | _ => s.serveReg r

/-- A response to a message: RDATA 1, ACK 2, ERR 3 (R371). -/
def rspBody (s : State) (opc : Nat) (m : InMsg) (addr : Nat) (data : List Byte) : Body :=
  ⟨1, BitVec.ofNat 6 opc, data.length, m.tid, s.stamp, BitVec.ofNat 56 addr, m.tag, data⟩

/-! ## Sending (R368 to R370, R378) -/

/-- A request to send. -/
structure OutReq where
  opc : Nat
  tid : BitVec 16
  len : Nat
  data : List Byte
  dest : Option Dest
  pa : Nat
  device : Bool
  ptag : BitVec 16
  use : TagUse
deriving DecidableEq, Repr

/-- What becomes of it: sent and outstanding, answered at once, or it has to wait for a tag or for the target. -/
inductive Sent where
  | sent
  | done (a : Ans)
  | wait
deriving DecidableEq, Repr

/-- The unassigned ID of a physical position (R460). -/
def unassigned (pdie : BitVec 7) (ppitch : BitVec 11) : Word := 0xFFFC0000#32 + w32 (pdie.toNat * 2 ^ 11 + ppitch.toNat)

def OutReq.body (q : OutReq) (addr : Nat) (tag : Byte) (stamp : DWord) : Body :=
  ⟨0, BitVec.ofNat 6 q.opc, q.len, q.tid, stamp, BitVec.ofNat 56 addr, tag, q.data⟩

def OutReq.entry (q : OutReq) (tag : Byte) (dst : Word) (phys : Bool) : TagEntry :=
  ⟨tag, q.use, dst, phys, q.ptag, w64 q.pa, q.device, false⟩

/-- Sends a request that a tag is free for. -/
def State.sendTagged (s : State) (q : OutReq) (tag : Byte) : Option Dest → State × Sent
  | none => (s, .done (.err eNO_ROUTE))
  | some (.phys pd pp off) =>
    if q.tid ≠ 0 then (s, .done (.err eACCESS_DENIED))
    else
      let s' : State := { s with fresh := s.fresh + 1 }
      let r := s'.postPhys (q.body off tag s.stamp) (Config.physDest s.fresh) pd pp
      match r.2 with
      | some c => (r.1, .done (.err c))
      | none => (r.1.addTag (q.entry tag (unassigned pd pp) true), .sent)
  | some (.reg dst off) =>
    let r := s.post (q.body off tag s.stamp) dst
    match r.2 with
    | some c => (r.1, .done (.err c))
    | none => (r.1.addTag (q.entry tag dst false), .sent)
  | some (.mem dst addr) =>
    let r := s.post (q.body addr tag s.stamp) dst
    match r.2 with
    | some c => (r.1, .done (.err c))
    | none => (r.1.addTag (q.entry tag dst false), .sent)

/-- The ID and address of a destination by logical ID. -/
def Dest.logical : Dest → Option (Word × Nat)
  | .reg d o => some (d, o)
  | .mem d a => some (d, a)
  | .phys _ _ _ => none

/-- Sends a request, or loops it back where it names the own logical ID (R42). -/
def State.sendReq (s : State) (q : OutReq) : State × Sent :=
  let own := (q.dest.bind Dest.logical).filter fun d => s.liveId == some d.1
  match own with
  | some (id, addr) =>
    let r := s.serveReq ⟨q.opc, id, q.tid, false, q.len, addr, q.data, s.stamp, none⟩
    match r.2 with
    | .hold => (s, .wait)
    | .later => (s, .wait)
    | a => (r.1, .done a)
  | none =>
    match s.freeTag with
    | none => (s, .wait)
    | some t => s.sendTagged q t q.dest

/-- The TID of a request issued now (R324). -/
def State.reqTid (s : State) : BitVec 16 :=
  if s.pl = 2 then 0 else if s.cpu.tid = 0 then 0xFFFF else s.cpu.tid

/-- The opcode of a load or store to a destination: REGRD and REGWR in the register windows. -/
def Dest.isReg : Dest → Bool
  | .mem _ _ => false
  | _ => true

/-- A read request of `len` bytes at a physical address. -/
def State.readReq (s : State) (pa len : Nat) (tid : BitVec 16) (device : Bool) (ptag : BitVec 16) (use : TagUse) : OutReq :=
  let d := s.dest pa
  ⟨if (d.map Dest.isReg).getD false then 3 else 1, tid, len, [], d, pa, device, ptag, use⟩

/-- A write request. -/
def State.writeReq (s : State) (pa : Nat) (bs : List Byte) (tid : BitVec 16) (device : Bool) (ptag : BitVec 16)
    (use : TagUse) : OutReq :=
  let d := s.dest pa
  ⟨if (d.map Dest.isReg).getD false then 4 else 2, tid, bs.length, bs, d, pa, device, ptag, use⟩

/-! ## Load data arriving (R233, R284) -/

/-- Bytes of a load in place. -/
def putBytes (old : List Byte) (pos : Nat) (bs : List Byte) : List Byte :=
  old.take pos ++ bs ++ old.drop (pos + bs.length)

/-- A load's bytes with those of older stores over them. -/
def LoadJob.value (j : LoadJob) : List Byte := j.fwd.foldl (fun b f => putBytes b f.1 f.2) j.bytes

/-- A load whose bytes are all there writes its destination. -/
def State.settleLoad (s : State) (id : Nat) : State :=
  match s.cpu.loads.find? fun j => j.id == id with
  | some j =>
    if j.missing = 0 then
      ({ s with cpu := { s.cpu with loads := s.cpu.loads.filter fun x => x.id != id } }).writeDest j.dest j.value j.bad
    else s
  | none => s

/-- Changes one load job. -/
def State.modJob (s : State) (id : Nat) (f : LoadJob → LoadJob) : State :=
  { s with cpu := { s.cpu with loads := s.cpu.loads.map fun j => if j.id == id then f j else j } }

/-- The bytes of a piece arrive within `bs`. -/
def State.deliver (s : State) (p : Piece) (bs : List Byte) : State :=
  let part := (bs.drop p.off).take p.len
  (s.modJob p.job fun j => { j with bytes := putBytes j.bytes p.pos part, missing := j.missing - p.len }).settleLoad p.job

/-- A piece cannot be had: one machine check for its load (R233, R284). -/
def State.failPiece (s : State) (p : Piece) (kind : Nat) (addr : DWord) : State :=
  match s.cpu.loads.find? fun j => j.id == p.job with
  | none => s
  | some j =>
    let s := if j.bad then s else s.machineCheck kind false j.tag.toNat addr
    (s.modJob p.job fun j => { j with bad := true, missing := j.missing - p.len }).settleLoad p.job

end Sys2Proof.Machine
end

