-- ==== Sys2Proof/Machine/Walk.lean ====
section
/-! DEFINITION. Page-table walks: their reads, wherever the tables lie, and how they end (14_translation.md R324 to R327, R331 to
R333, R335, R336; R361, R369, R370, R378, R414). -/

namespace Sys2Proof.Machine

/-! ## One read (R332) -/

/-- What one read of a walk gives; `wait`: it is outstanding, or could not be asked for yet. -/
inductive WalkRead where
  | device
  | abort
  | word (v : DWord)
  | wait
deriving DecidableEq, Repr

/-- The read of a walk outside the own scratchpad is outstanding. -/
def State.walkAsked (s : State) (id : Nat) : Bool :=
  (s.net.tags.any fun t => t.use == .walk id) || (s.boot.offered ++ s.boot.out).any fun b => b.walk == some id

/-- Its answer arrives: the eight bytes, or none for an error. -/
def State.walkGot (s : State) (id : Nat) (v : Option DWord) : State :=
  s.setXlat { s.xlat with walk := s.xlat.walk.map fun w => if w.id = id then { w with got := some v } else w }

/-- A walk reads the eight bytes at a physical address, past L1D; one of the own scratchpad goes through V without the windows'
checks; `fs`: bits that come back flipped. -/
def State.walkRead (s : State) (w : Walk) (fs : List (Nat × UnitFlips)) (pa : Nat) : State × WalkRead :=
  match w.got with
  | some (some v) => (s, .word v)
  | some none => (s, .abort)
  | none =>
    if s.walkAsked w.id then (s, .wait)
    else if 2 ≤ s.effType pa 0 then (s, .device)
    else
      match s.physTarget pa with
      | .spx off _ =>
        if (s.rangeCheck ⟨.internal, .v, 0⟩ off 8).isSome then (s, .abort)
        else
          let r := s.spxRead 2 fs off 8
          (r.1, if r.2.2.isEmpty then .word (w64 (leNat r.2.1)) else .abort)
      | .regs _ => (s, .device)
      | .boot a =>
        let q : BootReq := ⟨false, a / 8 * 8, 0, none, none, false, 0, false, some w.id⟩
        (({ s with boot := { s.boot with offered := s.boot.offered ++ [q] } } : State).slip, .wait)
      | .phys _ =>
        let r := s.sendReq (s.readReq pa 8 s.reqTid false 0 (.walk w.id))
        match r.2 with
        | .done (.data bs) => (r.1.slip, .word (w64 (leNat bs)))
        | .done _ => (r.1.slip, .abort)
        | .sent => (r.1.slip, .wait)
        | .wait => (s, .wait)

/-! ## The whole walk (R324, R331) -/

/-- Where a walk stands once it can go no further: a leaf, a fault, a read that it waits for. -/
inductive WalkEnd where
  | leaf (w : Walk) (e : TlbEntry)
  | fault (sub lvl : Nat)
  | wait (w : Walk)
deriving DecidableEq, Repr

/-- The walk goes on at a table of a level. -/
def Walk.at' (w : Walk) (base k : Nat) : Walk := { w with table := some (base, k), got := none }

/-- What an address-space entry leads to (R324). -/
def Walk.enterSpace (w : Walk) (v : DWord) : Sum Walk Nat :=
  if !v.getLsbD 0 then .inr 2
  else if v.extractLsb' 56 8 != 0#8 || v.extractLsb' 1 11 != 0#11 then .inr 4
  else .inl ({ w with space := some v }.at' (ptePa v) 4)

/-- What a table entry of level `k` leads to (R325 to R327). -/
def Walk.enterTable (w : Walk) (k : Nat) (v : DWord) : Sum Walk WalkEnd :=
  if !v.getLsbD 0 then .inr (.fault 3 k)
  else if pteReserved v k then .inr (.fault 4 k)
  else if v.getLsbD 1 then .inr (.leaf w (leafEntry v w.va w.tid k))
  else .inl (w.at' (ptePa v) (k - 1))

/-- The walk goes on, through at most `n` reads. -/
def State.walkOn (s : State) (w : Walk) (fs : List (Nat × UnitFlips)) : Nat → State × WalkEnd
  | 0 => (s, .wait w)
  | n + 1 =>
    match w.table with
    | none =>
      let latch := (s.xlat.root.filter fun r => r.1 == w.tid).map Prod.snd
      let pa := (s.reg64 (pXLAT + 0x104)).toNat + 8 * w.tid.toNat
      let q := match latch with
        | some v => (s, WalkRead.word v)
        | none => s.walkRead w fs pa
      match q.2 with
      | .device => (q.1, .fault 0xB 5)
      | .abort => (q.1.walkAbort pa 5, .fault 0xC 5)
      | .wait => (q.1, .wait w)
      | .word v => match w.enterSpace v with
        | .inl w' => q.1.walkOn w' fs n
        | .inr c => (q.1, .fault c 5)
    | some (base, k) =>
      let pa := base + 8 * (w.va.toNat / 2 ^ (12 + 9 * k) % 512)
      let q := s.walkRead w fs pa
      match q.2 with
      | .device => (q.1, .fault 0xB k)
      | .abort => (q.1.walkAbort pa k, .fault 0xC k)
      | .wait => (q.1, .wait w)
      | .word v => match w.enterTable k v with
        | .inl w' => q.1.walkOn w' fs n
        | .inr e => (q.1, e)

/-- A leaf serves the instruction at TR; unless an invalidation has covered the walk, it is installed, and the root latch takes the
space's entry (R332, R333, R335). -/
def State.walkLeaf (s : State) (w : Walk) (e : TlbEntry) : State :=
  let s := s.setXlat { s.xlat with walk := none, served := (w.kind == 2, e) :: s.xlat.served }
  if w.killed then s
  else
    let s := s.setXlat { s.xlat with root := (w.space.map fun v => (w.tid, v)).orElse fun _ => s.xlat.root }
    (s.fillL1 w.kind e).fillL2 e

/-- THE WALK IN PROGRESS goes on until it ends or waits for a read; a fault is kept for its access, which raises it in its turn
(R288, R331, R332). -/
def State.endWalk (s : State) (fs : List (Nat × UnitFlips)) : State :=
  match s.xlat.walk with
  | none => s
  | some w =>
    let r := s.walkOn w fs 7
    match r.2 with
    | .leaf w' e => r.1.walkLeaf w' e
    | .fault sub lvl =>
      r.1.setXlat { r.1.xlat with walk := none, failed := ⟨w.va, w.kind, xlatDetail sub lvl w.kind⟩ :: r.1.xlat.failed }
    | .wait w' => r.1.setXlat { r.1.xlat with walk := some w' }

end Sys2Proof.Machine
end

