-- ==== Sys2Proof/Machine/Cache.lean ====
section
/-! DEFINITION. Both caches: lookup with its errors, victims, fills, prefetch, the streaming detector; and the completion of a
request's tag (13_caches.md R304 to R314, R321; R239, R378). -/

namespace Sys2Proof.Machine

/-! ## Geometry and lookup -/

def State.ways (s : State) (ic : Bool) : Nat := if ic then s.build.iWays else s.build.dWays
def State.sets (s : State) (ic : Bool) : Nat := if ic then s.build.iSets else s.build.dSets
/-- The set of a physical address (R304). -/
def State.lineSet (s : State) (ic : Bool) (pa : Nat) : Nat := pa / 64 % s.sets ic
def lineOf (pa : Nat) : Nat := pa / 64 * 64

def State.cache (s : State) (ic : Bool) : Cache := if ic then s.caches.i else s.caches.d
def State.setCache (s : State) (ic : Bool) (c : Cache) : State :=
  { s with caches := if ic then { s.caches with i := c } else { s.caches with d := c } }
def State.setFills (s : State) (fs : List Fill) : State := { s with caches := { s.caches with fills := fs } }

/-- The line that holds an address, with its place 16 * set + way. -/
def State.findLine (s : State) (ic : Bool) (line : Nat) : Option (Nat × CLine) :=
  (s.cache ic).lines.find? fun x => x.2.line == line

/-- The tree bits after a use of a way (R308). -/
def State.touchWay (s : State) (ic : Bool) (set w : Nat) : State :=
  let c := s.cache ic
  s.setCache ic { c with tree := c.tree.set set (treeTouch w (Nat.log2 (s.ways ic)) 1 (c.tree.get set)) }

def State.dropLine (s : State) (ic : Bool) (i : Nat) : State :=
  let c := s.cache ic
  s.setCache ic { c with lines := c.lines.filter fun x => x.1 != i }
def State.putLine (s : State) (ic : Bool) (i : Nat) (l : CLine) : State :=
  let c := s.cache ic
  s.setCache ic { c with lines := (i, l) :: c.lines.filter fun x => x.1 != i }

/-- What a lookup gives: the line, nothing, or a Dirty line whose data is lost. -/
inductive Probe where
  | hit (i : Nat) (l : CLine)
  | miss
  | lost
deriving DecidableEq, Repr

/-- A corrected or invalidated error of a way (R321, R433). -/
def State.cacheCorr (s : State) (ic : Bool) (i line : Nat) : State :=
  (s.raise pCACHE 0).rasCount ((if ic then 0x20 else 0x30) + i % 16) .transient 0 (w64 line)

/-- An error in a Dirty line (R321). -/
def State.cacheUncorr (s : State) (i line : Nat) (ptag : BitVec 16) : State :=
  (s.lineLost i line ptag).rasCount (0x30 + i % 16) .uncorrectable (lineCode i) (w64 line)

/-- The graver of two outcomes. -/
def worseErr : ArrayErr → ArrayErr → ArrayErr
  | .bad, _ => .bad
  | _, .bad => .bad
  | .ok, e => e
  | e, _ => e

/-- A USE OF A HELD LINE, with the errors that have struck it and the one given for this use: it is corrected, or the line is
invalidated, and lost where it was Dirty; `ptag`: the pipeline tag of the access, 0 for an eviction or maintenance (R321). -/
def State.useLine (s : State) (ic : Bool) (i : Nat) (l : CLine) (chk : ArrayErr) (ptag : BitVec 16) : State × Probe :=
  match worseErr chk l.err with
  | .ok => (s, .hit i l)
  | .corrected => ((s.putLine ic i { l with err := .ok }).cacheCorr ic i l.line, .hit i { l with err := .ok })
  | .bad =>
    if l.dirty then ((s.dropLine ic i).cacheUncorr i l.line ptag, .lost) else ((s.dropLine ic i).cacheCorr ic i l.line, .miss)

/-- A lookup of a line with what the arrays' protection reports (R306, R308, R321). -/
def State.probe (s : State) (ic : Bool) (line : Nat) (chk : ArrayErr) (ptag : BitVec 16) : State × Probe :=
  match s.findLine ic line with
  | none => (s, .miss)
  | some (i, l) =>
    let r := s.useLine ic i l chk ptag
    match r.2 with
    | .hit i l => (r.1.touchWay ic (i / 16) (i % 16), .hit i l)
    | x => (r.1, x)

/-! ## Victims (R308, R312) -/

/-- A way may be a victim: built, not locked, not disabled, not retired. -/
def State.eligible (s : State) (ic : Bool) (w : Nat) : Bool :=
  decide (w < s.ways ic) && !(s.reg (pCACHE + 0x108)).getLsbD (if ic then w else 16 + w) && !s.wayOff ic w

/-- A way held for a fill (R309). -/
def State.wayHeld (s : State) (ic : Bool) (set w : Nat) : Bool :=
  s.caches.fills.any fun f => f.ic == ic && f.set == set && f.way == w

def State.filling (s : State) (ic : Bool) (line : Nat) : Bool :=
  s.caches.fills.any fun f => f.ic == ic && f.line == line

/-- The choice of a victim: no way is eligible, every eligible way is held for a fill, or the way. -/
inductive VWay where
  | none
  | wait
  | way (w : Nat)
deriving DecidableEq, Repr

def State.victim (s : State) (ic : Bool) (set : Nat) : VWay :=
  let c := s.cache ic
  let ok (w : Nat) : Bool := s.eligible ic w && !s.wayHeld ic set w
  if !(List.range (s.ways ic)).any (s.eligible ic) then .none
  else
    match treeVictim (s.ways ic) (c.tree.get set) ok (fun w => c.lines.any fun x => x.1 == 16 * set + w) with
    | some w => .way w
    | none => .wait

/-! ## Fills (R309, R311) -/

/-- The store-buffer head stops waiting. -/
def State.setHead (s : State) (e : SbEntry) : State := { s with cpu := { s.cpu with sb := e :: s.cpu.sb.drop 1 } }

/-- `n` bytes that no rule gives, for a move unit whose source could not be read (R361 states the machine check alone). -/
def State.freeBytes (s : State) (n : Nat) : State × List Byte :=
  ({ s with fresh := s.fresh + 1 }, (List.range n).map (Config.wrongByte s.fresh))

/-- Bytes of the source of the copy unit at the store buffer's head arrive. -/
def State.headGot (s : State) (bs : List Byte) : State :=
  match s.cpu.sb with
  | e :: _ =>
    match e.kind with
    | .copy (_ :: src) dst nt got => s.setHead { e with kind := .copy src dst nt (got ++ bs), waiting := false }
    | _ => s
  | [] => s

/-- The line that the head waits for cannot be had: its store is lost, or its unit goes on with what no rule gives. -/
def State.headLost (s : State) : State :=
  match s.cpu.sb with
  | [] => s
  | e :: _ =>
    match e.kind with
    | .store (_ :: ps) nt => s.setHead { e with kind := .store ps nt, waiting := false }
    | .copy (p :: _) _ _ _ =>
      let r := s.freeBytes p.len
      r.1.headGot r.2
    | .copy [] (p :: dst) nt got => s.setHead { e with kind := .copy [] dst nt (got.drop p.len), waiting := false }
    | .fill (p :: dst) bs nt => s.setHead { e with kind := .fill dst (bs.drop p.len) nt, waiting := false }
    | _ => s

def Part.line (p : Part) : Option Nat :=
  match p.tgt with
  | .phys pa => some (lineOf pa)
  | _ => none

/-- The head waits for a line: its pipeline tag, and whether it is a move unit. -/
def State.headWaitsFor (s : State) (line : Nat) : Option (BitVec 16 × Bool) :=
  match s.cpu.sb with
  | [] => none
  | e :: _ =>
    let at' (p : Part) : Bool := p.line == some line
    if !e.waiting then none
    else
      match e.kind with
      | .store (p :: _) _ => if at' p.1 then some (e.tag, false) else none
      | .copy (p :: _) _ _ _ => if at' p then some (e.tag, true) else none
      | .copy [] (p :: _) _ _ => if at' p then some (e.tag, true) else none
      | .fill (p :: _) _ _ => if at' p then some (e.tag, true) else none
      | _ => none

/-- Takes a fill out of the list. -/
def State.dropFill (s : State) (f : Fill) : State :=
  s.setFills (s.caches.fills.filter fun x => !(x.ic == f.ic && x.line == f.line))

/-- A fill's data arrives: the line is installed and serves its loads (R306, R318). -/
def State.installFill (s : State) (f : Fill) (data : List Byte) : State :=
  let s := s.dropFill f
  let s :=
    if f.discard || s.wayOff f.ic f.way then s
    else (s.putLine f.ic (16 * f.set + f.way) ⟨f.line, false, data, .ok⟩).touchWay f.ic f.set f.way
  f.pieces.foldl (fun s p => s.deliver p data) s

/-- A fill is answered by an error: a prefetch is dropped; otherwise a machine check for each access that it served (R311, R256). -/
def State.failFill (s : State) (f : Fill) : State :=
  let s := s.dropFill f
  let head := if f.ic then none else s.headWaitsFor f.line
  let debug := !f.ic && s.dbg.miss.any fun x => lineOf x.1 == f.line
  let s : State := if debug then { s with dbg := { s.dbg with miss := none } } else s
  if f.prefetch && f.pieces.isEmpty && head.isNone then s.bump (pCACHE + 0x124)
  else if debug && f.pieces.isEmpty && head.isNone then s
  else
    let a := w64 f.line
    let s := f.pieces.foldl (fun s p => s.failPiece p 2 a) s
    match head with
    | some (t, unit) => (s.machineCheck (if unit then 4 else 2) false t.toNat a).headLost
    | none => if f.pieces.isEmpty then s.machineCheck 2 false f.tag.toNat a else s

/-- The fill request is issued. -/
def State.issueFill (s : State) (f : Fill) : State :=
  let r := s.sendReq (s.readReq f.line 64 f.tid false f.tag (.fill f.line f.ic))
  match r.2 with
  | .done (.data bs) => r.1.installFill f bs
  | .done _ => r.1.failFill f
  | _ => r.1

def State.addFill (s : State) (f : Fill) : State := s.setFills (s.caches.fills ++ [f])

/-- The number of L1D's fills (R307). -/
def State.dFills (s : State) : Nat := (s.caches.fills.filter fun f => !f.ic).length

/-- The line has been evicted Dirty, and its write-back is not acknowledged, or not yet sent (R309, R321). -/
def State.evicting (s : State) (line : Nat) : Bool :=
  (s.caches.fills.any fun f => f.evicts == some line) || s.caches.leaving.any fun x => x.1 == line

/-- The next-line prefetch of a demand miss that allocates line X (R311). -/
def State.prefetchNext (s : State) (ic : Bool) (line page : Nat) (ptag tid : BitVec 16) : State :=
  let x := line + 64
  let set := s.lineSet ic x
  if (s.reg (pCACHE + 0x100)).getLsbD 9 && x / 2 ^ page == line / 2 ^ page && (s.findLine ic x).isNone
      && !s.filling ic x && !s.evicting x && (ic || decide (s.dFills < 4)) && s.freeTag.isSome then
    match s.victim ic set with
    | .way w =>
      if (s.cache ic).lines.any fun l => l.1 == 16 * set + w && l.2.dirty then s
      else
        let f : Fill := ⟨ic, set, w, x, none, none, true, false, false, ptag, tid, []⟩
        ((s.dropLine ic (16 * set + w)).addFill f).issueFill f
    | _ => s
  else s

/-- The request of a fill, and after it that of its next line (R311). -/
def State.requestFill (s : State) (f : Fill) : State :=
  let s := s.issueFill f
  match f.next with
  | some page => s.prefetchNext f.ic f.line page f.tag f.tid
  | none => s

/-- The fill that waits for the write of its victim, once that is answered. -/
def State.victimDone (s : State) (set way : Nat) : State :=
  match s.caches.fills.find? fun f => !f.ic && f.set == set && f.way == way && f.evicts.isSome with
  | none => s
  | some f =>
    let f' := { f with evicts := none }
    (s.setFills (s.caches.fills.map fun x => if x == f then f' else x)).requestFill f'

/-- BEGINS A FILL of the way that `f` names: the line there goes, after its write-back where it is Dirty and can be read (R309,
R321). -/
def State.beginFill (s : State) (f : Fill) : State :=
  let i := 16 * f.set + f.way
  match ((s.cache f.ic).lines.find? fun x => x.1 == i).map Prod.snd with
  | none => (s.addFill f).requestFill f
  | some l =>
    if f.ic || !l.dirty then ((s.dropLine f.ic i).addFill f).requestFill f
    else
      let u := s.useLine false i l .ok 0#16
      match u.2 with
      | .hit _ l =>
        let s := (u.1.dropLine false i).bump (pCACHE + 0x11C)
        let r := s.sendReq (s.writeReq l.line l.data f.tid false f.tag (.victim (f.set, f.way)))
        match r.2 with
        | .sent => r.1.addFill { f with evicts := some l.line }
        | .done (.err _) => ((r.1.machineCheck 2 false f.tag.toNat (w64 l.line)).addFill f).requestFill f
        | _ => (r.1.addFill f).requestFill f
      | _ => (u.1.addFill f).requestFill f

/-- A demand fill of a line into a way, for an access with its tags and page size. -/
def State.demandFill (s : State) (ic : Bool) (way line page : Nat) (ptag tid : BitVec 16) (pieces : List Piece) : State :=
  s.beginFill ⟨ic, s.lineSet ic line, way, line, none, some page, false, false, false, ptag, tid, pieces⟩

/-- A preload of a line into a way (R313). -/
def State.preloadFill (s : State) (ic : Bool) (way line : Nat) (ptag tid : BitVec 16) : State :=
  s.beginFill ⟨ic, s.lineSet ic line, way, line, none, none, false, false, true, ptag, tid, []⟩

/-- A demand miss of a line: whether it allocates, has to wait, or goes to its target (R307). -/
inductive MissPlan where
  | attach
  | allocate (w : Nat)
  | direct
  | wait
deriving DecidableEq, Repr

/-- A miss waits for a fill whose data is to be discarded, and for the write-back of its own line (R309, R318); L1D has four fills
(R307). -/
def State.planMiss (s : State) (ic : Bool) (line : Nat) (noAlloc : Bool) : MissPlan :=
  if (s.caches.fills.any fun f => f.ic == ic && f.line == line && f.discard) || s.evicting line then .wait
  else if s.filling ic line then .attach
  else if noAlloc then .direct
  else
    match s.victim ic (s.lineSet ic line) with
    | .none => .direct
    | .wait => .wait
    | .way w => if (!ic && decide (4 ≤ s.dFills)) || s.freeTag.isNone then .wait else .allocate w

/-- The Dirty lines of retired ways are written back as tags become free (R321). -/
def State.writeLeaving (s : State) : Nat → State
  | 0 => s
  | n + 1 =>
    match s.caches.leaving with
    | [] => s
    | (line, data) :: rest =>
      let r := ({ s with caches := { s.caches with leaving := rest } } : State).sendReq
        (s.writeReq line data 0#16 false 0#16 .store)
      match r.2 with
      | .wait => s
      | .done (.err _) => (r.1.machineCheck 2 false 0 (w64 line)).writeLeaving n
      | _ => r.1.writeLeaving n

/-! ## The streaming detector (R310) -/

/-- The detector is active for a store that begins at `a`. -/
def State.streamsAt (s : State) (a : Nat) : Bool := s.streaming && s.caches.next == w64 a

/-- Lines whose end lies in (lo, hi] and whose first byte is at or after `start`. -/
def linesPassed (start lo hi : Nat) : Nat := hi / 64 - max (lo / 64) ((start + 63) / 64)

/-- A cacheable store of `n` bytes at `a` is seen. -/
def State.seeStore (s : State) (a n : Nat) : State :=
  let c := s.caches
  let c' : Caches :=
    if c.next = w64 a then
      { c with next := w64 (a + n), count := c.count + linesPassed c.runFrom.toNat a (a + n) }
    else { c with next := w64 (a + n), count := linesPassed a a (a + n), runFrom := w64 a }
  { s with caches := c' }

/-! ## The fetch buffer (R231, R254) -/

/-- What has been fetched stays in the buffer: 32 bytes of it in DET mode, more outside it, all while entry lines are loaded. -/
def State.keepFetch (s : State) (k : Nat × Nat) : State :=
  let n := if s.cpu.lineLoad then 64 else if s.detOn && k.1 != 2 then 2 else 4
  { s with cpu := { s.cpu with fetched := (k :: s.cpu.fetched).take n } }

/-! ## Tags complete (R378, R309, R230, R256, R332) -/

/-- What an answer to a tag does. -/
def State.useAnswer (s : State) (t : TagEntry) (a : Ans) : State :=
  match t.use, a with
  | .load p, .data bs => s.deliver p bs
  | .load p, _ => s.failPiece p 2 t.pa
  | .moveRead _ _, .data bs => s.headGot bs
  | .moveRead _ n, _ =>
    let r := (s.machineCheck 4 false t.ptag.toNat t.pa).freeBytes n
    r.1.headGot r.2
  | .fetch k _, .data _ => s.keepFetch k
  | .fetch _ _, _ => s.machineCheck 2 false 0 t.pa
  | .walk id, .data bs => s.walkGot id (some (w64 (leNat bs)))
  | .walk id, _ => s.walkGot id none
  | .fill line ic, a =>
    match s.caches.fills.find? fun f => f.ic == ic && f.line == line with
    | none => s
    | some f =>
      match a with
      | .data bs => s.installFill f bs
      | _ => s.failFill f
  | .victim (set, way), .err _ => (s.machineCheck 2 false t.ptag.toNat t.pa).victimDone set way
  | .victim (set, way), _ => s.victimDone set way
  | .debug _, .data bs => if s.dbg.wir = 0x11#8 then { s with dbg := { s.dbg with out := w64 (leNat bs) } } else s
  | .moveWrite, .err _ => s.machineCheck 4 false t.ptag.toNat t.pa
  | .store, .err _ => s.machineCheck 2 false t.ptag.toNat t.pa
  | .sadd, .err _ => s.machineCheck 2 false t.ptag.toNat t.pa
  | _, _ => s

/-- A tag's answer arrives: the tag is freed. -/
def State.completeTag (s : State) (t : TagEntry) (a : Ans) : State := (s.dropTag t.tag).useAnswer t a

end Sys2Proof.Machine
end

