-- ==== Sys2Proof/Machine/Fetch.lean ====
section
/-! DEFINITION. Instruction fetch and the issue of an instruction (10_pipeline.md R231, R232, R236, R242, R246, R253 to R255;
13_caches.md R306, R307, R311, R320, R321; R285, R331, R336, R414). -/

namespace Sys2Proof.Machine

/-! ## DET slips (R255) -/

/-- A part for which R255's conditions 1 and 2 fail. -/
def State.slips (s : State) (p : Part) : Bool :=
  let vOnly (off : Nat) : Bool :=
    let g := off / s.build.groupBytes
    s.mapAllows g .v && !s.mapAllows g .m && !s.mapAllows g .d
  match p.tgt with
  | .spx off _ => !(vOnly off && vOnly (off + p.len - 1))
  | .regs _ => false
  | _ => true

def State.noteSlip (s : State) (ps : List Part) : State := if ps.any s.slips then s.slip else s

/-! ## What the fetch buffer holds (R231, R254, R285) -/

/-- The bytes that one fetch brings: 32, or 16 in DET mode. -/
def State.fetchBytes (s : State) : Nat := if s.detOn then 16 else 32

/-- What the fetch buffer calls the place that a byte comes from: its kind of target and size, and its number. -/
def State.fetchKey (s : State) (p : Part) : Nat × Nat :=
  let n := s.fetchBytes
  let k := if s.detOn then 4 else 0
  match p.tgt with
  | .spx off _ => (k, off / n)
  | .phys pa => (k + 1, pa / n)
  | .boot a => (2, a / 8)
  | .regs off => (3, off)

/-- Stored bytes meet what a key of the fetch buffer stands for. -/
def Part.hitsKey (p : Part) (k : Nat × Nat) : Bool :=
  let n := if 4 ≤ k.1 then 16 else 32
  let meets (a m b : Nat) : Bool := decide (a < b + p.len ∧ b < a + m)
  match p.tgt with
  | .spx a _ => k.1 % 4 == 0 && meets (n * k.2) n a
  | .phys a => k.1 % 4 == 1 && meets (n * k.2) n a
  | .boot a => k.1 == 2 && meets (8 * k.2) 8 a
  | .regs _ => false

/-- A STORE OF THE CORE COMMITS: what was fetched of its bytes goes, and the loop buffer with it (R285). -/
def State.storeHits (s : State) (ps : List Part) : State :=
  let hit (k : Nat × Nat) : Bool := ps.any fun p => p.hitsKey k
  { s with cpu := { s.cpu with
      fetched := s.cpu.fetched.filter fun k => !hit k
      loop := s.cpu.loop.filter fun b => !b.keys.any hit } }

/-- The parts that an entry of the store buffer is still to write. -/
def SbKind.writes : SbKind → List Part
  | .store ps _ => ps.map Prod.fst
  | .copy _ dst _ _ => dst
  | .fill dst _ _ => dst
  | _ => []

/-- A key that a loop is captured from (R242). -/
def State.noteLoop (s : State) (k : Nat × Nat) : State :=
  { s with cpu := { s.cpu with loop := s.cpu.loop.map fun b =>
      if b.full || !(b.holds s.cpu.ip) || b.keys.contains k then b else { b with keys := k :: b.keys } } }

/-! ## Fetch -/

/-- The fetch of one byte of the instruction stream is translated and checked. -/
def State.fetchByte (s : State) (va : DWord) : State × XOut :=
  s.accHalf ⟨va, 1, 2, .v, false, false, false, false, false⟩ va 1 false

/-- Bytes come into the fetch buffer. -/
def State.gotFetch (s : State) (p : Part) : State := s.keepFetch (s.fetchKey p)

/-- A fetch past the instruction cache: it is asked for once. -/
def State.fetchPast (s : State) (p : Part) (pa : Nat) : State :=
  let n := s.fetchBytes
  let u : TagUse := .fetch (s.fetchKey p) n
  if s.net.tags.any fun t => t.use == u then s
  else
    let q := s.readReq (pa / n * n) n s.reqTid p.device 0 u
    let r := s.sendReq q
    match r.2 with
    | .done a => r.1.useAnswer ⟨0, u, 0, false, 0, w64 pa, p.device, false⟩ a
    | _ => r.1

/-- A fetch that misses L1I takes a line that L1D holds Dirty; the line is allocated in L1I as by any miss (R285, R307, R311). -/
def State.fetchDirty (s : State) (p : Part) (line : Nat) (l : CLine) : State :=
  match s.victim true (s.lineSet true line) with
  | .way w =>
    let set := s.lineSet true line
    (((s.putLine true (16 * set + w) ⟨line, false, l.data, .ok⟩).touchWay true set w).prefetchNext true line p.page 0
      s.reqTid).gotFetch p
  | .none => s.gotFetch p
  | .wait => s

/-- The line that L1D holds Dirty, where L1D is active; an error in it loses it (R285, R320, R321). -/
def State.dirtyCopy (s : State) (line : Nat) : State × Option CLine :=
  match if s.cacheOn false then (s.findLine false line).filter fun x => x.2.dirty else none with
  | none => (s, none)
  | some (i, l) =>
    let r := s.useLine false i l .ok 0#16
    (r.1, match r.2 with
      | .hit _ l => some l
      | _ => none)

/-- A cacheable fetch (R306, R307, R311, R321). -/
def State.fetchCached (s : State) (p : Part) (pa : Nat) : State :=
  let line := lineOf pa
  let r := (s.charge 8 1).probe true line .ok 0#16
  match r.2 with
  | .hit _ _ => r.1.gotFetch p
  | _ =>
    let d := r.1.dirtyCopy line
    match d.2 with
    | some l => (d.1.bump (pCACHE + 0x118)).fetchDirty p line l
    | none =>
      match d.1.planMiss true line false with
      | .attach => s
      | .wait => s
      | .allocate w => (d.1.bump (pCACHE + 0x118)).demandFill true w line p.page 0 s.reqTid []
      | .direct => d.1.fetchPast p pa

/-- The bytes of the own scratchpad are fetched through V; an uncorrectable word raises a machine check with tag 0 (R361). -/
def State.fetchUnit (s : State) (p : Part) (off : Nat) : State :=
  let n := s.fetchBytes
  let u := off / 32
  let r := (s.charge 5 1).readUnit u 2 (s.weightClass u) (wordsNeeded (off / n * n % 32) n) 0
  if r.2.2 then r.1.machineCheck 1 false 0 (s.spxAddr (32 * u)) else (r.1.noteSlip [p]).gotFetch p

/-- The doubleword has been asked for through the BOOT port. -/
def State.bootAsked (s : State) (a : Nat) : Bool := (s.boot.offered ++ s.boot.out).any fun q => q.fetch && q.addr == a / 8 * 8

/-- The place of a part's byte is fetched where the buffer does not hold it; the instruction waits for it, and it for stores of the
core to the same bytes (R285). -/
def State.fetchPart (s : State) (p : Part) : State :=
  let k := s.fetchKey p
  if s.cpu.sb.any fun e => e.kind.writes.any fun q => q.hitsKey k then s
  else
    match p.tgt with
    | .spx off _ => s.fetchUnit p off
    | .phys pa => if p.cacheable then s.fetchCached p pa else (s.noteSlip [p]).fetchPast p pa
    | .boot a =>
      if s.bootAsked a then s
      else { s with boot := { s.boot with offered := s.boot.offered ++ [⟨false, a / 8 * 8, 0, none, none, true, 0, false, none⟩] } }
    | .regs _ => s.gotFetch p

/-- The bytes at the offsets given from `va` are fetched in turn; `.parts` once the buffer holds them all. -/
def State.fetchFrom (s : State) (va : DWord) : List Nat → State × XOut
  | [] => (s, .parts [])
  | k :: ks =>
    let r := s.fetchByte (va + w64 k)
    match r.2 with
    | .parts (p :: _) =>
      let key := r.1.fetchKey p
      let s' := if r.1.cpu.fetched.contains key then r.1 else r.1.fetchPart p
      if s'.cpu.fetched.contains key then (s'.noteLoop key).fetchFrom va ks else (s', .wait)
    | x => (r.1, x)

/-- The offsets at which an instruction of `len` bytes from `va` is fetched: those that the entry line `line` does not hold
(R246). -/
def fetchOffsets (va : DWord) (len : Nat) (line : Option Nat) : List Nat :=
  let ks := if len ≤ 8 then [0, len - 1] else [0, 8, len - 1]
  if line == some (va.toNat / 64) then
    let n := 64 - va.toNat % 64
    (n :: ks.filter fun k => n < k).filter fun k => decide (k < len)
  else ks

/-- THE FETCH of the instruction of `len` bytes at IP: from the loop buffer while that serves a loop (R242), from the entry line that
execution has not left (R246), else translated, checked and fetched. -/
def State.fetch (s : State) (len : Nat) : State × XOut :=
  if s.looping && (s.cpu.loop.map fun b => b.holds s.cpu.ip).getD false then (s, .parts [])
  else
    let line := s.cpu.fromLine.filter fun l => l == s.cpu.ip.toNat / 64
    ({ s with cpu := { s.cpu with fromLine := line } } : State).fetchFrom s.cpu.ip (fetchOffsets s.cpu.ip len line)

/-- An entry line is loaded: the 64 bytes at `va` are fetched whole; answers the part of its first byte (R246, R273). -/
def State.fetchLine (s : State) (va : DWord) : State × XOut :=
  let r := ({ s with cpu := { s.cpu with lineLoad := true } } : State).fetchFrom va ((List.range 8).map (8 * ·))
  match r.2 with
  | .parts _ => r.1.fetchByte va
  | _ => r

/-- AN INSTRUCTION of `len` bytes at IP that names the registers `gs` and `fs`: where it cannot issue, or a register that it names
is busy, or its bytes are still to come, it waits and the same command may come again (R236, R237); a fetch fault is raised in its
place; else it has been issued with its tag, and `k` (R234). -/
def State.instr (s : State) (len : Nat) (gs fs : List (Fin 32)) (k : State → State) : State :=
  if s.canIssue && !gs.any s.gBusy && !fs.any s.fBusy then
    let r := s.fetch len
    match r.2 with
    | .parts _ => k { r.1 with cpu := { r.1.cpu with issued := true } }
    | .fault c d x => r.1.except c d x
    | .wait => r.1
  else s

end Sys2Proof.Machine
end

