-- ==== Sys2Proof/Machine/TileCore.lean ====
section
/-! DEFINITION. The tile engine's views, operands and ranges (04_outer_product_engine.md R87 to R96, R106 to R111; 08 R181, R182,
R191). -/

namespace Sys2Proof.Machine

/-! ## Fields of the specifier and the control word (R108, R109) -/

def tKcnt (o : TileArgs) : Fin 32 := Fin.ofNat 32 (o.spec.toNat / 1024)
def tOpb (o : TileArgs) : Fin 32 := Fin.ofNat 32 (o.spec.toNat / 32)
def tOpa (o : TileArgs) : Fin 32 := Fin.ofNat 32 o.spec.toNat
def pairOdd (n : Fin 32) : Bool := n.val % 2 == 1
/-- G[n + 1] of a descriptor pair. -/
def nextReg (n : Fin 32) : Fin 32 := Fin.ofNat 32 (n.val + 1)

/-- KB: bits [15:0] of the register that KCNT names. -/
def State.tileKb (s : State) (o : TileArgs) : Nat := (s.g (tKcnt o)).toNat % 65536

/-! ## Names and views (R95, R96, R111, R182) -/

def TileView.name (v : TileView) (n : Nat) : Option NameInfo := (v.names.getD n none)
def NameInfo.slots (i : NameInfo) : Nat := slotsOf i.shape i.fmt

/-- A live larger tile covers the name. -/
def TileView.covered (v : TileView) (n : Nat) : Bool :=
  (List.range n).any fun m => match v.name m with
    | some i => decide (n < m + i.slots)
    | none => false

/-- TILE_STATE cause 1 or 2 for a name that is not live. -/
def TileView.nameCause (v : TileView) (n : Nat) : Option Nat :=
  if (v.name n).isSome then none else if v.covered n then some 2 else some 1

/-- The live names whose slots overlap the `k` slots from `n` on end. -/
def TileView.endOverlap (v : TileView) (n k : Nat) : TileView :=
  { v with names := v.names.zipIdx.map fun x => match x.1 with
      | some i => if x.2 < n + k ∧ n < x.2 + i.slots then none else some i
      | none => none }

def TileView.setName (v : TileView) (n : Nat) (i : NameInfo) : TileView := { v with names := v.names.set n (some i) }
def TileView.modName (v : TileView) (n : Nat) (f : NameInfo → NameInfo) : TileView :=
  { v with names := v.names.zipIdx.map fun x => if x.2 = n then x.1.map f else x.1 }

def ctlCd (c : Word) : Nat := fld c 0 5
def ctlCs (c : Word) : Nat := fld c 5 5
def tewOp (c : Word) : Nat := fld c 10 4

def accFmtOf (code : Nat) : Option AccFmt :=
  match code with
  | 0x9 => some .i32
  | 0xA => some .f32c
  | 0xB => some .x128
  | _ => none

/-- What a TBEGIN control word gives its name. -/
def beginInfo (c : Word) : NameInfo :=
  ⟨Shape.ofCode (fld c 5 2), (accFmtOf (fld c 7 4)).getD .i32, (c.extractLsb' 13 10).toInt, false⟩

/-- An F32C tile of a split shape keeps chains apart (R130). -/
def NameInfo.split (i : NameInfo) : Bool := decide (1 < keptChains i.shape i.fmt)

/-- What an instruction does to a view (R119, R130, R169, R182, R194). NEG leaves CD's own window base in place (R113 names COPY alone;
DESIGN CHOICE, log entry 129). -/
def viewStep (v : TileView) (e : TileEntry) : TileView :=
  let cd := ctlCd e.ctl
  match e.op with
  | .tbegin => (v.endOverlap cd (beginInfo e.ctl).slots).setName cd (beginInfo e.ctl)
  | .tmma => if e.kb = 0 then v else v.modName cd fun i => { i with opn := i.split }
  | .tmmaSeg => if e.kb = 0 then v else v.modName cd fun i => { i with opn := i.split }
  | .tclose => v.modName cd fun i => { i with opn := false }
  | .tew =>
    match v.name (ctlCs e.ctl) with
    | none => v.modName cd fun i => { i with opn := i.opn && tewOp e.ctl != 4 }
    | some c =>
      v.modName cd fun i => match tewOp e.ctl with
        | 0 => { i with opn := c.opn, wbase := c.wbase }
        | 3 => { i with opn := c.opn }
        | 4 => { i with opn := false }
        | _ => { i with opn := i.opn || c.opn }
  | .tcrate => { v with crate := e.crate }
  | .tsave => TileView.init
  | _ => v

/-! ## Streams (R90, R176) -/

/-- A stream descriptor: EBASE, SOFF, LSTRIDE and KSTRIDE in bytes. -/
structure StreamDesc where
  ebase : Nat
  soff : Int
  ls : Nat
  ks : Nat
deriving DecidableEq, Repr

def streamDesc (lo hi : DWord) : StreamDesc :=
  ⟨lo.toNat, (hi.setWidth 24).toInt, 32 * (hi.toNat / 2 ^ 24 % 2 ^ 20), 32 * (hi.toNat / 2 ^ 44)⟩

def State.streamAt (s : State) (n : Fin 32) : StreamDesc := streamDesc (s.g n) (s.g (nextReg n))

/-- The virtual address of the scale byte of element block (0, 0), modulo 2^64. -/
def StreamDesc.sbase (d : StreamDesc) : Nat := (((d.ebase : Int) + d.soff) % 2 ^ 64).toNat

/-- The same stream from K-block `k` on. -/
def StreamDesc.from (d : StreamDesc) (k : Nat) : StreamDesc :=
  { d with ebase := d.ebase + k * d.ks, soff := d.soff + ((k * d.ks / 32 : Nat) : Int) - ((k * d.ks : Nat) : Int) }

/-- Merges two rising lists of ranges. -/
def mergeRanges : Nat → List (Nat × Nat) → List (Nat × Nat) → List (Nat × Nat)
  | 0, xs, ys => xs ++ ys
  | _ + 1, [], ys => ys
  | _ + 1, xs, [] => xs
  | n + 1, x :: xs, y :: ys =>
    if x.1 ≤ y.1 then x :: mergeRanges n xs (y :: ys) else y :: mergeRanges n (x :: xs) ys

/-- The addresses base + l * ls + q * ks, in rising order, each with its length. -/
def gridFrom (base lanes ls kb ks len : Nat) : List (Nat × Nat) :=
  (List.range lanes).foldl
    (fun acc l =>
      let row := (List.range kb).map fun q => (base + l * ls + q * ks, len)
      mergeRanges (acc.length + row.length) acc row) []

/-- The element blocks of `lanes` lanes and `kb` K-blocks. -/
def StreamDesc.blocks (d : StreamDesc) (lanes kb : Nat) : List (Nat × Nat) := gridFrom d.ebase lanes d.ls kb d.ks 32
/-- Their scale bytes. -/
def StreamDesc.scales (d : StreamDesc) (lanes kb : Nat) : List (Nat × Nat) :=
  gridFrom d.sbase lanes (d.ls / 32) kb (d.ks / 32) 1

/-- A contiguous range in pieces that do not cross a multiple of 4,096. -/
def pagePieces : Nat → Nat → Nat → List (Nat × Nat)
  | 0, _, _ => []
  | n + 1, a, len =>
    if len = 0 then []
    else
      let k := min len (4096 - a % 4096)
      (a, k) :: pagePieces n (a + k) (len - k)

def contiguous (a len : Nat) : List (Nat × Nat) := pagePieces (len / 4096 + 2) a len

/-! ## Checking ranges at TR (R111 step 5, R191) -/

/-- A range to check: read (0) or written (1), the TIDs that a window may name, its pieces from the lowest address up. -/
structure TRange where
  kind : Nat
  tids : List (BitVec 16)
  pieces : List (Nat × Nat)
deriving DecidableEq, Repr

/-- The lowest virtual address of a range with its scratchpad offset; none for an empty range. -/
abbrev RBase := Option (Nat × Nat)

/-- What the checks give. -/
inductive TOut where
  | ok (bases : List RBase)
  | fault (cause : Nat) (detail : Word) (xaddr : DWord)
  | wait
deriving DecidableEq, Repr

/-- The scratchpad offset of a virtual address of a checked range. -/
def offOf (b : RBase) (va : Nat) : Nat :=
  match b with
  | some (v, o) => o + va - v
  | none => 0

def State.checkPieces (s : State) (r : TRange) (sub : SubPort) (start : Nat) : RBase → List (Nat × Nat) → State × TOut
  | b, [] => (s, .ok [b])
  | b, (va, len) :: ps =>
    let t := s.translate (w64 va) r.kind false
    match t.2 with
    | .wait => (t.1, .wait)
    | .fault d _ => (t.1, .fault cTRANSLATION d (w64 va))
    | .pa pa _ _ =>
      match t.1.physTarget pa with
      | .spx off _ =>
        let base := b.getD (va, off)
        if base.2 + va ≠ off + base.1 then (t.1, .fault cTILESTATE 10#32 (w64 start))
        else
          match t.1.rangeCheck ⟨.core s.pl r.tids, sub, r.kind⟩ off len with
          | some (o, c) => (t.1, .fault cWINDOW (t.1.windowDetail o c r.kind) (w64 (va + (o - off))))
          | none => t.1.checkPieces r sub start (some base) ps
      | _ => (t.1, .fault cTILESTATE 5#32 (w64 start))

/-- Ranges in turn. -/
def State.checkRanges (s : State) (sub : SubPort) : List TRange → State × TOut
  | [] => (s, .ok [])
  | r :: rs =>
    let q := s.checkPieces r sub ((r.pieces.head?.map Prod.fst).getD 0) none r.pieces
    match q.2 with
    | .ok b =>
      let t := q.1.checkRanges sub rs
      (t.1, match t.2 with
        | .ok bs => .ok (b ++ bs)
        | x => x)
    | x => (q.1, x)

/-- Goes on with the bases of the ranges, or takes the fault, or waits for a walk. -/
def State.withRanges (s : State) (sub : SubPort) (rs : List TRange) (k : State → List RBase → State) : State :=
  let q := s.checkRanges sub rs
  match q.2 with
  | .ok bs => k q.1 bs
  | .fault c d x => q.1.except c d x
  | .wait => q.1

/-- The scratchpad form of a stream from the bases of its elements and its scale bytes (R195). -/
def StreamDesc.form (d : StreamDesc) (e sc : RBase) : Stream := ⟨offOf e d.ebase, offOf sc d.sbase, d.ls, d.ks⟩

/-- The two ranges of a stream. -/
def StreamDesc.ranges (d : StreamDesc) (kind : Nat) (tids : List (BitVec 16)) (lanes kb : Nat) : List TRange :=
  [⟨kind, tids, d.blocks lanes kb⟩, ⟨kind, tids, d.scales lanes kb⟩]

/-! ## Ranges of queued instructions, as scratchpad offsets (R106) -/

/-- A stream's ranges. -/
def Stream.cells (f : Stream) (lanes kb : Nat) : List (Nat × Nat) :=
  (List.range lanes).flatMap fun l => (List.range kb).flatMap fun q =>
    [(f.off + l * f.ls + q * f.ks, 32), (f.soff + (l * f.ls + q * f.ks) / 32, 1)]

/-- BX outputs of a shape: lanes, and blocks per lane (R152, R158, R159). -/
def bxLanes (c : Word) (sh : Shape) : Nat := if c.getLsbD 15 then sh.cols else sh.rows
def bxBlocks (c : Word) (sh : Shape) : Nat :=
  let vals := if c.getLsbD 15 then sh.rows else sh.cols
  let n := if fld c 28 4 = 4 then 32 else 64
  (vals + n - 1) / n

def isBx (c : Word) : Bool := fld c 28 4 == 4 || fld c 28 4 == 6

/-- The output cells of a TCONV to the scratchpad from an element (0, 0) or block (0, 0). -/
def Stream.outCells (f : Stream) (c : Word) (sh : Shape) : List (Nat × Nat) :=
  if isBx c then f.cells (bxLanes c sh) (bxBlocks c sh)
  else
    let sz := outBytes (fld c 28 4)
    let lanes := if c.getLsbD 15 then sh.cols else sh.rows
    let vals := if c.getLsbD 15 then sh.rows else sh.cols
    (List.range lanes).map fun l => (f.off + l * f.ls, vals * sz)

def statBytes (c : Word) : Nat :=
  match fld c 19 2 with
  | 0 => 0
  | 3 => 8
  | _ => 4

/-- The scale, bias and statistics ranges of a TCONV. -/
def convReads (c : Word) (sh : Shape) (r : ConvRec) : List (Nat × Nat) :=
  (match fld c 24 2 with
    | 1 => [(r.scaleOff, 4 * sh.rows)]
    | 2 => [(r.scaleOff, 4 * sh.cols)]
    | _ => [])
  ++ (match fld c 22 2 with
    | 1 => [(r.biasOff, 4 * sh.cols)]
    | 2 => [(r.biasOff, 4 * sh.rows)]
    | 3 => (List.range sh.rows).map fun i => (r.biasOff + i * r.biasStride, 4 * sh.cols)
    | _ => [])

def preloadCells (c : Word) (off stride : Nat) : List (Nat × Nat) :=
  let sh := (beginInfo c).shape
  match fld c 11 2 with
  | 0 => []
  | 1 => [(off, 4 * sh.cols)]
  | 2 => [(off, 4 * sh.rows)]
  | _ => (List.range sh.rows).map fun i => (off + i * stride, 4 * sh.cols)

def imageBytes : Nat := 166144

/-- The shape that an instruction's tile has when it runs after a view. -/
def TileView.shapeOf (v : TileView) (e : TileEntry) : Shape := ((v.name (ctlCd e.ctl)).map (·.shape)).getD .s32x32

/-- Instructions in program order, each with the shape of its tile as the ones before it leave it; `v`: the view before them. -/
def withShapes (v : TileView) : List TileEntry → List (TileEntry × Shape)
  | [] => []
  | e :: es => (e, v.shapeOf e) :: withShapes (viewStep v e) es

/-- The queued instructions in program order with the shapes of their tiles: those that a TRESTORE brings stand behind it and before
the younger ones (R199). -/
def State.queued (s : State) : List (TileEntry × Shape) :=
  match s.tile.restored, s.tile.queue with
  | some x, e :: young => (e, .s32x32) :: withShapes x.view (x.entries ++ young)
  | _, q => withShapes s.tile.engine q

/-- What a queued instruction reads from the scratchpad; the shape is that of its tile. -/
def TileEntry.reads (e : TileEntry) (sh : Shape) : List (Nat × Nat) :=
  match e.op with
  | .tmma =>
    (if e.ctl.getLsbD 23 then e.a.cells sh.rows e.kb else []) ++ (if e.ctl.getLsbD 19 then e.b.cells sh.cols e.kb else [])
  | .tmmaSeg =>
    (if e.ctl.getLsbD 23 then e.a.cells sh.rows e.kb else []) ++ e.bs.flatMap fun b => b.cells sh.cols e.kb
  | .tbegin => preloadCells e.ctl e.a.off e.aux
  | .tconv => (e.conv.map (convReads e.ctl sh)).getD []
  | .tload => e.a.cells 32 e.kb
  | .tcrate => e.rows.flatMap fun r => [(r.1, 32 * e.kb), (r.2, e.kb)]
  | .trestore => e.rows.map fun r => (r.2, if r.1 < 8 then 4224 else 4096)
  | _ => []

/-- What it writes. -/
def TileEntry.writes (e : TileEntry) (sh : Shape) : List (Nat × Nat) :=
  match e.op with
  | .tconv =>
    (if e.ctl.getLsbD 16 then [] else e.a.outCells e.ctl sh)
      ++ (match e.conv with
        | some r => if statBytes e.ctl = 0 then [] else [(r.statOff, sh.rows * statBytes e.ctl)]
        | none => [])
  | .tstore => e.a.cells 32 e.kb
  | .tsave => if e.ctl.getLsbD 2 then [] else [(e.image, imageBytes)]
  | _ => []

def overlapAny (xs : List (Nat × Nat)) (a n : Nat) : Bool := xs.any fun x => decide (x.1 < a + n ∧ a < x.1 + x.2)

/-- The accumulator tiles that an instruction names as CD or CS. -/
def TileEntry.tiles (e : TileEntry) : List Nat :=
  match e.op with
  | .tew => [ctlCd e.ctl, ctlCs e.ctl]
  | .tbegin | .tmma | .tmmaSeg | .tclose | .tconv => [ctlCd e.ctl]
  | _ => []

/-- The queued instructions that hold back an access to `n` scratchpad bytes at `a` (R106). -/
def State.tileBlocks (s : State) (store : Bool) (a n : Nat) : List TileEntry :=
  (s.queued.filter fun x => overlapAny (x.1.writes x.2) a n || (store && overlapAny (x.1.reads x.2) a n)).map Prod.fst

/-! ## The deferred trap (R186 to R188) -/

def kDEFER : Nat := pTILE + 0x148

/-- A local register store in the store buffer has still to act on what queued instructions use: the masks, CONV_SEED, CONV_CTRL.
Younger tile instructions wait for it at TR (R118, R149, R163). -/
def State.sbLate (s : State) : Bool :=
  s.cpu.sb.any fun e => match e.kind with
    | .store ps _ => ps.any fun p => match p.1.tgt with
      | .regs off => off == 0x4124 || off == 0x4128 || off == 0x412C || off == 0x5100 || off == 0x5108 || off == 0x510C
      | _ => false
    | _ => false

/-- A trap is pending that the code running now may receive. -/
def State.trapMine (s : State) : Bool :=
  let d := s.reg kDEFER
  d.getLsbD 31 && fld d 24 2 == s.pl && (s.reg (pTILE + 0x14C)).setWidth 16 == s.cpu.tid

/-- TILE_DEFERRED is raised. -/
def State.deliverTrap (s : State) : State :=
  let d := s.reg kDEFER
  let s := s.setReg kDEFER (d &&& 0x3FFFFFFF#32)
  ({ s with cpu := { s.cpu with trapOwed := none } } : State).except cTILEDEFER (w32 (fld d 0 8 + fld d 16 5 * 256)) 0#64

/-- The load or store at TR has waited for an instruction that names the recorded tile, and the recorded instruction is that one
or older; or it did so before the entry of a source took it from TR (R187, R188). -/
def State.waitedForTrap (s : State) : Bool :=
  (s.cpu.waited.any fun w => w.1 == fld (s.reg kDEFER) 16 5 && decide (s.tile.trapSeq ≤ w.2))
    || s.cpu.trapOwed == some (s.cpu.ip, s.tile.trapSeq)

/-- A source is taken at the load or store at TR: a trap that had become deliverable at it stays due there (R188). -/
def State.oweTrap (s : State) : State :=
  let ended := s.cpu.waited.all fun w => s.tile.queue.all fun e => e.seq != w.2
  if !s.cpu.waited.isEmpty && ended && s.trapMine && s.waitedForTrap then { s with cpu := { s.cpu with trapOwed := some (s.cpu.ip, s.tile.trapSeq) } } else s

end Sys2Proof.Machine
end

