-- ==== Sys2Proof/Machine/Lsu.lean ====
section
/-! DEFINITION. Loads and stores at TR and what they leave behind: load data, the store buffer, the move engine
(10_pipeline.md R233, R237, R239, R255; 11_instruction_set.md R272 to R285; 13_caches.md R306 to R318; 15_scratchpad_port.md
R361, R367; R106, R187, R328, R412 to R414). -/

namespace Sys2Proof.Machine

/-! ## Overlap (R106, R239, R318) -/

/-- Two ranges meet. -/
def meet (a n b m : Nat) : Bool := decide (a < b + m ∧ b < a + n)

/-- Two parts of accesses share a byte. -/
def Part.overlaps (p q : Part) : Bool :=
  match p.tgt, q.tgt with
  | .spx a _, .spx b _ => meet a p.len b q.len
  | .phys a, .phys b => meet a p.len b q.len
  | .boot a, .boot b => meet a p.len b q.len
  | _, _ => false

/-- The physical address of a part that is neither scratchpad, register window nor boot window. -/
def Part.phys? (p : Part) : Option Nat :=
  match p.tgt with
  | .phys a => some a
  | _ => none

/-- An entry that younger accesses to these bytes wait for. -/
def State.entryHolds (s : State) (k : SbKind) (p : Part) : Bool :=
  match k with
  | .copy src dst _ _ => (src ++ dst).any p.overlaps
  | .fill dst _ _ => dst.any p.overlaps
  | .movt src _ _ _ => src.any p.overlaps
  | .maint _ line => p.line == some line
  | .preload line _ => p.line == some line
  | .maintSW _ set _ => p.phys?.any fun a => s.lineSet false a == set
  | .invAll => p.phys?.isSome
  | _ => false

def SbKind.hasDevice : SbKind → Bool
  | .store ps _ => ps.any fun p => p.1.device
  | .copy src dst _ _ => (src ++ dst).any fun p => p.device
  | .fill dst _ _ => dst.any fun p => p.device
  | _ => false

/-- The access waits at TR for a unit of the move engine or a maintenance form in the store buffer (R239, R318). -/
def State.sbBlocks (s : State) (ps : List Part) : Bool := s.cpu.sb.any fun e => ps.any fun p => s.entryHolds e.kind p

/-- The queued tile instructions that an access waits for: all of them for a write of TILE_TUSE or TILE_TUSE_OP (R106, R117). -/
def State.tileHolds (s : State) (ps : List Part) (store : Bool) : List TileEntry :=
  ps.flatMap fun p => match p.tgt with
    | .spx off _ => s.tileBlocks store off p.len
    | .regs off => if store && (off == 0x4118 || off == 0x411C) then s.queued.map Prod.fst else []
    | _ => []

/-- The access has waited for these instructions. -/
def State.noteWaited (s : State) (es : List TileEntry) : State :=
  let w := es.flatMap fun e => e.tiles.map fun t => (t, e.seq)
  { s with cpu := { s.cpu with waited := (s.cpu.waited ++ w).eraseDups } }

/-! ## An access at TR (R187, R188, R288) -/

/-- AN ACCESS AT TR: its faults, its waits, the delivery of a deferred trap; else `k` with its parts. -/
def State.atTR (s : State) (a : Acc) (store : Bool) (k : State → List Part → State) : State :=
  let r := s.access a
  match r.2 with
  | .wait => r.1
  | .fault c d x =>
    if c != cPRIV && s.trapMine && s.waitedForTrap then r.1.deliverTrap else r.1.except c d x
  | .parts ps =>
    let es := r.1.tileHolds ps store
    if !es.isEmpty then r.1.noteWaited es
    else if r.1.trapMine && r.1.waitedForTrap then r.1.deliverTrap
    else if r.1.sbBlocks ps then r.1
    else k r.1 ps

/-! ## Loads (R233, R267, R284, R306) -/

/-- The pieces of the store buffer's older bytes that go over a load's: by position (R240). -/
def forwarded (sb : List SbEntry) : Nat → List Part → List (Nat × List Byte)
  | _, [] => []
  | pos, p :: ps =>
    let one (q : Part × List Byte) : List (Nat × List Byte) :=
      let at' (a b : Nat) : List (Nat × List Byte) :=
        if meet a p.len b q.1.len then
          let lo := max a b
          let hi := min (a + p.len) (b + q.1.len)
          [(pos + (lo - a), (q.2.drop (lo - b)).take (hi - lo))]
        else []
      match p.tgt, q.1.tgt with
      | .spx a _, .spx b _ => at' a b
      | .phys a, .phys b => if p.device then [] else at' a b
      | .boot a, .boot b => at' a b
      | _, _ => []
    (sb.flatMap fun e => match e.kind with
      | .store qs _ => qs.flatMap one
      | _ => []) ++ forwarded sb (pos + p.len) ps

/-! ### The order of requests (R379) -/

/-- A tag is older than another: it was given before it. -/
def olderTag (a b : BitVec 16) : Bool := decide (0 < (b - a).toNat ∧ (b - a).toNat < 32768)

/-- The node that a destination names. -/
def Dest.node : Dest → Bool × Nat
  | .reg d _ => (false, d.toNat)
  | .mem d _ => (false, d.toNat)
  | .phys pd pp _ => (true, pd.toNat * 2048 + pp.toNat)

def State.nodeOf (s : State) (pa : Nat) : Option (Bool × Nat) := (s.dest pa).map Dest.node

/-- An access to a part will send a request to a node. -/
def State.partSends (s : State) (n : Bool × Nat) (p : Part) : Bool :=
  match p.tgt with
  | .phys a => s.nodeOf a == some n && !(p.cacheable && (s.findLine false (lineOf a)).isSome)
  | _ => false

/-- An entry of the store buffer will send a request to a node. -/
def State.entrySends (s : State) (n : Bool × Nat) (k : SbKind) : Bool :=
  let dirty (f : Nat × CLine → Bool) : Bool := s.caches.d.lines.any fun x => x.2.dirty && f x && s.nodeOf x.2.line == some n
  match k with
  | .store ps _ => ps.any fun p => s.partSends n p.1
  | .copy src dst _ _ => (src ++ dst).any (s.partSends n)
  | .fill dst _ _ => dst.any (s.partSends n)
  | .sadd id _ _ => n == (false, id.toNat)
  | .maint op line => op != 1 && dirty fun x => x.2.line == line
  | .maintSW op set way => op != 1 && dirty fun x => x.1 == 16 * set + way
  | .preload line way => s.nodeOf line == some n || dirty fun x => x.2.line == line || x.1 == 16 * s.lineSet false line + way
  | _ => false

/-- A request of a load to an address has to let older entries of the store buffer send theirs to that node first. -/
def State.overtakes (s : State) (pa : Nat) (ptag : BitVec 16) : Bool :=
  match s.nodeOf pa with
  | some n => s.cpu.sb.any fun e => olderTag e.tag ptag && s.entrySends n e.kind
  | none => false

/-- The same for what the miss of a line sends: the write-back of its victim, its fill, its prefetch. -/
def State.missOvertakes (s : State) (line w : Nat) (ptag : BitVec 16) : Bool :=
  s.overtakes line ptag || ((s.reg (pCACHE + 0x100)).getLsbD 9 && s.overtakes (line + 64) ptag)
    || s.caches.d.lines.any fun x => x.1 == 16 * s.lineSet false line + w && x.2.dirty && s.overtakes x.2.line ptag

/-! ### The parts of a load in M1 (R233, R306, R307, R367, R378, R414) -/

/-- A read request for a piece of a load; `true`: it has to wait for a tag or for the target. -/
def State.requestPiece (s : State) (pa len : Nat) (device : Bool) (ptag : BitVec 16) (pc : Piece) : State × Bool :=
  let r := s.sendReq (s.readReq pa len s.reqTid device ptag (.load pc))
  match r.2 with
  | .done (.data bs) => (r.1.deliver pc bs, false)
  | .done _ => (r.1.failPiece pc 2 (w64 pa), false)
  | .sent => (r.1, false)
  | .wait => (s, true)

/-- A piece whose line was Dirty and lost: the load receives 0, the machine check is made already (R321). -/
def State.losePiece (s : State) (pc : Piece) : State :=
  (s.modJob pc.job fun j => { j with bad := true, missing := j.missing - pc.len }).settleLoad pc.job

/-- A piece joins the fill of its line. -/
def State.joinFill (s : State) (line : Nat) (pc : Piece) : State :=
  s.setFills (s.caches.fills.map fun f => if !f.ic && f.line == line then { f with pieces := f.pieces ++ [pc] } else f)

/-- A cacheable piece (R306, R307, R311): its lookup is made and counted once. -/
def State.cachedPiece (s : State) (m : M1Part) (pa : Nat) : State × Option M1Part :=
  let line := lineOf pa
  let pc := { m.piece with off := pa - line }
  let r := (if m.looked then s else s.charge 8 1).probe false line (if m.looked then .ok else m.chk) m.ptag
  match r.2 with
  | .hit _ l => (r.1.deliver pc l.data, none)
  | .lost => (r.1.losePiece m.piece, none)
  | .miss =>
    let s := if m.looked then r.1 else r.1.bump (pCACHE + 0x114)
    let held := (s, some { m with looked := true })
    match s.planMiss false line m.nt with
    | .attach => (s.joinFill line pc, none)
    | .wait => held
    | .allocate w =>
      if s.missOvertakes line w m.ptag then held else (s.demandFill false w line m.part.page m.ptag s.reqTid [pc], none)
    | .direct =>
      if s.overtakes pa m.ptag then held
      else
        let q := s.requestPiece pa m.part.len m.part.device m.ptag m.piece
        if q.2 then held else (q.1, none)

/-- Reads of the own scratchpad: one per unit (R25), or one request per 64 bytes in S1 builds (R367). -/
def State.spxPieces (s : State) (off : Nat) (wt : List Bool) (pc : Piece) : State :=
  if s.build.s2 then
    let rd (x : Bool × Nat) : SpxRead :=
      let u := off / 32 + x.2
      let lo := max off (32 * u)
      let hi := min (off + pc.len) (32 * u + 32)
      ⟨⟨pc.job, pc.pos + (lo - off), lo - 32 * u, hi - lo⟩, u, s.unitData u, s.mark u, x.1⟩
    ({ s with spx := { s.spx with reads := s.spx.reads ++ wt.zipIdx.map rd } }).charge 5 wt.length
  else
    ({ s with spx := { s.spx with
        s1offered := s.spx.s1offered ++ [⟨false, off / 64, [], 0, some { pc with off := off % 64 }⟩] } } : State).charge 5
      (unitsIn off pc.len)

/-- A load of a device type waits for older device stores and, where it is strict, for the answers of device accesses (R328). -/
def State.deviceWaits (s : State) (m : M1Part) : Bool :=
  (m.part.device && s.cpu.sb.any fun e => olderTag e.tag m.ptag && e.kind.hasDevice) || (m.part.strict && s.deviceOut)

/-- Performs one part of a load, or answers what is left of it: it has to wait. -/
def State.loadPart (s : State) (m : M1Part) : State × Option M1Part :=
  let p := m.part
  if s.deviceWaits m then (s, some m)
  else
    match p.tgt with
    | .spx off wt => (s.spxPieces off wt m.piece, none)
    | .regs off =>
      let r := ({ s with cpu := { s.cpu with ptag := m.ptag + 1 } } : State).readReg .local off
      (({ r.1 with cpu := { r.1.cpu with ptag := s.cpu.ptag } } : State).deliver m.piece (leBytes r.2.toNat 4), none)
    | .boot a =>
      ({ s with boot := { s.boot with
          offered := s.boot.offered ++ [⟨false, a / 8 * 8, 0, some { m.piece with off := a % 8 }, none, false, m.ptag, false, none⟩] } }, none)
    | .phys pa =>
      if p.cacheable then s.cachedPiece m pa
      else if s.overtakes pa m.ptag then (s, some m)
      else
        let q := s.requestPiece pa p.len p.device m.ptag m.piece
        if q.2 then (s, some m) else (q.1, none)

/-- M1 IN ORDER: its parts are performed, oldest first, up to the first that has to wait; those behind it wait with it (R307). -/
def State.runM1 (s : State) : Nat → State
  | 0 => s
  | n + 1 =>
    match s.cpu.m1 with
    | [] => s
    | m :: rest =>
      let r := ({ s with cpu := { s.cpu with m1 := rest } } : State).loadPart m
      match r.2 with
      | none => r.1.runM1 n
      | some m' => { r.1 with cpu := { r.1.cpu with m1 := m' :: rest } }

/-- The parts of a load with the bytes that they bring. -/
def m1Parts (nt : Bool) (chk : ArrayErr) (ptag : BitVec 16) (job : Nat) : Nat → List Part → List M1Part
  | _, [] => []
  | pos, p :: ps => ⟨p, nt, chk, false, ptag, ⟨job, pos, 0, p.len⟩⟩ :: m1Parts nt chk ptag job (pos + p.len) ps

def partsLen (ps : List Part) : Nat := (ps.map (·.len)).foldl (· + ·) 0

/-- A LOAD COMMITS: its job stands in the list until its bytes have arrived; its parts go through M1. -/
def State.issueLoad (s : State) (d : LoadDest) (ps : List Part) (nt : Bool) (chk : ArrayErr) : State :=
  let n := partsLen ps
  let id := s.cpu.nextJob
  let ptag := s.cpu.ptag
  let job : LoadJob := ⟨id, ptag, d, List.replicate n 0#8, n, false, forwarded s.cpu.sb 0 ps⟩
  let m1 := s.cpu.m1 ++ m1Parts nt chk ptag id 0 ps
  let s : State := { s with cpu := { s.cpu with loads := s.cpu.loads ++ [job], nextJob := id + 1, m1 := m1 } }
  (s.noteSlip ps).runM1 m1.length

/-- A load at TR: its checks and waits, its commit and its reads. -/
def State.load (s : State) (a : Acc) (d : LoadDest) (nt : Bool) (chk : ArrayErr) (done : State → State) : State :=
  s.atTR a false fun s ps => done (s.issueLoad d ps nt chk)

/-! ## Stores (R237, R267, R284, R285) -/

/-- The store buffer has no free entry (R237). -/
def State.sbFull (s : State) : Bool := decide (8 ≤ s.cpu.sb.length)

/-- Puts an entry of the committing instruction into the store buffer. -/
def State.pushSb (s : State) (k : SbKind) : State :=
  { s with cpu := { s.cpu with sb := s.cpu.sb ++ [⟨s.cpu.ptag, s.reqTid, k, false⟩] } }

/-- The lookup error that a store is to meet stands in its line (R321). -/
def State.storeChecks (s : State) (chk : ArrayErr) (ps : List Part) : State :=
  ps.foldl (fun s p => match p.cacheable, p.line.bind (s.findLine false) with
    | true, some (i, l) => s.putLine false i { l with err := worseErr chk l.err }
    | _, _ => s) s

/-- Splits bytes over parts. -/
def overParts : List Part → List Byte → List (Part × List Byte)
  | [], _ => []
  | p :: ps, bs => (p, bs.take p.len) :: overParts ps (bs.drop p.len)

/-- A local register write at commit: a serialising one waits for the store buffer and takes effect at once (R249). -/
def State.storeAtOnce (s : State) (ps : List Part) (bs : List Byte) : Option (Nat × Word) :=
  match ps with
  | [p] => match p.tgt with
    | .regs off => if s.serialising off (w32 (leNat bs)) || off == 0x4118 || off == 0x411C then some (off, w32 (leNat bs)) else none
    | _ => none
  | _ => none

/-- A store at TR: its checks and waits, its commit. -/
def State.store (s : State) (a : Acc) (bs : List Byte) (nt : Bool) (chk : ArrayErr) (done : State → State) : State :=
  s.atTR a true fun s ps =>
    match s.storeAtOnce ps bs with
    | some (off, v) =>
      if !s.cpu.sb.isEmpty || !s.cpu.m1.isEmpty || s.deviceOut || s.writeWaits .local off v then s
      else (done s).writeReg .local off v
    | none =>
      if s.sbFull then s
      else
        let s := if chk = .ok then s else s.storeChecks chk ps
        done (((s.noteSlip ps).storeHits ps).pushSb (.store (overParts ps bs) nt))

/-! ## Performing the head of the store buffer -/

/-- What performing a part gives. -/
inductive Perf where
  | done
  | again
  | wait
deriving DecidableEq, Repr

/-- Drops the store buffer's head. -/
def State.popSb (s : State) : State := { s with cpu := { s.cpu with sb := s.cpu.sb.drop 1 } }
/-- The head waits for something that it has asked for. -/
def State.headWaits (s : State) : State :=
  { s with cpu := { s.cpu with sb := match s.cpu.sb with
      | e :: r => { e with waiting := true } :: r
      | [] => [] } }

/-- Sends a request of the head, which has left the store buffer; where it has to wait it goes back. -/
def State.sendOut (s : State) (e : SbEntry) (q : OutReq) : State × Perf :=
  let r := s.popSb.sendReq q
  match r.2 with
  | .wait => (s, .wait)
  | .sent => (r.1, .done)
  | .done (.err _) => (r.1.useAnswer ⟨0, q.use, 0, false, e.tag, w64 q.pa, false, false⟩ (.err 0), .done)
  | .done _ => (r.1, .done)

/-- The L1I copy of a line goes. -/
def State.dropILine (s : State) (pa : Nat) : State :=
  match s.findLine true (lineOf pa) with
  | some (i, _) => s.dropLine true i
  | none => s

/-- A store is recorded by L1I while that is active (R285, R320). -/
def State.recordStore (s : State) (pa : Nat) : State := if s.cacheOn true then s.dropILine pa else s

/-- Bytes merged into a line at its place, which becomes Dirty. -/
def State.mergeLine (s : State) (i : Nat) (l : CLine) (pa : Nat) (bs : List Byte) : State :=
  (s.putLine false i { l with dirty := true, data := putBytes l.data (pa - l.line) bs }).touchWay false (i / 16) (i % 16)

/-- Bytes written past the cache to their target. -/
def State.writePast (s : State) (e : SbEntry) (p : Part) (pa : Nat) (bs : List Byte) (unit : Bool) : State × Perf :=
  if p.strict && s.deviceOut then (s, .wait)
  else s.sendOut e (s.writeReq pa bs e.tid p.device e.tag (if unit then .moveWrite else .store))

/-- A cacheable store (R306, R307, R310). -/
def State.writeCached (s : State) (e : SbEntry) (p : Part) (pa : Nat) (bs : List Byte) (nt unit : Bool) : State × Perf :=
  let line := lineOf pa
  let first := !e.waiting
  let streams := first && !nt && s.streamsAt pa
  let look (s : State) : State := if first then s.charge 8 1 else s
  let see (s : State) : State := if first && !nt then s.seeStore pa bs.length else s
  let r := s.probe false line .ok e.tag
  match r.2 with
  | .hit i l => (((see (look r.1)).mergeLine i l pa bs).popSb, .done)
  | _ =>
    let s := r.1
    match s.planMiss false line (nt || streams) with
    | .attach => ((see (look s)).headWaits, .wait)
    | .wait => (s, .wait)
    | .allocate w =>
      let s := see (look s)
      let s := if first then s.bump (pCACHE + 0x114) else s
      (s.headWaits.demandFill false w line p.page e.tag e.tid [], .wait)
    | .direct =>
      if s.freeTag.isNone then (s, .wait)
      else
        let s := see (look s)
        let s := if first then s.bump (pCACHE + 0x114) else s
        let s := if streams then s.bump (pCACHE + 0x120) else s
        s.writePast e p pa bs unit

/-- One 64-byte write of the S1 interface. -/
def State.offerWrite (s : State) (off : Nat) (bs : List Byte) : State :=
  let data := List.replicate (off % 64) 0#8 ++ bs ++ List.replicate (64 - (off % 64 + bs.length)) 0#8
  { s with spx := { s.spx with s1offered := s.spx.s1offered
      ++ [⟨true, off / 64, data, BitVec.ofNat 64 ((2 ^ bs.length - 1) * 2 ^ (off % 64)), none⟩] } }

/-- Bytes stored into the own scratchpad. -/
def State.writeSpx (s : State) (off : Nat) (bs : List Byte) (wt : List Bool) (fs : List UnitFlips) : State :=
  if s.build.s2 then
    s.spxWriteAs off bs wt fs
  else (s.spxWriteAs off bs wt fs).offerWrite off bs

/-- Performs one part of a store or of a unit's destination; `.done`: the head has left the store buffer. -/
def State.writePart (s : State) (e : SbEntry) (p : Part) (bs : List Byte) (nt unit : Bool) (fs : List UnitFlips) :
    State × Perf :=
  match p.tgt with
  | .spx off wt => ((s.writeSpx off bs wt fs).popSb, .done)
  | .regs off => if s.deviceOut then (s, .wait) else (s.popSb.writeReg .local off (w32 (leNat bs)), .done)
  | .boot a =>
    (({ s with boot := { s.boot with
        offered := s.boot.offered ++ [⟨true, a, w64 (leNat bs), none, none, false, e.tag, false, none⟩] } } : State).popSb, .done)
  | .phys pa =>
    let r := if p.cacheable then s.writeCached e p pa bs nt unit else s.writePast e p pa bs unit
    (if r.2 == .done then r.1.recordStore pa else r.1, r.2)

/-- What is left of the head after a part stands at the front again. -/
def State.pushHead (s : State) (e : SbEntry) (k : SbKind) : State :=
  { s with cpu := { s.cpu with sb := { e with kind := k, waiting := false } :: s.cpu.sb } }

/-- A part of the head is performed; the rest of it, if any, follows. -/
def State.headPart (s : State) (e : SbEntry) (p : Part) (bs : List Byte) (nt unit : Bool) (fs : List UnitFlips)
    (rest : Option SbKind) : State × Perf :=
  let r := s.writePart e p bs nt unit fs
  match r.2, rest with
  | .done, some k => (r.1.pushHead e k, .again)
  | x, _ => (r.1, x)

/-- Answers are outstanding that a FENCE waits for (R272, R413). -/
def State.storesOut (s : State) : Bool :=
  (s.openTags.any fun t => t.use == .store || t.use == .sadd || t.use == .moveWrite)
    || (s.boot.offered ++ s.boot.out).any (fun b => b.we && !b.debug)
    || (s.spx.s1offered ++ s.spx.s1out).any (fun q => q.we)
    || (s.caches.fills.any fun f => f.preload && f.evicts.isSome) || !s.caches.leaving.isEmpty

/-! ### Cache maintenance (R313 to R318) -/

/-- A Dirty line is written back, counted, and stays Clean; one that cannot be read is lost (R321). -/
def State.cleanLine (s : State) (e : SbEntry) (i : Nat) (l : CLine) : State × Perf :=
  if l.dirty then
    let u := s.useLine false i l .ok 0#16
    match u.2 with
    | .hit _ l =>
      let r := u.1.sendOut e (u.1.writeReq l.line l.data e.tid false e.tag .store)
      if r.2 == .done then ((r.1.bump (pCACHE + 0x11C)).putLine false i { l with dirty := false }, .done) else r
    | _ => (u.1.popSb, .done)
  else (s.popSb, .done)

/-- One maintenance operation on a place that holds a line: 0 clean, 1 invalidate, 2 both. -/
def State.maintain (s : State) (e : SbEntry) (op i : Nat) (l : CLine) : State × Perf :=
  if op = 1 then ((s.dropLine false i).popSb, .done)
  else
    let r := s.cleanLine e i l
    if r.2 == .done && op == 2 then (r.1.dropLine false i, .done) else r

/-- The fills of L1D for which `p` holds discard their data. -/
def State.discardFills (s : State) (p : Fill → Bool) : State :=
  s.setFills (s.caches.fills.map fun f => if !f.ic && p f then { f with discard := true } else f)

/-- A maintenance form on a line. -/
def State.maintLine (s : State) (e : SbEntry) (op line : Nat) : State × Perf :=
  let inval (s : State) : State := if op = 0 then s else s.discardFills fun f => f.line == line
  match s.findLine false line with
  | none => ((inval s).popSb, .done)
  | some (i, l) => s.maintain e op i l

/-- A set/way form. -/
def State.maintPlace (s : State) (e : SbEntry) (op set way : Nat) : State × Perf :=
  if s.ways false ≤ way || s.wayOff false way then (s.popSb, .done)
  else
    let s' := if op = 0 then s else s.discardFills fun f => f.set == set && f.way == way
    match s.caches.d.lines.find? fun x => x.1 == 16 * set + way with
    | none => (s'.popSb, .done)
    | some (i, l) =>
      let r := s.maintain e op i l
      if r.2 == .done && op != 0 then (r.1.discardFills fun f => f.set == set && f.way == way, .done) else r

/-- Every line of a cache goes, every tree bit is cleared (R317). -/
def State.invalidateAll (s : State) (ic : Bool) : State := s.setCache ic ⟨[], []⟩

/-- A preload of L1D (R313). -/
def State.preloadLine (s : State) (e : SbEntry) (line way : Nat) : State × Perf :=
  if s.wayOff false way then (s.popSb, .done)
  else if s.filling false line || s.evicting line || s.wayHeld false (s.lineSet false line) way || 4 ≤ s.dFills
      || s.freeTag.isNone then (s, .wait)
  else
    let fill (s : State) : State := s.popSb.preloadFill false way line e.tag e.tid
    match s.findLine false line with
    | some (i, l) =>
      if i % 16 = way then (fill s, .done)
      else if !l.dirty then (fill (s.dropLine false i), .done)
      else
        let r := s.cleanLine e i l
        if r.2 == .done then ((r.1.dropLine false i).pushHead e (.preload line way), .again) else r
    | none => (fill s, .done)

/-! ### Units of the move engine (R215, R219, R239, R278) -/

/-- A source part of the copy unit at the head is read. -/
def State.readSource (s : State) (e : SbEntry) (p : Part) (nt : Bool) (fs : List UnitFlips) : State × Perf :=
  match p.tgt with
  | .spx off wt =>
    if s.build.s2 then
      let r := s.spxRead 3 (((List.range wt.length).zip fs).map fun x => (off / 32 + x.1, x.2)) off p.len
      if r.2.2.isEmpty then (r.1.headGot r.2.1, .again)
      else
        let q := (r.1.machineCheck 4 false e.tag.toNat (s.spxAddr off)).freeBytes p.len
        (q.1.headGot q.2, .again)
    else
      ((({ s with spx := { s.spx with
          s1offered := s.spx.s1offered ++ [⟨false, off / 64, [], 0, none⟩] } } : State).charge 5 (unitsIn off p.len)).headWaits, .wait)
  | .regs _ => (s.headGot (List.replicate p.len 0#8), .again)
  | .boot a =>
    (({ s with boot := { s.boot with
        offered := s.boot.offered ++ [⟨false, a / 8 * 8, 0, none, none, false, e.tag, false, none⟩] } } : State).headWaits, .wait)
  | .phys pa =>
    let line := lineOf pa
    let first := p.cacheable && !e.waiting
    let s := if first then s.charge 8 1 else s
    let r := if p.cacheable then s.probe false line .ok e.tag else (s, .miss)
    let s := r.1
    match r.2 with
    | .hit _ l => (s.headGot ((l.data.drop (pa - line)).take p.len), .again)
    | .lost =>
      let q := s.freeBytes p.len
      (q.1.headGot q.2, .again)
    | .miss =>
      match if p.cacheable then s.planMiss false line nt else .direct with
      | .attach => (s.headWaits, .wait)
      | .wait => (s, .wait)
      | .allocate w =>
        let s := if first then s.bump (pCACHE + 0x114) else s
        (s.headWaits.demandFill false w line p.page e.tag e.tid [], .wait)
      | .direct =>
        if (p.strict && s.deviceOut) || s.freeTag.isNone then (s, .wait)
        else
          let s := if first then s.bump (pCACHE + 0x114) else s
          let r := s.headWaits.sendReq (s.readReq pa p.len e.tid p.device e.tag (.moveRead 0 p.len))
          match r.2 with
          | .done a => (r.1.useAnswer ⟨0, .moveRead 0 p.len, 0, false, e.tag, w64 pa, false, false⟩ a, .again)
          | _ => (r.1, .wait)

/-- The bytes of a MOVT unit, read through D. -/
def State.movtBytes (s : State) (tag : BitVec 16) (fs : List (Nat × UnitFlips)) : List Part → State × List Byte
  | [] => (s, [])
  | p :: ps =>
    match p.tgt with
    | .spx off _ =>
      let r := s.spxRead 3 fs off p.len
      let q := if r.2.2.isEmpty then (r.1, r.2.1) else (r.1.machineCheck 4 false tag.toNat (s.spxAddr off)).freeBytes p.len
      let x := q.1.movtBytes tag fs ps
      (x.1, q.2 ++ x.2)
    | _ => s.movtBytes tag fs ps

/-- The units of a list of parts, in order, with the flips given for them. -/
def sourceFlips (ps : List Part) (fs : List UnitFlips) : List (Nat × UnitFlips) :=
  ((ps.flatMap fun p => match p.tgt with
    | .spx off wt => (List.range wt.length).map fun k => off / 32 + k
    | _ => []).zip fs)

/-- A MOVT unit sends its message, or loops it back, or drops it (R215, R219, R391). -/
def State.sendTally (s : State) (e : SbEntry) (taw stamp : DWord) (data : List Byte) : State :=
  let dst := hi32 taw
  let slot := taw.toNat / 2 ^ 26 % 64
  let offset := taw.toNat % 2 ^ 21
  if s.liveId == some dst then
    s.contribIn ⟨dst, false, e.tid, BitVec.ofNat 6 slot, BitVec.ofNat 21 offset, stamp, data⟩
  else
    let r := s.post ⟨2, 1, data.length, e.tid, stamp, BitVec.ofNat 56 (slot * 2 ^ 26 + offset), 0, data⟩ dst
    match r.2 with
    | none => r.1
    | some c => if c = eHOLE then r.1.bump kHOLEDROP else r.1.machineCheck 4 false e.tag.toNat 0

def State.performMovt (s : State) (e : SbEntry) (src : List Part) (taw stamp : DWord) (drop : Bool) (fs : List UnitFlips) :
    State × Perf :=
  if drop then (s.popSb, .done)
  else
    let r := s.movtBytes e.tag (sourceFlips src fs) src
    (r.1.popSb.sendTally e taw stamp r.2, .done)

/-! ### The head -/

/-- Its answer is outstanding: the read of a copy unit's source. -/
def State.headAsked (s : State) : Bool :=
  (s.openTags.any fun t => match t.use with
    | .moveRead _ _ => true
    | _ => false)
    || (s.boot.offered ++ s.boot.out).any (fun b => !b.we && b.piece.isNone && b.header.isNone && !b.fetch && !b.debug && b.walk.isNone)
    || (s.spx.s1offered ++ s.spx.s1out).any (fun q => !q.we && q.piece.isNone)

/-- Does what the head asks for next; `fs`: bits that the scratchpad returns flipped. -/
def State.performHead (s : State) (fs : List UnitFlips) : State × Perf :=
  match s.cpu.sb with
  | [] => (s, .wait)
  | e :: _ =>
    match e.kind with
    | .store [] _ => (s.popSb, .done)
    | .store ((p, bs) :: []) nt => s.headPart e p bs nt false fs none
    | .store ((p, bs) :: q) nt => s.headPart e p bs nt false fs (some (.store q nt))
    | .sadd id n v =>
      s.sendOut e ⟨5, e.tid, 4, leBytes v.toNat 4, some (.mem id n.toNat), 0, false, e.tag, .sadd⟩
    | .fence => if s.storesOut then (s, .wait) else (s.popSb, .done)
    | .maint op line => s.maintLine e op line
    | .maintSW op set way => s.maintPlace e op set way
    | .invAll => (((s.invalidateAll false).discardFills fun _ => true).popSb, .done)
    | .preload line way => s.preloadLine e line way
    | .copy (p :: _) _ nt _ => if s.headAsked then (s, .wait) else s.readSource e p nt fs
    | .copy [] [] _ _ => (s.popSb, .done)
    | .copy [] (p :: []) nt got => s.headPart e p got nt true fs none
    | .copy [] (p :: q) nt got => s.headPart e p (got.take p.len) nt true fs (some (.copy [] q nt (got.drop p.len)))
    | .fill [] _ _ => (s.popSb, .done)
    | .fill (p :: []) bs nt => s.headPart e p bs nt true fs none
    | .fill (p :: q) bs nt => s.headPart e p (bs.take p.len) nt true fs (some (.fill q (bs.drop p.len) nt))
    | .movt src taw st drop => s.performMovt e src taw st drop fs

/-- The head goes on until it is done or has to wait; at most four parts. -/
def State.performAll (s : State) (fs : List UnitFlips) : Nat → State
  | 0 => s
  | n + 1 =>
    let r := s.performHead fs
    match r.2 with
    | .again => r.1.performAll fs n
    | _ => r.1

def SbKind.isMove : SbKind → Bool
  | .copy _ _ _ _ => true
  | .fill _ _ _ => true
  | .movt _ _ _ _ => true
  | _ => false

/-- The store buffer's oldest entry is performed, where it is a move unit or not as asked; it waits for older loads in M1 (R307). -/
def State.performSb (s : State) (move : Bool) (fs : List UnitFlips) : State :=
  match s.cpu.sb with
  | [] => s
  | e :: _ =>
    if e.kind.isMove == move && !(s.cpu.m1.any fun m => olderTag m.ptag e.tag) then s.performAll fs 6 else s

/-! ## Accesses of the debug port through the data cache (R306, R456) -/

/-- What the debug ports read out. -/
def State.dbgOut (s : State) (v : DWord) : State := { s with dbg := { s.dbg with out := v } }

/-- The debug port may send this request: a fenced or draining core sends none of its own (R396, R398). -/
def State.dbgMaySend (s : State) (d : Option Dest) : Bool :=
  (s.ras.fence.isNone && s.rst.phase != .drain) || (d.bind Dest.logical).any fun d => s.liveId == some d.1

/-- A fabric access of the debug port: the answer comes later, or at once where nothing is sent. -/
def State.dbgSend (s : State) (q : OutReq) : State :=
  let r := if s.dbgMaySend q.dest then s.sendReq q else (s, .done (.err eHOLE))
  match r.2 with
  | .done a => r.1.useAnswer ⟨0, q.use, 0, false, 0, w64 q.pa, q.device, false⟩ a
  | _ => r.1

/-- The access past the cache: a read, or the write of a value. -/
def State.dbgPast (s : State) (pa : Nat) (v : Option DWord) : State :=
  let n := if inRegWindow pa then 4 else 8
  match v with
  | none => s.dbgSend (s.readReq pa n 0 true 0 (.debug (some n)))
  | some v => s.dbgSend (s.writeReq pa (leBytes v.toNat n) 0 true 0 (.debug none))

/-- A cacheable access of the debug port: on a miss it allocates as any access does, and waits. -/
def State.dbgCached (s : State) (pa : Nat) (v : Option DWord) (first : Bool) : State :=
  let line := lineOf pa
  let held (s : State) : State := { s with dbg := { s.dbg with miss := some (pa, v) } }
  let free (s : State) : State := { s with dbg := { s.dbg with miss := none } }
  let r := (if first then s.charge 8 1 else s).probe false line .ok 0
  match r.2, v with
  | .hit _ l, none => (free r.1).dbgOut (w64 (leNat ((l.data.drop (pa - line)).take 8)))
  | .hit i l, some v => ((free r.1).mergeLine i l pa (leBytes v.toNat 8)).recordStore pa
  | .lost, none => (free r.1).dbgOut 0
  | _, v =>
    let s := if first then r.1.bump (pCACHE + 0x114) else r.1
    if !s.dbgMaySend (s.dest line) then (free s).dbgPast pa v
    else
    match s.planMiss false line false with
    | .attach => held s
    | .wait => held s
    | .allocate w => (held s).demandFill false w line 64 0 0 []
    | .direct => (free s).dbgPast pa v

/-- A register write of the debug port, as a store at level M; one that must wait for the store buffer is kept (R249). -/
def State.dbgReg (s : State) (off : Nat) (v : DWord) : State :=
  if s.writeWaits .remote off (lo32 v) then
    { s with dbg := { s.dbg with miss := some (0xFFFFFFFFFF0000 + off, some v) } }
  else ({ s with dbg := { s.dbg with miss := none } } : State).writeReg .local off (lo32 v)

/-- An access of the debug port that waited is tried again. -/
def State.dbgRetry (s : State) : State :=
  match s.dbg.miss with
  | some (pa, v) =>
    match s.physTarget pa with
    | .regs off => s.dbgReg off (v.getD 0#64)
    | _ => s.dbgCached pa v false
  | none => s

/-! ## Data from the scratchpad and the BOOT port (R32, R361, R367, R414) -/

/-- The oldest unit read returns with bits flipped (R361). -/
def State.spxData (s : State) (fl : UnitFlips) : State :=
  match s.spx.reads with
  | [] => s
  | r :: rest =>
    let s : State := { s with spx := { s.spx with reads := rest } }
    if s.unitDown r.unit then (s.spxUncorr r.unit 2 r.weight false false).failPiece r.piece 1 (s.spxAddr (32 * r.unit))
    else
    let m := { r.mark with flips := r.mark.flips ^^^ fl }
    let s := if s.mark r.unit == r.mark && s.unitData r.unit == r.data then s.setMark m else s
    let q := s.finishRead r.unit 2 r.weight (wordsNeeded r.piece.off r.piece.len) m m.flips r.data
    if q.2.2 then q.1.failPiece r.piece 1 (s.spxAddr (32 * r.unit)) else q.1.deliver r.piece q.2.1

/-- The corrected unit is written back (R361); words that cannot be corrected are left as stored. -/
def State.corrWriteback (s : State) : State :=
  match s.spx.corr with
  | [] => s
  | u :: rest =>
    let s : State := { s with spx := { s.spx with corr := rest } }
    let m := s.mark u
    let w := s.weightClass u
    let old := s.unitData u
    let r := decodeUnit w m old m.flips
    if r.beyond || (w && r.bad != 0#4) then s
    else
      let bytes := (List.range 4).flatMap fun k => ((if r.bad.getLsbD k then old else r.data).drop (8 * k)).take 8
      let m' : UnitMark := if w then ⟨u, 0xF#4, 0#4, 0#288, none⟩
        else { m with weight := m.weight &&& r.bad, flips := clearWords m.flips (~~~r.bad), base := m.baseAfter old }
      if s.unitDown u then s else (s.charge 6 1).putUnit u 0 bytes m'

/-- The S1 request that is offered is accepted: at most 16 are outstanding (R27); a scrub offers its next (R367). -/
def State.s1Accept (s : State) : State :=
  match s.spx.s1offered with
  | [] => s
  | q :: rest =>
    if s.spx.s1out.length < 16 then
      let s : State := { s with spx := { s.spx with s1offered := rest, s1out := s.spx.s1out ++ [q] } }
      if s.rst.phase == .scrub && decide (s.rst.scrubAt < s.build.capacity / 64) then
        { s with
          rst := { s.rst with scrubAt := s.rst.scrubAt + 1 }
          spx := { s.spx with s1offered := s.spx.s1offered ++ [scrubReq s.rst.scrubAt] } }
      else s
    else s

/-- An error of the S1 scratchpad (R27, R361, R433). -/
def State.s1Error (s : State) (addr reader : Nat) : State :=
  let a := w64 (64 * addr)
  let code := uncorrCode reader false false 0
  (s.raiseErr pSPX ⟨1, code, s.stamp, a⟩).rasCount 0x80 .uncorrectable code a

/-- The oldest outstanding S1 request is answered. -/
def State.s1Response (s : State) (data : List Byte) (err : Bool) : State :=
  match s.spx.s1out with
  | [] => s
  | q :: rest =>
    let s : State := { s with spx := { s.spx with s1out := rest } }
    if q.we then s
    else
      let s := if err then s.s1Error q.addr (if q.piece.isSome then 2 else 3) else s
      match q.piece with
      | some p => if err then s.failPiece p 1 (s.spxAddr (64 * q.addr)) else s.deliver p data
      | none =>
        match s.cpu.sb with
        | e :: _ =>
          match e.kind with
          | .copy (p :: _) _ _ _ =>
            if err then
              let r := (s.machineCheck 4 false e.tag.toNat (s.spxAddr (64 * q.addr))).freeBytes p.len
              r.1.headGot r.2
            else
              match p.tgt with
              | .spx off _ => s.headGot ((data.drop (off % 64)).take p.len)
              | _ => s
          | _ => s
        | [] => s

/-- The offered boot request is accepted: at most four are outstanding (R32). -/
def State.bootAccept (s : State) : State :=
  match s.boot.offered with
  | [] => s
  | q :: rest =>
    if s.porter && s.boot.out.length < 4 then { s with boot := { s.boot with offered := rest, out := s.boot.out ++ [q] } } else s

/-- The oldest outstanding boot request is answered (R414, R415). -/
def State.bootResponse (s : State) (data : DWord) (err : Bool) : State :=
  match s.boot.out with
  | [] => s
  | q :: rest =>
    let s : State := { s with boot := { s.boot with out := rest } }
    let a := w64 (0xFC000000000000 + q.addr)
    match q.header with
    | some n =>
      let s : State := { s with boot := { s.boot with header := s.boot.header ++ [data], bad := s.boot.bad || err } }
      if n = 3 then s.headerDone else s
    | none =>
      if q.debug then
        if q.we || err || s.dbg.wir != 0x11#8 then s else { s with dbg := { s.dbg with out := data } }
      else if q.fetch then
        if err then s.machineCheck 2 false 0 a else s.keepFetch (2, q.addr / 8)
      else if q.walk.isSome then s.walkGot (q.walk.getD 0) (if err then none else some data)
      else if q.we then (if err then s.machineCheck 2 false q.ptag.toNat a else s)
      else
        match q.piece with
        | some p => if err then s.failPiece p 2 a else s.deliver p (leBytes data.toNat 8)
        | none =>
          match s.cpu.sb with
          | e :: _ =>
            match e.kind with
            | .copy (p :: _) _ _ _ =>
              if err then
                let r := (s.machineCheck 4 false q.ptag.toNat a).freeBytes p.len
                r.1.headGot r.2
              else
                match p.tgt with
                | .boot b => s.headGot (((leBytes data.toNat 8).drop (b % 8)).take p.len)
                | _ => s
            | _ => s
          | [] => s

end Sys2Proof.Machine
end

