-- ==== Sys2Proof/Machine/Integer.lean ====
section
/-! DEFINITION. Integer, move, divide and bit instructions (11_instruction_set.md R258, R265, R266, R269, R282; R238). -/

namespace Sys2Proof.Machine

/-- The outcome of a command. -/
abbrev Out := Host.Outcome State Fault Refusal

/-! ## Shared forms -/

/-- An integer operation: the result, and FLAGS where X is 1 (R266). -/
def State.intOp (s : State) (o : IntArgs) (f : DWord → DWord → DWord) (k : DWord → DWord → DWord → Cond) : State :=
  s.instr (srcLen o.b) (o.d :: o.a :: srcRegs o.b) [] fun s =>
    let a := s.g o.a
    let b := s.intSrc o.b
    let s' := s.setG o.d (f a b)
    (if o.x then s'.setFlags (setCond s.cpu.flags (k a b (f a b))) else s').commit (srcLen o.b)

/-- CMP and TST: flags alone. -/
def State.intTest (s : State) (a : GReg) (b : IntSrc) (k : DWord → DWord → Cond) : State :=
  s.instr (srcLen b) (a :: srcRegs b) [] fun s =>
    (s.setFlags (setCond s.cpu.flags (k (s.g a) (s.intSrc b)))).commit (srcLen b)

/-- An instruction that writes G[D] from G[A]. -/
def State.unary (s : State) (len : Nat) (d a : GReg) (f : DWord → DWord) : State :=
  s.instr len [d, a] [] fun s => (s.setG d (f (s.g a))).commit len

/-- The same where the immediate must be in range; else UNDEF. -/
def State.unaryIf (s : State) (ok : Bool) (len : Nat) (d a : GReg) (f : DWord → DWord) : State :=
  if ok then s.unary len d a f else s.instr len [d, a] [] State.undef

/-- A constant into G[D]. -/
def State.moveImm (s : State) (len : Nat) (d : GReg) (v : DWord) : State :=
  s.instr len [d] [] fun s => (s.setG d v).commit len

/-- An integer division: it waits for the unit, faults on a zero divisor, else the unit works on beside the pipe (R238, R269). -/
def State.divide (s : State) (op : DivOp) (x : Bool) (d a b : GReg) : State :=
  s.instr 3 [d, a, b] [] fun s =>
    if s.cpu.div.isSome then s
    else if divByZero x (s.g b) then s.except cDIVIDE 0#32 0#64
    else
      ({ s with cpu := { s.cpu with div := some ⟨false, d, divResult op x (s.g a) (s.g b), 0⟩ } }).commit 3

/-- The result of the divide-and-root unit is written with its flags (R238). -/
def State.divideDone (s : State) : State :=
  match s.cpu.div with
  | none => s
  | some j =>
    let s : State := { s with cpu := { s.cpu with div := none, flags := addSticky s.cpu.flags j.sticky } }
    if j.fp then s.setF j.dest j.val else s.setG j.dest j.val

/-- Whether CRC control bits [7:4] are clear. -/
def crcCtlOk (c : Byte) : Bool := c.toNat < 16
def crcSel (c : Byte) : Nat := c.toNat % 4
/-- W: 1, 2, 4 or 8 bytes. -/
def crcWidth (c : Byte) : Nat := 2 ^ (c.toNat / 4 % 4)

/-! ## Meanings -/

/-- ADD (R266). -/
def execAdd (o : IntArgs) (s : State) : Out :=
  .next (s.intOp o (fun a b => a + b) (fun a b _ => condAdd a b))

/-- SUB (R266). -/
def execSub (o : IntArgs) (s : State) : Out :=
  .next (s.intOp o (fun a b => a - b) (fun a b _ => condSub a b))

/-- AND (R266). -/
def execAnd (o : IntArgs) (s : State) : Out :=
  .next (s.intOp o (fun a b => a &&& b) fun _ _ r => condLogic r)

/-- OR (R266). -/
def execOr (o : IntArgs) (s : State) : Out :=
  .next (s.intOp o (fun a b => a ||| b) fun _ _ r => condLogic r)

/-- XOR (R266). -/
def execXor (o : IntArgs) (s : State) : Out :=
  .next (s.intOp o (fun a b => a ^^^ b) fun _ _ r => condLogic r)

/-- ANDN (R266). -/
def execAndn (o : IntArgs) (s : State) : Out :=
  .next (s.intOp o (fun a b => a &&& ~~~b) fun _ _ r => condLogic r)

/-- SHL (R266). -/
def execShl (o : IntArgs) (s : State) : Out :=
  .next (s.intOp o (fun a b => a <<< shAmt b) fun _ _ r => condLogic r)

/-- SHR (R266). -/
def execShr (o : IntArgs) (s : State) : Out :=
  .next (s.intOp o (fun a b => a >>> shAmt b) fun _ _ r => condLogic r)

/-- SAR (R266). -/
def execSar (o : IntArgs) (s : State) : Out :=
  .next (s.intOp o (fun a b => a.sshiftRight (shAmt b)) fun _ _ r => condLogic r)

/-- ROL (R266). -/
def execRol (o : IntArgs) (s : State) : Out :=
  .next (s.intOp o (fun a b => a.rotateLeft (shAmt b)) fun _ _ r => condLogic r)

/-- ROR (R266). -/
def execRor (o : IntArgs) (s : State) : Out :=
  .next (s.intOp o (fun a b => a.rotateRight (shAmt b)) fun _ _ r => condLogic r)

/-- MUL (R266). -/
def execMul (o : IntArgs) (s : State) : Out :=
  .next (s.intOp o (fun a b => a * b) fun _ _ r => condLogic r)

/-- MULH (R266). -/
def execMulh (o : IntArgs) (s : State) : Out := .next (s.intOp o mulh fun _ _ r => condLogic r)

/-- MULHU (R266). -/
def execMulhu (o : IntArgs) (s : State) : Out := .next (s.intOp o mulhu fun _ _ r => condLogic r)

/-- CMP (R266). -/
def execCmp (a : GReg) (b : IntSrc) (s : State) : Out := .next (s.intTest a b condSub)

/-- TST (R266). -/
def execTst (a : GReg) (b : IntSrc) (s : State) : Out := .next (s.intTest a b fun x y => condLogic (x &&& y))

/-- DIV (R269). -/
def execDiv (x : Bool) (d a b : GReg) (s : State) : Out := .next (s.divide .div x d a b)

/-- DIVU (R269). -/
def execDivu (x : Bool) (d a b : GReg) (s : State) : Out := .next (s.divide .divu x d a b)

/-- REM (R269). -/
def execRem (x : Bool) (d a b : GReg) (s : State) : Out := .next (s.divide .rem x d a b)

/-- REMU (R269). -/
def execRemu (x : Bool) (d a b : GReg) (s : State) : Out := .next (s.divide .remu x d a b)

/-- DIVIDE_COMPLETE (R238). -/
def execDivideComplete (s : State) : Out := .next s.divideDone

/-- MOV. -/
def execMov (d a : GReg) (s : State) : Out := .next (s.unary 3 d a id)

/-- MOVI16. -/
def execMovi16 (d : GReg) (imm : BitVec 16) (s : State) : Out := .next (s.moveImm 5 d (imm.signExtend 64))

/-- MOVI32. -/
def execMovi32 (d : GReg) (imm : BitVec 32) (s : State) : Out := .next (s.moveImm 7 d (imm.signExtend 64))

/-- MOVI64. -/
def execMovi64 (d : GReg) (imm : BitVec 64) (s : State) : Out := .next (s.moveImm 11 d imm)

/-- MOVZ32. -/
def execMovz32 (d a : GReg) (s : State) : Out := .next (s.unary 3 d a fun v => (v.setWidth 32).setWidth 64)

/-- MOVS32. -/
def execMovs32 (d a : GReg) (s : State) : Out := .next (s.unary 3 d a fun v => (v.setWidth 32).signExtend 64)

/-- PARITY: w from 1 to 64. -/
def execParity (d a : GReg) (n : Byte) (s : State) : Out :=
  .next (s.unaryIf (decide (1 ≤ n.toNat ∧ n.toNat ≤ 64)) 5 d a (parityOf n.toNat))

/-- BREV: w 8, 16, 32 or 64. -/
def execBrev (d a : GReg) (n : Byte) (s : State) : Out :=
  .next (s.unaryIf (n == 8#8 || n == 16#8 || n == 32#8 || n == 64#8) 5 d a (brevOf n.toNat))

/-- BREVN: k from 1 to 64. -/
def execBrevn (d a : GReg) (n : Byte) (s : State) : Out :=
  .next (s.unaryIf (decide (1 ≤ n.toNat ∧ n.toNat ≤ 64)) 5 d a (brevnOf n.toNat))

/-- POPC. -/
def execPopc (d a : GReg) (s : State) : Out := .next (s.unary 4 d a fun v => w64 (popLow v 64))

/-- CLZ. -/
def execClz (d a : GReg) (s : State) : Out := .next (s.unary 4 d a fun v => w64 (clzLow v 64))

/-- CTZ. -/
def execCtz (d a : GReg) (s : State) : Out := .next (s.unary 4 d a fun v => w64 (ctzFrom v 64))

/-- CRCSTEP (R282). -/
def execCrcstep (d a : GReg) (ctl : Byte) (s : State) : Out :=
  .next (s.instr 5 [d, a] [] fun s =>
    if crcCtlOk ctl then (s.setG d (s.crc (crcSel ctl) (s.g d) (leBytes (s.g a).toNat (crcWidth ctl)))).commit 5
    else s.undef)

/-- UNDEFINED_INSTRUCTION (R4, R263 to R265). -/
def execUndefinedInstruction (s : State) : Out := .next (s.instr 1 [] [] State.undef)

end Sys2Proof.Machine
end

