-- ==== Sys2Proof/Machine/Float.lean ====
section
/-! DEFINITION. Scalar floating-point instructions (11_instruction_set.md R259, R270, R72 to R75; R238). -/

namespace Sys2Proof.Machine

/-- Rounding of a conversion: toward zero under TZ (R263, R270). -/
def rndOf (tz : Bool) : Rnd := if tz then .tz else .rne
/-- The length of a form of `n` bytes with a prefix given or not. -/
def withPrefix (n : Nat) (p : Bool) : Nat := n + (if p then 1 else 0)

def State.sticky (s : State) (x : Sticky) : State := s.setFlags (addSticky s.cpu.flags x)

/-- F[D] from F[A] and F[B], with the exceptions that arise. -/
def State.fpOp2 (s : State) (d a b : FReg) (f : DWord → DWord → DWord × Sticky) : State :=
  s.instr 3 [] [d, a, b] fun s =>
    let r := f (s.f a) (s.f b)
    ((s.setF d r.1).sticky r.2).commit 3

/-- F[D] from F[A]. -/
def State.fpOp1 (s : State) (len : Nat) (d a : FReg) (f : DWord → DWord × Sticky) : State :=
  s.instr len [] [d, a] fun s =>
    let r := f (s.f a)
    ((s.setF d r.1).sticky r.2).commit len

/-- An operation of the divide-and-root unit (R238). -/
def State.fpBeside (s : State) (srcs : List FReg) (d : FReg) (f : State → DWord × Sticky) : State :=
  s.instr 3 [] (d :: srcs) fun s =>
    if s.cpu.div.isSome then s
    else ({ s with cpu := { s.cpu with div := some ⟨true, d, (f s).1, (f s).2⟩ } }).commit 3

/-- FADD (R270). -/
def execFadd (x : Bool) (d a b : FReg) (s : State) : Out := .next (s.fpOp2 d a b (fpBin FVal.add (.ofX x)))

/-- FSUB (R270). -/
def execFsub (x : Bool) (d a b : FReg) (s : State) : Out := .next (s.fpOp2 d a b (fpBin FVal.sub (.ofX x)))

/-- FMUL (R270). -/
def execFmul (x : Bool) (d a b : FReg) (s : State) : Out := .next (s.fpOp2 d a b (fpBin FVal.mul (.ofX x)))

/-- FMIN (R270). -/
def execFmin (x : Bool) (d a b : FReg) (s : State) : Out := .next (s.fpOp2 d a b (fpSel fvMin (.ofX x)))

/-- FMAX (R270). -/
def execFmax (x : Bool) (d a b : FReg) (s : State) : Out := .next (s.fpOp2 d a b (fpSel fvMax (.ofX x)))

/-- FDIV (R238, R270). -/
def execFdiv (x : Bool) (d a b : FReg) (s : State) : Out :=
  .next (s.fpBeside [a, b] d fun s => fpDiv (.ofX x) (s.f a) (s.f b))

/-- FSQRT (R238, R270). -/
def execFsqrt (x : Bool) (d a : FReg) (s : State) : Out := .next (s.fpBeside [a] d fun s => fpSqrt (.ofX x) (s.f a))

/-- FMA: F[D] + F[A] * F[B] with one rounding (R270). -/
def execFma (x : Bool) (d a b : FReg) (s : State) : Out :=
  .next (s.instr 3 [] [d, a, b] fun s =>
    let r := fpFma (.ofX x) (s.f d) (s.f a) (s.f b)
    ((s.setF d r.1).sticky r.2).commit 3)

/-- FCMP (R270). -/
def execFcmp (x : Bool) (a b : FReg) (s : State) : Out :=
  .next (s.instr 3 [] [a, b] fun s =>
    let p := Prec.ofX x
    let s' := s.setFlags (setCond s.cpu.flags (condFcmp (fpRead p (s.f a)) (fpRead p (s.f b))))
    (s'.sticky (if fpSnan p (s.f a) || fpSnan p (s.f b) then stINV else 0)).commit 3)

/-- FNEG (R74). -/
def execFneg (x : Bool) (d a : FReg) (s : State) : Out :=
  .next (s.fpOp1 3 d a fun v => (fpBits (.ofX x) v ^^^ fpSignBit (.ofX x), 0))

/-- FABS (R74). -/
def execFabs (x : Bool) (d a : FReg) (s : State) : Out :=
  .next (s.fpOp1 3 d a fun v => (fpBits (.ofX x) v &&& ~~~fpSignBit (.ofX x), 0))

/-- FMOV (R74). -/
def execFmov (x : Bool) (d a : FReg) (s : State) : Out := .next (s.fpOp1 3 d a fun v => (fpBits (.ofX x) v, 0))

/-- FCVT: X = 1 widens binary32, X = 0 narrows binary64 (R270). -/
def execFcvt (tz x : Bool) (d a : FReg) (s : State) : Out :=
  .next (s.fpOp1 (withPrefix 3 tz) d a (fpCvt (if x then .single else .double) (rndOf tz)))

/-- FCVTI: an invalid conversion sets INV alone (R270). -/
def execFcvti (tz x : Bool) (d : GReg) (a : FReg) (s : State) : Out :=
  .next (s.instr (withPrefix 3 tz) [d] [a] fun s =>
    let r := fvToInt 64 stINV (rndOf tz) (fpRead (.ofX x) (s.f a))
    ((s.setG d r.1).sticky r.2).commit (withPrefix 3 tz))

/-- ICVTF (R270). -/
def execIcvtf (tz x : Bool) (d : FReg) (a : GReg) (s : State) : Out :=
  .next (s.instr (withPrefix 3 tz) [a] [d] fun s =>
    let r := fpWrite (.ofX x) (rndOf tz) (FVal.ofInt (s.g a).toInt)
    ((s.setF d r.1).sticky r.2).commit (withPrefix 3 tz))

/-- MOVFG (R74). -/
def execMovfg (x : Bool) (d : GReg) (a : FReg) (s : State) : Out :=
  .next (s.instr 3 [d] [a] fun s => (s.setG d (fpBits (.ofX x) (s.f a))).commit 3)

/-- MOVGF (R74). -/
def execMovgf (x : Bool) (d : FReg) (a : GReg) (s : State) : Out :=
  .next (s.instr 3 [a] [d] fun s => (s.setF d (fpBits (.ofX x) (s.g a))).commit 3)

end Sys2Proof.Machine
end

