-- ==== Sys2Proof/Machine/Vector.lean ====
section
/-! DEFINITION. Vector arithmetic and conversions (12_vector_extension.md R289 to R297). -/

namespace Sys2Proof.Machine

/-! ## Shared forms -/

/-- The length of a vector form of `n` bytes (R291). -/
def vLen (n : Nat) (wide : Bool) : Nat := withPrefix n wide

/-- A vector form that is not defined: UNDEF (R291). -/
def State.vUndef (s : State) (len : Nat) : State := s.instr len [] [] State.undef

/-- Vd from views Va and Vb of one width (R292). -/
def State.vecOp2 (s : State) (ok wide : Bool) (d b a : FReg) (f : VView → VView → VView × Sticky) : State :=
  if ok && viewOk wide d && viewOk wide b && viewOk wide a then
    s.instr (vLen 4 wide) [] (viewList wide d ++ viewList wide b ++ viewList wide a) fun s =>
      let r := f (s.view wide a) (s.view wide b)
      ((s.setView wide d r.1).sticky r.2).commit (vLen 4 wide)
  else s.vUndef (vLen 4 wide)

/-- The element-wise integer form. -/
def State.vecInt2 (s : State) (ok wide : Bool) (sz : Fin 4) (d b a : FReg) (f : Nat → Nat → Nat) : State :=
  s.vecOp2 ok wide d b a fun x y => (vMap2 (viewBits wide) (vWidth sz) f x y, 0)

/-- Vd from Va, with an immediate or not; `len` without prefixes. -/
def State.vecOp1 (s : State) (ok wide : Bool) (len : Nat) (d a : FReg) (f : VView → VView × Sticky) : State :=
  if ok && viewOk wide d && viewOk wide a then
    s.instr len [] (viewList wide d ++ viewList wide a) fun s =>
      let r := f (s.view wide a)
      ((s.setView wide d r.1).sticky r.2).commit len
  else s.vUndef len

/-- The element-wise integer form. -/
def State.vecInt1 (s : State) (ok wide : Bool) (len : Nat) (sz : Fin 4) (d a : FReg) (f : Nat → Nat) : State :=
  s.vecOp1 ok wide len d a fun x => (vMap1 (viewBits wide) (vWidth sz) f x, 0)

/-- Fixed views: Vd as a Q or D view from Va as the other (R291). -/
def State.vecFixed (s : State) (ok dq aq : Bool) (len : Nat) (d a : FReg) (f : VView → VView × Sticky) : State :=
  if ok && viewOk dq d && viewOk aq a then
    s.instr len [] (viewList dq d ++ viewList aq a) fun s =>
      let r := f (s.view aq a)
      ((s.setView dq d r.1).sticky r.2).commit len
  else s.vUndef len

/-- Sizes of floating-point operations: binary32 and binary64 (R296). -/
def fpSize (sz : Fin 4) : Bool := 2 ≤ sz.val

/-! ## Integer and bit operations (R294) -/

/-- VADD. -/
def execVadd (wide : Bool) (sz : Fin 4) (d b a : FReg) (s : State) : Out :=
  .next (s.vecInt2 true wide sz d b a (elAdd (vWidth sz)))

/-- VSUB. -/
def execVsub (wide : Bool) (sz : Fin 4) (d b a : FReg) (s : State) : Out :=
  .next (s.vecInt2 true wide sz d b a (elSub (vWidth sz)))

/-- VMUL. -/
def execVmul (wide : Bool) (sz : Fin 4) (d b a : FReg) (s : State) : Out :=
  .next (s.vecInt2 true wide sz d b a (elMul (vWidth sz)))

/-- VMIN. -/
def execVmin (wide x : Bool) (sz : Fin 4) (d b a : FReg) (s : State) : Out :=
  .next (s.vecInt2 true wide sz d b a (elMin (vWidth sz) x))

/-- VMAX. -/
def execVmax (wide x : Bool) (sz : Fin 4) (d b a : FReg) (s : State) : Out :=
  .next (s.vecInt2 true wide sz d b a (elMax (vWidth sz) x))

/-- VCMPEQ. -/
def execVcmpeq (wide : Bool) (sz : Fin 4) (d b a : FReg) (s : State) : Out :=
  .next (s.vecInt2 true wide sz d b a fun x y => elMask (vWidth sz) (x == y))

/-- VCMPGT. -/
def execVcmpgt (wide x : Bool) (sz : Fin 4) (d b a : FReg) (s : State) : Out :=
  .next (s.vecInt2 true wide sz d b a fun p q => elMask (vWidth sz) (decide (elInt (vWidth sz) x q < elInt (vWidth sz) x p)))

/-- VSHL. -/
def execVshl (wide : Bool) (sz : Fin 4) (d b a : FReg) (s : State) : Out :=
  .next (s.vecInt2 true wide sz d b a fun x y => elShl (vWidth sz) x (y % vWidth sz))

/-- VSHR. -/
def execVshr (wide x : Bool) (sz : Fin 4) (d b a : FReg) (s : State) : Out :=
  .next (s.vecInt2 true wide sz d b a fun p q => elShr (vWidth sz) x p (q % vWidth sz))

/-- VSHLI: I8 from 0 to w - 1. -/
def execVshli (wide : Bool) (sz : Fin 4) (d a : FReg) (n : Byte) (s : State) : Out :=
  .next (s.vecInt1 (decide (n.toNat < vWidth sz)) wide (vLen 5 wide) sz d a fun p => elShl (vWidth sz) p n.toNat)

/-- VSHRI. -/
def execVshri (wide x : Bool) (sz : Fin 4) (d a : FReg) (n : Byte) (s : State) : Out :=
  .next (s.vecInt1 (decide (n.toNat < vWidth sz)) wide (vLen 5 wide) sz d a fun p => elShr (vWidth sz) x p n.toNat)

/-- VDUP. -/
def execVdup (wide : Bool) (sz : Fin 4) (d : FReg) (a : GReg) (s : State) : Out :=
  .next (if viewOk wide d then
    s.instr (vLen 4 wide) [a] (viewList wide d) fun s =>
      let e := (s.g a).toNat % 2 ^ vWidth sz
      (s.setView wide d (vOf (vWidth sz) (List.replicate (viewBits wide / vWidth sz) e))).commit (vLen 4 wide)
    else s.vUndef (vLen 4 wide))

/-- VINS. -/
def execVins (wide : Bool) (sz : Fin 4) (d : FReg) (a : GReg) (n : Byte) (s : State) : Out :=
  .next (if viewOk wide d && decide (n.toNat < viewBits wide / vWidth sz) then
    s.instr (vLen 5 wide) [a] (viewList wide d) fun s =>
      (s.setView wide d (setElem (vWidth sz) n.toNat (s.view wide d) (s.g a).toNat)).commit (vLen 5 wide)
    else s.vUndef (vLen 5 wide))

/-- VEXT. -/
def execVext (wide x : Bool) (sz : Fin 4) (d : GReg) (a : FReg) (n : Byte) (s : State) : Out :=
  .next (if viewOk wide a && decide (n.toNat < viewBits wide / vWidth sz) then
    s.instr (vLen 5 wide) [d] (viewList wide a) fun s =>
      let e := (s.view wide a).toNat / 2 ^ (vWidth sz * n.toNat) % 2 ^ vWidth sz
      (s.setG d (BitVec.ofInt 64 (elInt (vWidth sz) (!x) e))).commit (vLen 5 wide)
    else s.vUndef (vLen 5 wide))

/-- VAND. -/
def execVand (wide : Bool) (d b a : FReg) (s : State) : Out :=
  .next (s.vecOp2 true wide d b a fun x y => (x &&& y, 0))

/-- VOR. -/
def execVor (wide : Bool) (d b a : FReg) (s : State) : Out :=
  .next (s.vecOp2 true wide d b a fun x y => (x ||| y, 0))

/-- VXOR. -/
def execVxor (wide : Bool) (d b a : FReg) (s : State) : Out :=
  .next (s.vecOp2 true wide d b a fun x y => (x ^^^ y, 0))

/-- VANDN. -/
def execVandn (wide : Bool) (d b a : FReg) (s : State) : Out :=
  .next (s.vecOp2 true wide d b a fun x y => (x &&& ~~~y, 0))

/-- VMOV. -/
def execVmov (wide : Bool) (d a : FReg) (s : State) : Out :=
  .next (s.vecOp1 true wide (vLen 4 wide) d a fun x => (x, 0))

/-- VBSL. -/
def execVbsl (wide : Bool) (d b a : FReg) (s : State) : Out :=
  .next (if viewOk wide d && viewOk wide b && viewOk wide a then
    s.instr (vLen 4 wide) [] (viewList wide d ++ viewList wide b ++ viewList wide a) fun s =>
      let m := s.view wide d
      (s.setView wide d ((m &&& s.view wide a) ||| (~~~m &&& s.view wide b))).commit (vLen 4 wide)
    else s.vUndef (vLen 4 wide))

/-! ## Fixed point (R295) -/

/-- VADDS. -/
def execVadds (wide x : Bool) (sz : Fin 4) (d b a : FReg) (s : State) : Out :=
  .next (s.vecInt2 true wide sz d b a fun p q => elSat (vWidth sz) x (elInt (vWidth sz) x p + elInt (vWidth sz) x q))

/-- VSUBS. -/
def execVsubs (wide x : Bool) (sz : Fin 4) (d b a : FReg) (s : State) : Out :=
  .next (s.vecInt2 true wide sz d b a fun p q => elSat (vWidth sz) x (elInt (vWidth sz) x p - elInt (vWidth sz) x q))

/-- VMULFX: 16 and 32 bits. -/
def execVmulfx (wide x : Bool) (sz : Fin 4) (d b a : FReg) (s : State) : Out :=
  .next (s.vecInt2 (sz == 1 || sz == 2) wide sz d b a (elMulFx (vWidth sz) x))

/-- VABSS. -/
def execVabss (wide : Bool) (sz : Fin 4) (d a : FReg) (s : State) : Out :=
  .next (s.vecInt1 true wide (vLen 4 wide) sz d a fun p => elSat (vWidth sz) false (elInt (vWidth sz) false p).natAbs)

/-- VNEGS. -/
def execVnegs (wide : Bool) (sz : Fin 4) (d a : FReg) (s : State) : Out :=
  .next (s.vecInt1 true wide (vLen 4 wide) sz d a fun p => elSat (vWidth sz) false (-(elInt (vWidth sz) false p)))

/-- VSHRR: s from 1 to w. -/
def execVshrr (wide x : Bool) (sz : Fin 4) (d a : FReg) (n : Byte) (s : State) : Out :=
  .next (s.vecInt1 (decide (1 ≤ n.toNat ∧ n.toNat ≤ vWidth sz)) wide (vLen 5 wide) sz d a fun p =>
    elNat (vWidth sz) (shiftRound (elInt (vWidth sz) x p) n.toNat))

/-- VSHLS: s from 0 to w - 1. -/
def execVshls (wide x : Bool) (sz : Fin 4) (d a : FReg) (n : Byte) (s : State) : Out :=
  .next (s.vecInt1 (decide (n.toNat < vWidth sz)) wide (vLen 5 wide) sz d a fun p =>
    elSat (vWidth sz) x (elInt (vWidth sz) x p * 2 ^ n.toNat))

/-- The narrowing of the signed elements of a Q view of width 2w. -/
def vNarrow (w : Nat) (x : Bool) (f : Int → Int) (v : VView) : VView :=
  vOf w ((vElems 128 (2 * w) v).map fun e => elSat w x (f (elInt (2 * w) false e)))

/-- VNARS. -/
def execVnars (x : Bool) (sz : Fin 4) (d a : FReg) (s : State) : Out :=
  .next (s.vecFixed (sz != 3) false true 4 d a fun v => (vNarrow (vWidth sz) x id v, 0))

/-- VNARRS: s from 1 to w. -/
def execVnarrs (x : Bool) (sz : Fin 4) (d a : FReg) (n : Byte) (s : State) : Out :=
  .next (s.vecFixed (sz != 3 && decide (1 ≤ n.toNat ∧ n.toNat ≤ vWidth sz)) false true 5 d a fun v =>
    (vNarrow (vWidth sz) x (fun e => shiftRound e n.toNat) v, 0))

/-- VWIDEN. -/
def execVwiden (x : Bool) (sz : Fin 4) (d a : FReg) (s : State) : Out :=
  .next (s.vecFixed (sz != 3) true false 4 d a fun v =>
    (vOf (2 * vWidth sz) ((vElems 64 (vWidth sz) v).map fun e => elNat (2 * vWidth sz) (elInt (vWidth sz) x e)), 0))

/-! ## Floating point (R296) -/

/-- VFADD. -/
def execVfadd (wide : Bool) (sz : Fin 4) (d b a : FReg) (s : State) : Out :=
  .next (s.vecOp2 (fpSize sz) wide d b a (vfMap2 (viewBits wide) sz (fpBin FVal.add (vPrec sz))))

/-- VFSUB. -/
def execVfsub (wide : Bool) (sz : Fin 4) (d b a : FReg) (s : State) : Out :=
  .next (s.vecOp2 (fpSize sz) wide d b a (vfMap2 (viewBits wide) sz (fpBin FVal.sub (vPrec sz))))

/-- VFMUL. -/
def execVfmul (wide : Bool) (sz : Fin 4) (d b a : FReg) (s : State) : Out :=
  .next (s.vecOp2 (fpSize sz) wide d b a (vfMap2 (viewBits wide) sz (fpBin FVal.mul (vPrec sz))))

/-- VFMIN. -/
def execVfmin (wide : Bool) (sz : Fin 4) (d b a : FReg) (s : State) : Out :=
  .next (s.vecOp2 (fpSize sz) wide d b a (vfMap2 (viewBits wide) sz (fpSel fvMin (vPrec sz))))

/-- VFMAX. -/
def execVfmax (wide : Bool) (sz : Fin 4) (d b a : FReg) (s : State) : Out :=
  .next (s.vecOp2 (fpSize sz) wide d b a (vfMap2 (viewBits wide) sz (fpSel fvMax (vPrec sz))))

/-- VFMA. -/
def execVfma (wide : Bool) (sz : Fin 4) (d b a : FReg) (s : State) : Out :=
  .next (if fpSize sz && viewOk wide d && viewOk wide b && viewOk wide a then
    s.instr (vLen 4 wide) [] (viewList wide d ++ viewList wide b ++ viewList wide a) fun s =>
      let es (n : FReg) : List DWord := (vElems (viewBits wide) (vWidth sz) (s.view wide n)).map w64
      let r := vCollect (vWidth sz) (((es d).zip ((es a).zip (es b))).map fun x =>
        let y := fpFma (vPrec sz) x.1 x.2.1 x.2.2
        (y.1.toNat, y.2))
      ((s.setView wide d r.1).sticky r.2).commit (vLen 4 wide)
    else s.vUndef (vLen 4 wide))

/-- The comparisons. -/
def State.vecCmp (s : State) (wide : Bool) (sz : Fin 4) (d b a : FReg) (sig : Bool) (test : Ordering → Bool) : State :=
  s.vecOp2 (fpSize sz) wide d b a fun x y =>
    let w := vWidth sz
    vCollect w ((vElems (viewBits wide) w x).zipWith (vfCmp w (vPrec sz) sig test) (vElems (viewBits wide) w y))

/-- VFCMPEQ. -/
def execVfcmpeq (wide : Bool) (sz : Fin 4) (d b a : FReg) (s : State) : Out :=
  .next (s.vecCmp wide sz d b a false (· == .eq))

/-- VFCMPLT. -/
def execVfcmplt (wide : Bool) (sz : Fin 4) (d b a : FReg) (s : State) : Out :=
  .next (s.vecCmp wide sz d b a true (· == .lt))

/-- VFCMPLE. -/
def execVfcmple (wide : Bool) (sz : Fin 4) (d b a : FReg) (s : State) : Out :=
  .next (s.vecCmp wide sz d b a true (· != .gt))

/-- VFNEG (R74). -/
def execVfneg (wide : Bool) (sz : Fin 4) (d a : FReg) (s : State) : Out :=
  .next (s.vecInt1 (fpSize sz) wide (vLen 4 wide) sz d a fun p => p ^^^ 2 ^ (vWidth sz - 1))

/-- VFABS (R74). -/
def execVfabs (wide : Bool) (sz : Fin 4) (d a : FReg) (s : State) : Out :=
  .next (s.vecInt1 (fpSize sz) wide (vLen 4 wide) sz d a fun p => p % 2 ^ (vWidth sz - 1))

/-! ## Conversions (R297) -/

/-- VCVTIF. -/
def execVcvtif (wide : Bool) (sz : Fin 4) (d a : FReg) (s : State) : Out :=
  .next (s.vecOp1 (fpSize sz) wide (vLen 4 wide) d a (vfMap1 (viewBits wide) (vWidth sz) (vWidth sz) fun e =>
    let r := fpWrite (vPrec sz) .rne (FVal.ofInt (elInt (vWidth sz) false e))
    (r.1.toNat, r.2)))

/-- VCVTFI: a result that is not its source sets INX beside INV (R297). -/
def execVcvtfi (tz wide : Bool) (sz : Fin 4) (d a : FReg) (s : State) : Out :=
  .next (s.vecOp1 (fpSize sz) wide (withPrefix (vLen 4 wide) tz) d a
    (vfMap1 (viewBits wide) (vWidth sz) (vWidth sz) fun e =>
      let r := fvToInt (vWidth sz) (stINV ||| stINX) (rndOf tz) (fpRead (vPrec sz) (w64 e))
      (r.1.toNat, r.2)))

/-- VFWIDEN. -/
def execVfwiden (d a : FReg) (s : State) : Out :=
  .next (s.vecFixed true true false 4 d a (vfMap1 64 32 64 fun e => cvtElem (to64 .rne) (dec32 (w32 e))))

/-- VFNARROW. -/
def execVfnarrow (tz : Bool) (d a : FReg) (s : State) : Out :=
  .next (s.vecFixed true false true (withPrefix 4 tz) d a (vfMap1 128 64 32 fun e => cvtElem (to32 (rndOf tz)) (dec64 (w64 e))))

/-- VCVTH. -/
def execVcvth (tz : Bool) (d a : FReg) (s : State) : Out :=
  .next (s.vecFixed true false true (withPrefix 4 tz) d a
    (vfMap1 128 32 16 fun e => cvtElem (toPF16 (rndOf tz)) (dec32 (w32 e))))

/-- VCVTHF. -/
def execVcvthf (d a : FReg) (s : State) : Out :=
  .next (s.vecFixed true true false 4 d a (vfMap1 64 16 32 fun e => cvtElem (to32 .rne) (decPF16 (BitVec.ofNat 16 e))))

/-- VCVTB: Qa gives elements 0 to 3, Qb 4 to 7. -/
def execVcvtb (tz : Bool) (d b a : FReg) (s : State) : Out :=
  .next (if viewOk true b && viewOk true a then
    s.instr (withPrefix 4 tz) [] (d :: viewList true b ++ viewList true a) fun s =>
      let es := vElems 128 32 (s.view true a) ++ vElems 128 32 (s.view true b)
      let r := vCollect 8 (es.map fun e => cvtElem (toPF8 (rndOf tz)) (dec32 (w32 e)))
      ((s.setView false d r.1).sticky r.2).commit (withPrefix 4 tz)
    else s.vUndef (withPrefix 4 tz))

/-- VCVTBF: elements 0 to 3 of Da, or 4 to 7 where X is 1. -/
def execVcvtbf (x : Bool) (d a : FReg) (s : State) : Out :=
  .next (s.vecFixed true true false 4 d a fun v =>
    vCollect 32 ((((vElems 64 8 v).drop (if x then 4 else 0)).take 4).map fun e =>
      cvtElem (to32 .rne) (decPF8 (BitVec.ofNat 8 e))))

end Sys2Proof.Machine
end

