-- ==== Sys2Proof/Machine/MemInstr.lean ====
section
/-! DEFINITION. Loads, stores, LEA, vector loads and stores, gathers and scatters (11_instruction_set.md R267, R283 to R285;
12_vector_extension.md R298 to R302). -/

namespace Sys2Proof.Machine

/-! ## Shared forms -/

/-- The access of a scalar load (kind 0) or store (kind 1). -/
def State.memAcc (s : State) (o : MemArgs) (kind size : Nat) (std : Bool) : Acc :=
  ⟨s.memAddr o size, size, kind, .v, std, o.chk.tlb, false, false, false⟩

/-- A load of `size` bytes into G[D]. -/
def State.loadG (s : State) (o : MemArgs) (size : Nat) (sgn : Bool) : State :=
  s.instr (memLen o) [o.d, o.b, o.a] [] fun s =>
    s.load (s.memAcc o 0 size false) (.g o.d sgn) o.nt o.chk.cache fun t => t.commit (memLen o)

/-- A load into F[D]; one of 4 bytes zero-extends. -/
def State.loadF (s : State) (o : MemArgs) (size : Nat) : State :=
  s.instr (memLen o) [o.b, o.a] [o.d] fun s =>
    s.load (s.memAcc o 0 size false) (.f o.d) o.nt o.chk.cache fun t => t.commit (memLen o)

/-- A store of the low `size` bytes of G[D]; `std`: it is an STD. -/
def State.storeG (s : State) (o : MemArgs) (size : Nat) (std : Bool) : State :=
  s.instr (memLen o) [o.d, o.b, o.a] [] fun s =>
    s.store (s.memAcc o 1 size std) (leBytes (s.g o.d).toNat size) o.nt o.chk.cache fun t => t.commit (memLen o)

/-- A store of the low `size` bytes of F[D]. -/
def State.storeF (s : State) (o : MemArgs) (size : Nat) : State :=
  s.instr (memLen o) [o.b, o.a] [o.d] fun s =>
    s.store (s.memAcc o 1 size false) (leBytes (s.f o.d).toNat size) o.nt o.chk.cache fun t => t.commit (memLen o)

/-! ## Scalar loads and stores (R267) -/

/-- LDB. -/
def execLdb (o : MemArgs) (s : State) : Out := .next (s.loadG o 1 false)
/-- LDBS. -/
def execLdbs (o : MemArgs) (s : State) : Out := .next (s.loadG o 1 true)
/-- LDH. -/
def execLdh (o : MemArgs) (s : State) : Out := .next (s.loadG o 2 false)
/-- LDHS. -/
def execLdhs (o : MemArgs) (s : State) : Out := .next (s.loadG o 2 true)
/-- LDW. -/
def execLdw (o : MemArgs) (s : State) : Out := .next (s.loadG o 4 false)
/-- LDWS. -/
def execLdws (o : MemArgs) (s : State) : Out := .next (s.loadG o 4 true)
/-- LDD. -/
def execLdd (o : MemArgs) (s : State) : Out := .next (s.loadG o 8 false)
/-- LDF. -/
def execLdf (o : MemArgs) (s : State) : Out := .next (s.loadF o 8)
/-- LDFS. -/
def execLdfs (o : MemArgs) (s : State) : Out := .next (s.loadF o 4)
/-- STB. -/
def execStb (o : MemArgs) (s : State) : Out := .next (s.storeG o 1 false)
/-- STH. -/
def execSth (o : MemArgs) (s : State) : Out := .next (s.storeG o 2 false)
/-- STW. -/
def execStw (o : MemArgs) (s : State) : Out := .next (s.storeG o 4 false)
/-- STD: the one store that the BOOT port takes (R413). -/
def execStd (o : MemArgs) (s : State) : Out := .next (s.storeG o 8 true)
/-- STF. -/
def execStf (o : MemArgs) (s : State) : Out := .next (s.storeF o 8)
/-- STFS. -/
def execStfs (o : MemArgs) (s : State) : Out := .next (s.storeF o 4)

/-- LEA: the address; with X its scale is a free value, since LEA has no access size. -/
def execLea (o : MemArgs) (s : State) : Out :=
  .next (s.instr (memLen o) [o.d, o.b, o.a] [] fun s =>
    if o.x then
      let m := Config.leaScale s.fresh
      let s : State := { s with fresh := s.fresh + 1 }
      (s.setG o.d (s.g o.b + s.g o.a * m + dispVal o.disp)).commit (memLen o)
    else (s.setG o.d (s.memAddr o 1)).commit (memLen o))

/-! ## Vector loads and stores (R298) -/

/-- Bytes of a view. -/
def viewBytes (wide : Bool) : Nat := if wide then 16 else 8

/-- The access of VLD and VST. -/
def State.vmemAcc (s : State) (o : VMemArgs) (wide : Bool) (kind : Nat) : Acc :=
  ⟨s.vmemAddr o (viewBytes wide), viewBytes wide, kind, .v, false, o.chk.tlb, false, false, false⟩

/-- VLD. -/
def execVld (wide : Bool) (o : VMemArgs) (s : State) : Out :=
  .next (if viewOk wide o.d then
    s.instr (vLen 6 wide) [o.b, o.a] (viewList wide o.d) fun s =>
      s.load (s.vmemAcc o wide 0) (.v wide o.d) false o.chk.cache fun t => t.commit (vLen 6 wide)
    else s.vUndef (vLen 6 wide))

/-- VST. -/
def execVst (wide : Bool) (o : VMemArgs) (s : State) : Out :=
  .next (if viewOk wide o.d then
    s.instr (vLen 6 wide) [o.b, o.a] (viewList wide o.d) fun s =>
      s.store (s.vmemAcc o wide 1) (leBytes (s.view wide o.d).toNat (viewBytes wide)) false o.chk.cache
        fun t => t.commit (vLen 6 wide)
    else s.vUndef (vLen 6 wide))

/-! ## Gathers and scatters (R299 to R302) -/

/-- The address of element `k`: the index is signed, of the element width. -/
def State.elemAddr (s : State) (wide : Bool) (sz : Fin 4) (b : GReg) (a : FReg) (sh k : Nat) : DWord :=
  s.g b + BitVec.ofInt 64 (elInt (vWidth sz) false ((vElems (viewBits wide) (vWidth sz) (s.view wide a)).getD k 0) * 2 ^ sh)

/-- Element `k` commits: VEIDX moves on, or the instruction ends. -/
def State.elemDone (s : State) (wide : Bool) (sz : Fin 4) (k : Nat) : State :=
  if k + 1 < viewBits wide / vWidth sz then
    ({ s with cpu := { s.cpu with veidx := w64 (k + 1) } }).commitUnit
  else ({ s with cpu := { s.cpu with veidx := 0#64 } }).commit (vLen 5 wide)

/-- The registers of a view that anything but this instruction's own elements will write. -/
def State.gatherBusy (s : State) (wide : Bool) (d : FReg) : Bool :=
  (viewRegs wide d).any fun n =>
    (s.cpu.loads.any fun l => l.tag != s.cpu.ptag && l.dest.fRegs.contains n)
      || s.cpu.div.any fun j => j.fp && j.dest.val == n

/-- A gather or scatter runs the element that VEIDX names; a VEIDX past the end ends it. -/
def State.element (s : State) (wide : Bool) (sz : Fin 4) (k : State → Nat → State) : State :=
  let n := viewBits wide / vWidth sz
  if n ≤ s.cpu.veidx.toNat then ({ s with cpu := { s.cpu with veidx := 0#64 } }).commit (vLen 5 wide)
  else k s s.cpu.veidx.toNat

/-- VGATHER: one element. -/
def execVgather (wide : Bool) (sz : Fin 4) (d : FReg) (b : GReg) (a : FReg) (sh : Byte) (chk : ArrayCheck) (s : State) : Out :=
  .next (if viewOk wide d && viewOk wide a && decide (sh.toNat ≤ 3) && !(viewRegs wide d).any (fun n => (viewRegs wide a).contains n) then
    s.instr (vLen 5 wide) [b] (viewList wide a) fun s =>
      if s.gatherBusy wide d then s
      else s.element wide sz fun s k =>
        s.load ⟨s.elemAddr wide sz b a sh.toNat k, vWidth sz / 8, 0, .v, false, chk.tlb, false, false, true⟩ (.el wide d (vWidth sz) k) false
          chk.cache fun t => t.elemDone wide sz k
    else s.vUndef (vLen 5 wide))

/-- VSCATTER: one element. -/
def execVscatter (wide : Bool) (sz : Fin 4) (d : FReg) (b : GReg) (a : FReg) (sh : Byte) (chk : ArrayCheck) (s : State) : Out :=
  .next (if viewOk wide d && viewOk wide a && decide (sh.toNat ≤ 3) then
    s.instr (vLen 5 wide) [b] (viewList wide d ++ viewList wide a) fun s =>
      s.element wide sz fun s k =>
        s.store ⟨s.elemAddr wide sz b a sh.toNat k, vWidth sz / 8, 1, .v, false, chk.tlb, false, false, true⟩
          (leBytes ((s.view wide d).toNat / 2 ^ (vWidth sz * k)) (vWidth sz / 8)) false chk.cache fun t => t.elemDone wide sz k
    else s.vUndef (vLen 5 wide))

end Sys2Proof.Machine
end

