-- ==== Sys2Proof/Machine/SystemInstr.lean ====
section
/-! DEFINITION. System and synchronisation instructions, special registers (11_instruction_set.md R260 to R262, R271 to R275; R196,
R202, R227 to R230, R246, R286). -/

namespace Sys2Proof.Machine

/-! ## Special registers (R260) -/

/-- The special registers that the table lists. -/
inductive SpecialReg where
  | ip
  | flags
  | brs
  | bre
  | brc
  | veidx
  | tprog
  | stamp
  | tid
  | xip (m : Bool)
  | xflags (m : Bool)
  | xcause (m : Bool)
  | xaddr (m : Bool)
  | xbrc (m : Bool)
  | vec (n : Fin 6)
deriving DecidableEq, Repr

/-- By number; a number that the table does not list names none. -/
def specialReg (n : Byte) : Option SpecialReg :=
  match n.toNat with
  | 0x00 => some .ip
  | 0x01 => some .flags
  | 0x02 => some .brs
  | 0x03 => some .bre
  | 0x04 => some .brc
  | 0x05 => some .veidx
  | 0x06 => some .tprog
  | 0x07 => some .stamp
  | 0x08 => some .tid
  | 0x10 => some (.xip false)
  | 0x11 => some (.xflags false)
  | 0x12 => some (.xcause false)
  | 0x13 => some (.xaddr false)
  | 0x14 => some (.xbrc false)
  | 0x18 => some (.xip true)
  | 0x19 => some (.xflags true)
  | 0x1A => some (.xcause true)
  | 0x1B => some (.xaddr true)
  | 0x1C => some (.xbrc true)
  | 0x20 => some (.vec 0)
  | 0x21 => some (.vec 1)
  | 0x22 => some (.vec 2)
  | 0x23 => some (.vec 3)
  | 0x24 => some (.vec 4)
  | 0x25 => some (.vec 5)
  | _ => none

/-- The lowest level that reads it; the same level writes what can be written. -/
def srLevel : SpecialReg → Nat
  | .tid => 1
  | .xip m | .xflags m | .xcause m | .xaddr m | .xbrc m => if m then 2 else 1
  | .vec n => if n.val < 2 then 1 else 2
  | _ => 0

def srWritable : SpecialReg → Bool
  | .ip | .tprog | .stamp => false
  | _ => true

/-- TPROG: the number of queued tile instructions, and the progress word of the oldest (R196). -/
def State.tprog (s : State) : DWord :=
  match s.tile.queue with
  | [] => 0#64
  | e :: _ =>
    w64 (s.tile.queue.length % 64 * 2 ^ 32 + e.itag.toNat * 2 ^ 24 + e.pass % 16 * 2 ^ 20 + bit e.trapinv 17 + bit e.started 16
      + e.kdone % 2 ^ 16)

def State.frame (s : State) (m : Bool) : Frame := if m then s.cpu.frameM else s.cpu.frameS
def State.setFrame (s : State) (m : Bool) (f : Frame) : State :=
  if m then { s with cpu := { s.cpu with frameM := f } } else { s with cpu := { s.cpu with frameS := f } }

/-- The value of a special register. -/
def State.readSr (s : State) : SpecialReg → DWord
  | .ip => s.cpu.ip
  | .flags => s.cpu.flags
  | .brs => s.cpu.brs
  | .bre => s.cpu.bre
  | .brc => s.cpu.brc
  | .veidx => s.cpu.veidx
  | .tprog => s.tprog
  | .stamp => s.stamp
  | .tid => s.cpu.tid.setWidth 64
  | .xip m => (s.frame m).xip
  | .xflags m => (s.frame m).xflags
  | .xcause m => (s.frame m).xcause
  | .xaddr m => (s.frame m).xaddr
  | .xbrc m => (s.frame m).xbrc
  | .vec n => s.cpu.vecs[n]

/-- The fields of XCAUSE (R286). -/
def xcauseMask : DWord := 0x8003FF00FFFFFFFF#64

/-- A write, at the current level; a vector register takes its line with it. -/
def State.writeSr (s : State) (r : SpecialReg) (v : DWord) : State :=
  match r with
  | .flags =>
    let m := mtsrFlagsMask (s.pl == 0)
    s.setFlags ((s.cpu.flags &&& ~~~m) ||| (v &&& m))
  | .brs => { s with cpu := { s.cpu with brs := v } }
  | .bre => { s with cpu := { s.cpu with bre := v } }
  | .brc => { s with cpu := { s.cpu with brc := v } }
  | .veidx => { s with cpu := { s.cpu with veidx := v } }
  | .tid => { s with cpu := { s.cpu with tid := v.setWidth 16 } }
  | .xip m => s.setFrame m { s.frame m with xip := v }
  | .xflags m => s.setFrame m { s.frame m with xflags := v &&& flagsMask }
  | .xcause m => s.setFrame m { s.frame m with xcause := v &&& xcauseMask }
  | .xaddr m => s.setFrame m { s.frame m with xaddr := v }
  | .xbrc m => s.setFrame m { s.frame m with xbrc := v }
  | .vec n => { s with cpu := { s.cpu with vecs := s.cpu.vecs.set n (v &&& ~~~0x3F#64) } }
  | .ip | .tprog | .stamp => s

/-! ## MFSR and MTSR -/

/-- The checks of R260 on a register that the instruction names by number, then `k`. -/
def State.withSr (s : State) (n : Byte) (write : Bool) (k : SpecialReg → State) : State :=
  match specialReg n with
  | none => s.undef
  | some r =>
    if write && !srWritable r then s.undef
    else if s.pl < srLevel r then s.except cPRIV (n.setWidth 32) 0#64
    else k r

/-- FLAGS is busy while a floating-point division or root that will set its sticky bits is in progress (R236). -/
def State.flagsBusy (s : State) (r : SpecialReg) : Bool := r == .flags && s.cpu.div.any fun d => d.fp

/-- MFSR. -/
def execMfsr (d : GReg) (n : Byte) (s : State) : Out :=
  .next (s.instr 5 [d] [] fun s => s.withSr n false fun r =>
    if s.flagsBusy r then s else (s.setG d (s.readSr r)).commit 5)

/-- The physical address of a part as an entry line keeps it. -/
def State.partAddr (s : State) (p : Part) : DWord :=
  w64 (match p.tgt with
    | .spx off _ => s.spxBase + off
    | .regs off => off
    | .boot a => 0xFC000000000000 + a
    | .phys a => a)

/-- MTSR to a vector register: its line is fetched first; a fault of the line is the MTSR's own (R246, R273). -/
def State.loadVector (s : State) (n : Fin 6) (v : DWord) : State :=
  let r := s.fetchLine (v &&& ~~~0x3F#64)
  match r.2 with
  | .parts (p :: _) =>
    let s := r.1.writeSr (.vec n) v
    ({ s with cpu := { s.cpu with lines := s.cpu.lines.set n (some (s.partAddr p)) } } : State).commit 5
  | .parts [] => r.1
  | .fault c d x => r.1.except c d x
  | .wait => r.1

/-- A write to BRS, BRE or BRC takes effect for the next instruction (R281). -/
def srOfLoop : SpecialReg → Bool
  | .brs | .bre | .brc => true
  | _ => false

/-- MTSR. -/
def execMtsr (n : Byte) (a : GReg) (s : State) : Out :=
  .next (s.instr 5 [a] [] fun s => s.withSr n true fun r =>
    match r with
    | .vec k => s.loadVector k (s.g a)
    | .tid => (s.writeSr .tid (s.g a)).dropLoop.commit 5
    | r =>
      if s.flagsBusy r then s
      else if srOfLoop r then (s.commit 5).writeSr r (s.g a) else (s.writeSr r (s.g a)).commit 5)

/-! ## Entries, fences, waits -/

/-- SYSCALL. -/
def execSyscall (s : State) : Out := .next (s.instr 2 [] [] fun s => s.except cSYSCALL 0#32 0#64)
/-- FWCALL. -/
def execFwcall (s : State) : Out := .next (s.instr 2 [] [] fun s => s.except cFWCALL 0#32 0#64)
/-- BRK. -/
def execBrk (s : State) : Out := .next (s.instr 2 [] [] fun s => s.except cBREAK 0#32 0#64)

/-- An instruction that level U may not execute. -/
def State.notUser (s : State) (k : State) : State := if s.pl = 0 then s.except cPRIV 0#32 0#64 else k

/-- ERET: it writes FLAGS. -/
def execEret (s : State) : Out :=
  .next (s.instr 2 [] [] fun s => s.notUser (if s.flagsBusy .flags then s else s.eret))

/-- The entry lines that have been loaded are loaded again, from vector `n` on; one whose line faults stays as it is. -/
def State.reloadLines (s : State) : List (Fin 6) → State × Bool
  | [] => (s, true)
  | n :: ns =>
    if s.cpu.lines[n].isNone then s.reloadLines ns
    else
      let r := s.fetchLine s.cpu.vecs[n]
      match r.2 with
      | .parts (p :: _) =>
        ({ r.1 with cpu := { r.1.cpu with lines := r.1.cpu.lines.set n (some (r.1.partAddr p)) } } : State).reloadLines ns
      | .wait => (r.1, false)
      | _ => r.1.reloadLines ns

/-- IFENCE: every entry line is loaded again; what was fetched ahead goes, and the loop buffer (R273). -/
def execIfence (s : State) : Out :=
  .next (s.instr 2 [] [] fun s =>
    let r := s.reloadLines [0, 1, 2, 3, 4, 5]
    if r.2 then ({ r.1 with cpu := { r.1.cpu with fetched := [], fromLine := none } } : State).dropLoop.commit 2 else r.1)

/-- FENCE: an entry of the store buffer (R272). -/
def execFence (s : State) : Out :=
  .next (s.instr 2 [] [] fun s => if s.sbFull then s else (s.pushSb .fence).commit 2)

/-- UAOPEN. -/
def execUaopen (s : State) : Out :=
  .next (s.instr 2 [] [] fun s => s.notUser ((s.setFlags (setUA s.cpu.flags true)).commit 2))

/-- UACLOSE. -/
def execUaclose (s : State) : Out :=
  .next (s.instr 2 [] [] fun s => s.notUser ((s.setFlags (setUA s.cpu.flags false)).commit 2))

/-- WFI: it commits, and fetch stops (R274). -/
def execWfi (s : State) : Out :=
  .next (s.instr 2 [] [] fun s => s.notUser
    (let s := s.commit 2
     { s with cpu := { s.cpu with wait := .wfi } }))

/-! ## Sync counters (R227 to R230, R275) -/

/-- SYNC_CFGn.LEVEL; 0b11 is treated as M. -/
def State.syncLevel (s : State) (n : Nat) : Nat := min 2 (fld (s.reg (pSYNC + 0x200 + 4 * n)) 11 2)

/-- A local instruction on counter `n`. -/
def State.onCounter (s : State) (n : Byte) (k : Fin 64 → State) : State :=
  if 64 ≤ n.toNat then s.undef
  else if s.pl < s.syncLevel n.toNat then s.except cPRIV 0#32 0#64
  else k (ctr n.toNat)

/-- SYNCADD. -/
def execSyncadd (a : GReg) (n : Byte) (s : State) : Out :=
  .next (s.instr 5 [a] [] fun s => s.onCounter n fun c => (s.syncAdd c (lo32 (s.g a))).commit 5)

/-- SYNCSET. -/
def execSyncset (a : GReg) (n : Byte) (s : State) : Out :=
  .next (s.instr 5 [a] [] fun s => s.onCounter n fun c => (s.syncSet c (lo32 (s.g a))).commit 5)

/-- SYNCGET. -/
def execSyncget (d : GReg) (n : Byte) (s : State) : Out :=
  .next (s.instr 5 [d] [] fun s => s.onCounter n fun c => (s.setG d (s.sync[c].setWidth 64)).commit 5)

/-- SYNCWAIT: it commits at once where the counter has reached the value, else it waits at TR. -/
def execSyncwait (a : GReg) (n : Byte) (s : State) : Out :=
  .next (s.instr 5 [a] [] fun s => s.onCounter n fun c =>
    if (lo32 (s.g a)).toNat ≤ s.sync[c].toNat then s.commit 5
    else { s with cpu := { s.cpu with wait := .syncwait n.toNat (lo32 (s.g a)) } })

/-- SYNCWAIT_END: the condition holds (R229). -/
def execSyncwaitEnd (s : State) : Out :=
  .next (match s.cpu.wait with
    | .syncwait n h => if h.toNat ≤ s.sync[ctr n].toNat then s.commit 5 else s
    | _ => s)

/-- SYNCRADD: an entry of the store buffer. -/
def execSyncradd (a b : GReg) (n : Byte) (s : State) : Out :=
  .next (s.instr 5 [a, b] [] fun s =>
    if 64 ≤ n.toNat then s.undef
    else if s.sbFull then s
    else (s.pushSb (.sadd (lo32 (s.g a)) (BitVec.ofNat 6 n.toNat) (lo32 (s.g b)))).commit 5)

end Sys2Proof.Machine
end

