-- ==== Sys2Proof/Machine/StringInstr.lean ====
section
/-! DEFINITION. String and move instructions and CRCSTEP.M: each command is one unit (11_instruction_set.md R276 to R279, R282; 09
R215, R219; 10 R239). -/

namespace Sys2Proof.Machine

/-! ## The checks of a unit at TR (R277, R288) -/

/-- The rank of a cause in R288. -/
def causeRank (c : Nat) : Nat :=
  if c = cPRIV then 3 else if c = cALIGN then 5 else if c = cTRANSLATION then 6 else if c = cWINDOW then 7 else 8

/-- What the accesses of a unit give together: a wait, the fault of the highest precedence and then of the lowest address, or all
parts. -/
def joinOut (a b : XOut) : XOut :=
  match a, b with
  | .wait, _ => .wait
  | _, .wait => .wait
  | .fault c d x, .fault c' d' x' =>
    if causeRank c < causeRank c' ∨ (causeRank c = causeRank c' ∧ x.toNat ≤ x'.toNat) then .fault c d x else .fault c' d' x'
  | .fault c d x, .parts _ => .fault c d x
  | .parts _, .fault c d x => .fault c d x
  | .parts ps, .parts qs => .parts (ps ++ qs)

/-- The accesses of a unit in turn; a walk that one starts is waited for. -/
def State.accessAll (s : State) : List Acc → State × XOut
  | [] => (s, .parts [])
  | a :: as =>
    let r := s.access a
    match r.2 with
    | .wait => r
    | x =>
      let q := r.1.accessAll as
      (q.1, joinOut x q.2)

/-- A UNIT AT TR: the checks of its accesses, the pending trap, its waits; then `k` with its source and destination parts. -/
def State.unitAtTR (s : State) (src dst : List Acc) (k : State → List Part → List Part → State) : State :=
  let a := s.accessAll src
  let b := a.1.accessAll dst
  match joinOut a.2 b.2 with
  | .wait => if a.2 == .wait then a.1 else b.1
  | .fault c d x => if c != cPRIV && s.trapMine && s.waitedForTrap then b.1.deliverTrap else b.1.except c d x
  | .parts _ =>
    let ps := match a.2 with | .parts ps => ps | _ => []
    let qs := match b.2 with | .parts qs => qs | _ => []
    let es := b.1.tileHolds ps false ++ b.1.tileHolds qs true
    if !es.isEmpty then b.1.noteWaited es
    else if b.1.trapMine && b.1.waitedForTrap then b.1.deliverTrap
    else k b.1 ps qs

/-- The addresses of a unit, or its length, are no multiples of 8: not allowed where it touches a device type (R277). -/
def misplaced (vas : List DWord) (n : Nat) : Bool := n % 8 != 0 || vas.any fun va => va.toNat % 8 != 0

/-- The accesses of `n` bytes from `va` in pieces that do not cross a multiple of 64. -/
def unitPieces (va : DWord) (kind : Nat) (misfit : Bool) : Nat → Nat → List Acc
  | 0, _ => []
  | f + 1, n =>
    if n = 0 then []
    else
      let m := min n (64 - va.toNat % 64)
      ⟨va, m, kind, .d, false, false, true, misfit, false⟩ :: unitPieces (va + w64 m) kind misfit f (n - m)

/-! ## Units -/

/-- The bytes of a string instruction without and with its prefixes. -/
def stringLen (n : Nat) (rep nt : Bool) : Nat := n + (if rep then 1 else 0) + (if nt then 1 else 0)

/-- The unit commits; under REP more follow until G6 is 0 (R276). -/
def State.unitDone (s : State) (rep : Bool) (len : Nat) : State :=
  if !rep then s.commit len else if s.g 6 != 0#64 then s.commitRepUnit else s.commitRepLast len

/-- Bytes of a unit up to a multiple of 64 in G5. -/
def State.blockUnit (s : State) : Nat := min (s.g 6).toNat (64 - (s.g 5).toNat % 64)

/-- BCOPY: one unit, handed to the move engine (R278). -/
def State.bcopy (s : State) (nt rep : Bool) : State :=
  s.instr (stringLen 2 rep nt) [4, 5, 6] [] fun s =>
    if s.g 6 = 0#64 then s.commit (stringLen 2 rep nt)
    else
      let n := s.blockUnit
      let off := misplaced [s.g 4, s.g 5] n
      s.unitAtTR (unitPieces (s.g 4) 0 off 2 n) (unitPieces (s.g 5) 1 off 1 n) fun s ps qs =>
        if s.sbFull then s
        else
          let s := ((s.noteSlip (ps ++ qs)).storeHits qs).pushSb (.copy ps qs nt [])
          (((s.setG 4 (s.g 4 + w64 n)).setG 5 (s.g 5 + w64 n)).setG 6 (s.g 6 - w64 n)).unitDone rep (stringLen 2 rep nt)

/-- The bytes of BFILL: at address x, byte x mod 8 of G7. -/
def fillBytes (va g7 : DWord) (n : Nat) : List Byte :=
  (List.range n).map fun i => (g7 >>> (8 * ((va.toNat + i) % 8))).setWidth 8

/-- BFILL: one unit. -/
def State.bfill (s : State) (nt rep : Bool) : State :=
  s.instr (stringLen 2 rep nt) [5, 6, 7] [] fun s =>
    if s.g 6 = 0#64 then s.commit (stringLen 2 rep nt)
    else
      let n := s.blockUnit
      s.unitAtTR [] (unitPieces (s.g 5) 1 (misplaced [s.g 5] n) 1 n) fun s _ qs =>
        if s.sbFull then s
        else
          let s := ((s.noteSlip qs).storeHits qs).pushSb (.fill qs (fillBytes (s.g 5) (s.g 7) n) nt)
          ((s.setG 5 (s.g 5 + w64 n)).setG 6 (s.g 6 - w64 n)).unitDone rep (stringLen 2 rep nt)

/-- A part that does not lie in the scratchpad. -/
def Part.outside (p : Part) : Bool :=
  match p.tgt with
  | .spx _ _ => false
  | _ => true

/-- The position of the first part that lies outside the scratchpad. -/
def outsideAt : Nat → List Part → Option Nat
  | _, [] => none
  | pos, p :: ps => if p.outside then some pos else outsideAt (pos + p.len) ps

/-- G5 after `n` bytes: OFFSET alone moves. -/
def nextTaw (g5 : DWord) (n : Nat) : DWord :=
  (g5 &&& ~~~0x1FFFFF#64) ||| w64 ((g5.toNat + n) % 2 ^ 21)

/-- A MOVT unit whose checks have passed is handed over; while UNSYNC it sends nothing and raises SEND_DROP (R219). -/
def State.movtUnit (s : State) (rep : Bool) (n : Nat) (ps : List Part) : State :=
  let g5 := s.g 5
  let st := s.cpu.movtStamp.getD s.stamp
  let s : State := { s with cpu := { s.cpu with movtStamp := some st } }
  let s := s.pushSb (.movt ps g5 st s.bell.unsync)
  let s := if s.bell.unsync then
      s.raiseErr pTALLY ⟨8, g5.toNat / 2 ^ 26 % 64, s.stamp, (hi32 g5).setWidth 64⟩
    else s
  (((s.setG 4 (s.g 4 + w64 n)).setG 5 (nextTaw g5 n)).setG 6 (s.g 6 - w64 n)).unitDone rep (stringLen 2 rep false)

/-- MOVT: one message (R215, R279). -/
def State.movt (s : State) (rep : Bool) : State :=
  s.instr (stringLen 2 rep false) [4, 5, 6] [] fun s =>
    if s.g 6 = 0#64 then s.commit (stringLen 2 rep false)
    else
      let n := min (s.g 6).toNat (256 - (s.g 5).toNat % 256)
      s.unitAtTR (unitPieces (s.g 4) 0 (misplaced [s.g 4] n) 5 n) [] fun s ps _ =>
        match outsideAt 0 ps with
        | some k => s.except cRANGE 1#32 (s.g 4 + w64 k)
        | none =>
          if (s.g 5).toNat / 2 ^ 21 % 32 ≠ 0 then
            let x := Config.rangeAddr s.fresh
            ({ s with fresh := s.fresh + 1 } : State).except cRANGE 2#32 x
          else if s.sbFull then s
          else (s.noteSlip ps).movtUnit rep n ps

/-- CRCSTEP.M: one unit, a load whose data steps the CRC in G[D] (R282). -/
def State.crcMem (s : State) (rep : Bool) (d : GReg) (ctl : Byte) : State :=
  s.instr (stringLen 5 rep false) [4, 6, d] [] fun s =>
    if !crcCtlOk ctl then s.undef
    else if s.g 6 = 0#64 then s.commit (stringLen 5 rep false)
    else
      let n := min (s.g 6).toNat (crcWidth ctl)
      s.load ⟨s.g 4, n, 0, .v, false, false, true, misplaced [s.g 4] n, false⟩ (.crc d (crcSel ctl)) false .ok fun s =>
        ((s.setG 4 (s.g 4 + w64 n)).setG 6 (s.g 6 - w64 n)).unitDone rep (stringLen 5 rep false)

/-! ## Meanings -/

/-- BCOPY. -/
def execBcopy (nt rep : Bool) (s : State) : Out := .next (s.bcopy nt rep)
/-- BFILL. -/
def execBfill (nt rep : Bool) (s : State) : Out := .next (s.bfill nt rep)
/-- MOVT. -/
def execMovt (rep : Bool) (s : State) : Out := .next (s.movt rep)
/-- CRCSTEP.M. -/
def execCrcstepM (rep : Bool) (d : GReg) (ctl : Byte) (s : State) : Out := .next (s.crcMem rep d ctl)

/-- PAGE_WALK_DONE (R332, R333). -/
def execPageWalkDone (flips : List (Nat × UnitFlips)) (s : State) : Out := .next (s.endWalk flips)

end Sys2Proof.Machine
end

