-- ==== Sys2Proof/Machine/Maint.lean ====
section
/-! DEFINITION. Cache maintenance, preloads and XINV (13_caches.md R313 to R318; 14_translation.md R339 to R344; R390, R442, R443,
R459). -/

namespace Sys2Proof.Machine

/-! ## Address forms (R315, R316) -/

/-- The line that a checked address has: none in the scratchpad, the register window and the boot window. -/
def State.lineAt (s : State) (pa : Nat) : Option Nat :=
  match s.physTarget pa with
  | .phys p => some (lineOf p)
  | _ => none

/-- A maintenance address: translated and checked as the form's kind says; then `k` with its line (R288, R315). -/
def State.maintAt (s : State) (va : DWord) (kind : Nat) (k : State → Option Nat → State) : State :=
  let r := s.checkAt va kind
  match r.2 with
  | .inr (pa, _) => k r.1 (r.1.lineAt pa)
  | .inl (.fault c d x) => r.1.except c d x
  | .inl _ => r.1

/-- An L1D form enters the store buffer for its line, if there is one; it waits where the store buffer is full (R237, R318). -/
def State.pushLine (s : State) (op : Nat) (l : Option Nat) (done : State → State) : State :=
  match l with
  | none => done s
  | some line => if s.sbFull then s else done (s.pushSb (.maint op line))

/-- The L1I copy of a line goes, and what was fetched ahead stays until IFENCE (R318). -/
def State.invalILine (s : State) (line : Nat) : State :=
  let s := s.setFills (s.caches.fills.map fun f => if f.ic && f.line == line then { f with discard := true } else f)
  s.dropILine line

/-- G4 and G6 after a range form. -/
def State.rangeStep (s : State) : State :=
  let n := min (s.g 6).toNat (64 - (s.g 4).toNat % 64)
  (s.setG 4 (s.g 4 + w64 n)).setG 6 (s.g 6 - w64 n)

/-- A VA form of L1D: 0 clean, 1 invalidate, 2 both. -/
def State.dataVa (s : State) (op kind : Nat) (a : GReg) : State :=
  s.instr 4 [a] [] fun s => s.maintAt (s.g a) kind fun s l => s.pushLine op l fun s => s.commit 4

/-- A range form of L1D. -/
def State.dataRange (s : State) (op kind : Nat) : State :=
  s.instr 4 [4, 6] [] fun s =>
    if s.g 6 = 0#64 then s.commit 4
    else s.maintAt (s.g 4) kind fun s l => s.pushLine op l fun s => s.rangeStep.commit 4

/-! ## Set/way forms (R317) -/

def setOf (v : DWord) (sets : Nat) : Nat := v.toNat % 65536 % sets
def wayOf (v : DWord) : Nat := v.toNat / 65536 % 16

/-- A set/way form of L1D. -/
def State.dataSetWay (s : State) (op : Nat) (a : GReg) : State :=
  s.instr 4 [a] [] fun s => s.notUser
    (if s.sbFull then s
     else (s.pushSb (.maintSW op (setOf (s.g a) (s.sets false)) (wayOf (s.g a)))).commit 4)

/-- IINVAL.SW. -/
def State.instrSetWay (s : State) (v : DWord) : State :=
  let set := setOf v (s.sets true)
  let way := wayOf v
  if s.ways true ≤ way || s.wayOff true way then s
  else
    (s.setFills (s.caches.fills.map fun f => if f.ic && f.set == set && f.way == way then { f with discard := true } else f)).dropLine
      true (16 * set + way)

/-! ## Preloads (R313) -/

/-- The line that a preload fills: none where the access would not be cacheable. -/
def State.preloadAt (s : State) (va : DWord) (kind : Nat) (k : State → Option Nat → State) : State :=
  let r := s.checkAt va kind
  match r.2 with
  | .inr (pa, mt) =>
    let s := r.1
    k s (if s.effType pa mt == 0 && s.cacheOn (kind == 2) then s.lineAt pa else none)
  | .inl (.fault c d x) => r.1.except c d x
  | .inl _ => r.1

/-- IPRELOAD's fill; it waits for a free tag and way. -/
def State.preloadI (s : State) (line way : Nat) (done : State → State) : State :=
  if s.wayOff true way then done s
  else if s.filling true line || s.evicting line || s.wayHeld true (s.lineSet true line) way || s.freeTag.isNone then s
  else done ((s.dropILine line).preloadFill true way line s.cpu.ptag s.reqTid)

/-! ## XINV (R339 to R344) -/

/-- An unused specifier field is not 0, or a reserved bit of the immediate is set. -/
def xinvBad (imm : Byte) (d b a : GReg) : Bool :=
  decide (8 ≤ imm.toNat) || match imm.toNat % 4 with
    | 0 => d != 0 || b != 0 || a != 0
    | 1 => b != 0 || a != 0
    | 2 => d != 0
    | _ => false

/-- The members of the broadcast group but the core itself, in ascending logical ID order (R341). -/
def State.bcastGroup (s : State) : List Word :=
  let die := s.reg (pXLAT + 0x110)
  let core := s.reg (pXLAT + 0x114)
  let span (lo hi : Nat) : List Nat := (List.range (hi + 1 - lo)).map fun k => lo + k
  ((span (fld die 0 7) (fld die 8 7)).flatMap fun d =>
    (span (fld core 0 11) (fld core 16 11)).map fun c => logicalOf s.pkg d c).filter fun i => s.liveId != some i

/-- One request of a broadcast; a member that it cannot be sent to has failed (R343, R459). -/
def State.sendXinv (s : State) (b : Body) (m : Word) : State × Bool :=
  let r := s.post b m
  match r.2 with
  | none => (r.1, true)
  | some _ =>
    match s.route m b.tid with
    | .no _ => (r.1.bump kHOLEDROP, false)
    | .go _ _ _ _ => (r.1, false)

def State.sendXinvs (s : State) (b : Body) : List Word → State × Bcast
  | [] => (s, ⟨[], []⟩)
  | m :: ms =>
    let r := s.sendXinv b m
    let q := r.1.sendXinvs b ms
    (q.1, if r.2 then { q.2 with waiting := m :: q.2.waiting } else { q.2 with failed := m :: q.2.failed })

/-- The lowest of some IDs. -/
def lowestId (ms : List Word) : Nat := ms.foldl (fun a m => min a m.toNat) 0xFFFFFFFF

/-- The broadcast ends: MISSING, BCAST_FAIL where a member failed; the XINV completes (R343, R442, R443). -/
def State.bcastDone (s : State) (b : Bcast) : State :=
  let bad := b.waiting ++ b.failed
  let s := s.setReg (pXLAT + 0x11C) (setFld (s.reg (pXLAT + 0x11C)) 0 18 bad.length)
  let s := s.setXlat { s.xlat with bcast := none }
  let s :=
    if bad.isEmpty then s
    else
      let a := w64 (lowestId bad)
      let s := s.raiseErr pXLAT ⟨1, min bad.length 0xFFFF, s.stamp, a⟩
      let s := (s.raise pRAS 5).orReg (pRAS + 0x10C) 0x20#32
      State.flushEvts (s.addLedger 5 0xFF 0 (w32 bad.length) a false)
  s.commit 5

/-- A broadcast XINV after its local removal (R341). -/
def State.broadcast (s : State) (i : Inval) : State :=
  let st := s.reg (pXLAT + 0x11C)
  let seq := (fld st 24 8 + 1) % 256
  let s := s.setReg (pXLAT + 0x11C) (setFld st 24 8 seq)
  let body : Body :=
    ⟨3, 2, 16, i.tid, s.stamp, BitVec.ofNat 56 i.scope, BitVec.ofNat 8 seq, leBytes i.va 8 ++ leBytes i.len 8⟩
  let r := s.sendXinvs body s.bcastGroup
  if r.2.waiting.isEmpty then r.1.bcastDone r.2
  else ({ r.1 with cpu := { r.1.cpu with wait := .xinv } } : State).setXlat { r.1.xlat with bcast := some r.2 }

/-- XINV once older work is done (R340). -/
def State.xinvNow (s : State) (bcast : Bool) (i : Inval) : State :=
  if !s.cpu.sb.isEmpty || s.storesOut then s
  else if decide (2 ≤ i.scope) && i.len == 0 then s.dropLoop.commit 5
  else
    let s := (s.invalidate i).dropLoop
    if bcast then s.broadcast i else s.commit 5

/-! ## Meanings -/

/-- DCLEAN.VA. -/
def execDcleanVa (a : GReg) (s : State) : Out := .next (s.dataVa 0 0 a)
/-- DINVAL.VA: checked as a store. -/
def execDinvalVa (a : GReg) (s : State) : Out := .next (s.dataVa 1 1 a)
/-- DCLINV.VA. -/
def execDclinvVa (a : GReg) (s : State) : Out := .next (s.dataVa 2 0 a)
/-- DCLEAN.R. -/
def execDcleanR (s : State) : Out := .next (s.dataRange 0 0)
/-- DINVAL.R. -/
def execDinvalR (s : State) : Out := .next (s.dataRange 1 1)
/-- DCLINV.R. -/
def execDclinvR (s : State) : Out := .next (s.dataRange 2 0)
/-- DCLEAN.SW. -/
def execDcleanSw (a : GReg) (s : State) : Out := .next (s.dataSetWay 0 a)
/-- DINVAL.SW. -/
def execDinvalSw (a : GReg) (s : State) : Out := .next (s.dataSetWay 1 a)
/-- DCLINV.SW. -/
def execDclinvSw (a : GReg) (s : State) : Out := .next (s.dataSetWay 2 a)

/-- DINVAL.ALL. -/
def execDinvalAll (s : State) : Out :=
  .next (s.instr 4 [] [] fun s => s.notUser (if s.sbFull then s else (s.pushSb .invAll).commit 4))

/-- DPRELOAD. -/
def execDpreload (a : GReg) (way : Byte) (s : State) : Out :=
  .next (s.instr 5 [a] [] fun s =>
    if s.ways false ≤ way.toNat then s.undef
    else s.notUser (s.preloadAt (s.g a) 0 fun s l =>
      match l with
      | none => s.commit 5
      | some line => if s.sbFull then s else (s.pushSb (.preload line way.toNat)).commit 5))

/-- IINVAL.VA. -/
def execIinvalVa (a : GReg) (s : State) : Out :=
  .next (s.instr 4 [a] [] fun s => s.maintAt (s.g a) 2 fun s l =>
    (match l with | some line => s.invalILine line | none => s).commit 4)

/-- IINVAL.R. -/
def execIinvalR (s : State) : Out :=
  .next (s.instr 4 [4, 6] [] fun s =>
    if s.g 6 = 0#64 then s.commit 4
    else s.maintAt (s.g 4) 2 fun s l =>
      ((match l with | some line => s.invalILine line | none => s).rangeStep).commit 4)

/-- IINVAL.SW. -/
def execIinvalSw (a : GReg) (s : State) : Out :=
  .next (s.instr 4 [a] [] fun s => s.notUser ((s.instrSetWay (s.g a)).commit 4))

/-- IINVAL.ALL. -/
def execIinvalAll (s : State) : Out :=
  .next (s.instr 4 [] [] fun s => s.notUser
    (((s.invalidateAll true).setFills
      (s.caches.fills.map fun f => if f.ic then { f with discard := true } else f)).commit 4))

/-- IPRELOAD. -/
def execIpreload (a : GReg) (way : Byte) (s : State) : Out :=
  .next (s.instr 5 [a] [] fun s =>
    if s.ways true ≤ way.toNat then s.undef
    else s.notUser (s.preloadAt (s.g a) 2 fun s l =>
      match l with
      | none => s.commit 5
      | some line => s.preloadI line way.toNat fun s => s.commit 5))

/-- XINV. -/
def execXinv (imm : Byte) (d b a : GReg) (s : State) : Out :=
  .next (s.instr 5 [d, b, a] [] fun s =>
    let bcast := imm.getLsbD 2
    if xinvBad imm d b a then s.undef
    else if s.pl = 0 ∨ (s.pl = 1 ∧ bcast = true ∧ !(s.reg (pXLAT + 0x100)).getLsbD 3) then s.except cPRIV 0#32 0#64
    else s.xinvNow bcast ⟨imm.toNat % 4, (s.g d).setWidth 16, (s.g a).toNat % 2 ^ 57, (s.g b).toNat⟩)

/-- XINV_BCAST_TIMEOUT (R343). -/
def execXinvBcastTimeout (s : State) : Out :=
  .next (match s.xlat.bcast with
    | some b => s.bcastDone b
    | none => s)

end Sys2Proof.Machine
end

