-- ==== Sys2Proof/Machine/TileIssue.lean ====
section
/-! DEFINITION. Tile instructions at IS and TR: their checks, what they capture, their entry into the queue (04 R103 to R112, R115, R119,
R120; 06 R157 to R159; 07 R164 to R178; 08 R183 to R192). -/

namespace Sys2Proof.Machine

/-! ## Shared forms -/

/-- Tile instructions are enabled at the current level (R183). -/
def State.tileOn (s : State) : Bool := (s.reg (pTILE + 0x100)).getLsbD s.pl

/-- Entries queued, those that a TRESTORE brings among them. -/
def State.tileDepth (s : State) : Nat := s.tile.queue.length + (s.tile.restored.map fun r => r.entries.length).getD 0

/-- A tile instruction waits at IS: the queue is full, or a remote write of TILE_TUSE waits (R104, R117). -/
def State.tileFull (s : State) : Bool := decide (32 ≤ s.tileDepth) || !s.tile.heldTuse.isEmpty

/-- R111 steps 1 and 2; then the instruction's own steps. `gs`: the registers that it reads or writes. -/
def State.tileInstr (s : State) (o : TileArgs) (gs : List (Fin 32)) (undef : State → Bool) (k : State → State) : State :=
  if s.tileFull then s
  else s.instr 8 gs [] fun s =>
    if o.spec.msb || undef s then s.undef
    else if !s.tileOn then s.except cTILEUNAV 0#32 0#64
    else k s

/-- A TILE_STATE fault of a cause that depends on no address. -/
def State.tileState (s : State) (cause : Nat) : State := s.except cTILESTATE (w32 cause) 0#64

/-- An alignment fault of a tile instruction: log2 of the granule, the address. -/
def State.tileAlign (s : State) (lg : Nat) (va : DWord) : State := s.except cALIGN (w32 lg) va

/-- The lowest of some causes. -/
def lowestCause : List (Option Nat) → Option Nat
  | [] => none
  | c :: cs => match c, lowestCause cs with
    | none, r => r
    | some a, none => some a
    | some a, some b => some (min a b)

/-- TILE_STATE causes 1 to 4, then the rest. -/
def State.withCauses (s : State) (cs : List (Option Nat)) (k : State) : State :=
  match lowestCause cs with
  | some c => s.tileState c
  | none => k

/-- Alignment checks in order: log2 of the granule with the address that must be a multiple of it; then the rest. -/
def State.withAligned (s : State) (xs : List (Nat × DWord × Bool)) (k : State) : State :=
  match xs.find? fun x => !x.2.2 with
  | some x => s.tileAlign x.1 x.2.1
  | none => k

def aligned (lg : Nat) (va : DWord) : Nat × DWord × Bool := (lg, va, va.toNat % 2 ^ lg == 0)

def Stream.zero : Stream := ⟨0, 0, 0, 0⟩

/-- Accesses that meet nothing. -/
def TileErr.none : TileErr := ⟨.none, .none, [], 0⟩

/-- A queue entry of the instruction at TR with nothing captured yet. -/
def State.newEntry (s : State) (op : TileOp) (ctl : Word) : TileEntry :=
  { itag := s.tile.nextItag, seq := s.tile.nextSeq, op := op, ctl := ctl, kb := 0, aux := 0, a := Stream.zero, b := Stream.zero, bs := [], conv := none,
    crate := none, rows := [], maskr := 0, maskc := 0, priv := BitVec.ofNat 2 s.pl, tid := s.cpu.tid,
    trapinv := (s.reg (pTILE + 0x100)).getLsbD 10, started := false, pass := 0, kdone := 0, flags := 0, invalid := false,
    faultpos := none, image := 0, wins := s.winList, badUnit := none, meets := TileErr.none }

/-- The entry joins the queue; the issue view moves on (R103, R182). -/
def State.pushTile (s : State) (e : TileEntry) : State :=
  let t := s.tile
  { s with tile := { t with
      queue := t.queue ++ [e], nextItag := t.nextItag + 1, nextSeq := t.nextSeq + 1, issue := viewStep t.issue e } }

/-- Scratchpad ranges that stores of the store buffer have still to write. -/
def SbKind.spxWrites : SbKind → List (Nat × Nat)
  | .store ps _ => ps.filterMap fun p => match p.1.tgt with | .spx off _ => some (off, p.1.len) | _ => none
  | .copy _ dst _ _ => dst.filterMap fun p => match p.tgt with | .spx off _ => some (off, p.len) | _ => none
  | .fill dst _ _ => dst.filterMap fun p => match p.tgt with | .spx off _ => some (off, p.len) | _ => none
  | _ => []

/-- An older store overlaps one of these ranges (R106). -/
def State.sbStores (s : State) (rs : List (Nat × Nat)) : Bool :=
  s.cpu.sb.any fun e => e.kind.spxWrites.any fun w => overlapAny rs w.1 w.2

/-- The instruction waits at TR for older stores: those to what it reads, and those of registers that queued instructions use (R106,
R118). -/
def State.trHolds (s : State) (rs : List (Nat × Nat)) : Bool := s.sbStores rs || s.sbLate

/-- The instruction leaves TR once no older store holds it. -/
def State.leaveTR (s : State) (e : TileEntry) : State :=
  if s.trHolds (e.reads (s.tile.issue.shapeOf e)) then s else (s.pushTile e).commit 8

/-- The base of the `n`-th checked range. -/
def nthBase (bs : List RBase) (n : Nat) : RBase := bs.getD n none

/-- TILE_STATE cause 1 or 2 of a name. -/
def State.deadName (s : State) (n : Nat) : Option Nat := s.tile.issue.nameCause n

/-! ## TBEGIN (R119, R120) -/

def tbeginBad (c : Word) : Bool :=
  fld c 23 9 != 0 || (accFmtOf (fld c 7 4)).isNone || (fld c 13 10 != 0 && fld c 7 4 != 0xB)
    || fld c 0 5 % (beginInfo c).slots != 0

/-- The preload's range. -/
def preloadPieces (c : Word) (va stride : Nat) : List (Nat × Nat) :=
  let sh := (beginInfo c).shape
  match fld c 11 2 with
  | 0 => []
  | 1 => contiguous va (4 * sh.cols)
  | 2 => contiguous va (4 * sh.rows)
  | _ => (List.range sh.rows).flatMap fun i => contiguous (va + i * stride) (4 * sh.cols)

def State.tbegin (s : State) (o : TileArgs) : State :=
  let init := fld o.ctl 11 2
  let gs := (if init = 0 then [] else [tOpa o]) ++ (if init = 3 then [tOpb o] else [])
  s.tileInstr o gs (fun _ => tbeginBad o.ctl) fun s =>
    let va := s.g (tOpa o)
    let stride := if init = 3 then (s.g (tOpb o)).toNat % 2 ^ 24 else 0
    s.withAligned (if init = 0 then [] else [aligned 2 va, (2, va, stride % 4 == 0)])
      (s.withRanges .m (if init = 0 then [] else [⟨0, [s.cpu.tid], preloadPieces o.ctl va.toNat stride⟩]) fun s bs =>
        s.leaveTR { s.newEntry .tbegin o.ctl with
          a := ⟨offOf (nthBase bs 0) va.toNat, 0, 0, 0⟩, aux := stride })

/-! ## TMMA (R109, R110) -/

/-- The shape that the issue view gives a live CD. -/
def State.liveShape (s : State) (n : Nat) : Option Shape := (s.tile.issue.name n).map fun i => i.shape

/-- Rules of the TMMA control word that a live CD's shape decides. -/
def shapeBad (c : Word) (sh : Shape) : Bool :=
  (sh == .s32x64 && c.getLsbD 16)
    || (c.getLsbD 15 && (c.getLsbD 23 || sh.rows != 16)) || (c.getLsbD 14 && (c.getLsbD 19 || sh.cols != 16))

def State.tmmaBad (s : State) (o : TileArgs) : Bool :=
  let c := o.ctl
  let af := fld c 28 4
  let bf := fld c 24 4
  af < 4 || 7 < af || bf < 4 || 7 < bf || af / 2 != bf / 2 || fld c 5 5 != 0
    || (c.getLsbD 23 && (pairOdd (tOpa o) || !s.build.s2)) || (c.getLsbD 19 && !s.build.s2)

/-- The alignment of a stream's EBASE (R91). -/
def streamAligned (d : StreamDesc) : Nat × DWord × Bool := aligned 5 (w64 d.ebase)

def State.tmma (s : State) (o : TileArgs) : State :=
  let c := o.ctl
  let gs := [tKcnt o] ++ (if c.getLsbD 23 then [tOpa o, nextReg (tOpa o)] else []) ++ (if c.getLsbD 19 then [tOpb o, nextReg (tOpb o)] else [])
  s.tileInstr o gs
    (fun s => s.tmmaBad o || (c.getLsbD 19 && pairOdd (tOpb o)) || (s.liveShape (ctlCd c)).any (shapeBad c)) fun s =>
    let kb := s.tileKb o
    let sa := c.getLsbD 23
    let sb := c.getLsbD 19
    let da := s.streamAt (tOpa o)
    let db := s.streamAt (tOpb o)
    let sh := (s.liveShape (ctlCd c)).getD .s32x32
    s.withCauses [s.deadName (ctlCd c), if (!sa || !sb) && 4 < fld c 10 2 + kb then some 4 else none]
      (s.withAligned ((if sa then [streamAligned da] else []) ++ (if sb then [streamAligned db] else []))
        (s.withRanges .m ((if sa then da.ranges 0 [s.cpu.tid] sh.rows kb else []) ++ (if sb then db.ranges 0 [s.cpu.tid] sh.cols kb else []))
          fun s bs =>
            let n := if sa then 2 else 0
            s.leaveTR { s.newEntry .tmma c with
              kb := kb
              a := if sa then da.form (nthBase bs 0) (nthBase bs 1) else Stream.zero
              b := if sb then db.form (nthBase bs n) (nthBase bs (n + 1)) else Stream.zero }))

/-! ## TMMA.SEG (R176, R178) -/

/-- The TIDs under which a range of a tenant is checked: at level U the current one (R170, R178). -/
def State.tenantTids (s : State) (tid : BitVec 16) : List (BitVec 16) := if s.pl = 0 then [s.cpu.tid] else [tid]

def Segment.desc (g : Segment) (kboff : Nat) : StreamDesc := (streamDesc g.bgn g.bgn1).from kboff

/-- Pairs the bases of consecutive ranges with streams. -/
def formsOf : List StreamDesc → List RBase → List Stream
  | d :: ds, e :: sc :: bs => d.form e sc :: formsOf ds bs
  | _, _ => []

def State.tmmaSeg (s : State) (o : TileArgs) : State :=
  let c := o.ctl
  let gs := [tKcnt o, tOpb o] ++ (if c.getLsbD 23 then [tOpa o, nextReg (tOpa o)] else [])
  s.tileInstr o gs
    (fun s => s.tmmaBad o || !s.build.s2 || !c.getLsbD 19 || fld c 16 3 != 0 || c.getLsbD 14
      || (s.liveShape (ctlCd c)).any (shapeBad c)) fun s =>
    let kb := s.tileKb o
    let sa := c.getLsbD 23
    let da := s.streamAt (tOpa o)
    let sh := (s.liveShape (ctlCd c)).getD .s32x32
    let kboff := (s.g (tOpb o)).toNat % 65536
    let segs := (s.tile.issue.crate.map fun r => r.segs).getD []
    let ds := segs.map fun g => g.desc kboff
    s.withCauses [s.deadName (ctlCd c), if !sa && 4 < fld c 10 2 + kb then some 4 else none]
      (s.withAligned ((if sa then [streamAligned da] else []) ++ segs.map fun g => aligned 5 g.bgn)
        (if s.tile.issue.crate.isNone then s.tileState 9
         else s.withRanges .m
           ((if sa then da.ranges 0 [s.cpu.tid] sh.rows kb else [])
             ++ segs.flatMap fun g => (g.desc kboff).ranges 0 (s.tenantTids g.btid) sh.cols kb)
           fun s bs =>
             s.leaveTR { s.newEntry .tmmaSeg c with
               kb := kb
               aux := kboff
               a := if sa then da.form (nthBase bs 0) (nthBase bs 1) else Stream.zero
               bs := formsOf ds (bs.drop (if sa then 2 else 0))
               crate := s.tile.issue.crate }))

/-! ## TCLOSE, TEW, TMASK, TLOAD, TSTORE (R111 to R113) -/

def State.tclose (s : State) (o : TileArgs) : State :=
  s.tileInstr o [] (fun _ => fld o.ctl 5 27 != 0) fun s =>
    s.withCauses [s.deadName (ctlCd o.ctl)] (s.leaveTR (s.newEntry .tclose o.ctl))

/-- TILE_STATE cause 3: the shapes or the formats of TEW's tiles differ, or the window bases of an X128 sum. -/
def tewMismatch (v : TileView) (c : Word) : Bool :=
  match v.name (ctlCd c), v.name (ctlCs c) with
  | some d, some x =>
    d.shape != x.shape || d.fmt != x.fmt || (d.fmt == .x128 && (tewOp c == 1 || tewOp c == 2) && d.wbase != x.wbase)
  | _, _ => false

def State.tew (s : State) (o : TileArgs) : State :=
  let c := o.ctl
  s.tileInstr o [] (fun _ => fld c 14 18 != 0 || 6 < tewOp c) fun s =>
    s.withCauses
      ([s.deadName (ctlCd c)] ++ (if tewOp c = 4 then [] else [s.deadName (ctlCs c), if tewMismatch s.tile.issue c then some 3 else none]))
      (s.leaveTR (s.newEntry .tew c))

def State.tmask (s : State) (o : TileArgs) : State :=
  s.tileInstr o ((if o.ctl.getLsbD 0 then [tOpa o] else []) ++ (if o.ctl.getLsbD 1 then [tOpb o] else []))
    (fun _ => fld o.ctl 2 30 != 0) fun s =>
    s.leaveTR { s.newEntry .tmask o.ctl with maskr := lo32 (s.g (tOpa o)), maskc := s.g (tOpb o) }

/-- TLOAD (`write` false) and TSTORE. -/
def State.tmove (s : State) (o : TileArgs) (write : Bool) : State :=
  s.tileInstr o [tKcnt o, tOpa o, nextReg (tOpa o)] (fun _ => fld o.ctl 5 27 != 0 || pairOdd (tOpa o)) fun s =>
    let kb := s.tileKb o
    let d := s.streamAt (tOpa o)
    s.withCauses [if 4 < fld o.ctl 3 2 + kb then some 4 else none]
      (s.withAligned [streamAligned d]
        (s.withRanges .m (d.ranges (if write then 1 else 0) [s.cpu.tid] 32 kb) fun s bs =>
          s.leaveTR { s.newEntry (if write then .tstore else .tload) o.ctl with
            kb := kb, a := d.form (nthBase bs 0) (nthBase bs 1) }))

/-! ## TCONV (R157 to R159) -/

def tconvBad (o : TileArgs) : Bool :=
  let c := o.ctl
  let f := fld c 28 4
  !(f == 0 || f == 2 || f == 3 || f == 4 || f == 6 || f == 8 || f == 9) || fld c 26 2 == 3 || fld c 24 2 == 3 || fld c 5 4 != 0
    || (c.getLsbD 16 && !isBx c) || (!c.getLsbD 16 && c.getLsbD 14) || (tKcnt o).val != 0 || (!c.getLsbD 16 && pairOdd (tOpa o))

/-- The instruction needs its parameter record. -/
def needsRecord (c : Word) : Bool :=
  fld c 24 2 != 0 || fld c 22 2 != 0 || c.getLsbD 21 || fld c 19 2 != 0 || c.getLsbD 17

/-- A field of a record. -/
def recNum (bs : List Byte) (o n : Nat) : Nat := leNat ((bs.drop o).take n)

/-- TILE_STATE cause 6 (R159). -/
def recordBad (c : Word) (bs : List Byte) : Bool :=
  let lo := dec32 (w32 (recNum bs 0x20 4))
  let hi := dec32 (w32 (recNum bs 0x24 4))
  recNum bs 0x1B 1 != 0 || recNum bs 0x1C 4 != 0 || recNum bs 0x30 16 != 0
    || (c.getLsbD 21 && (lo.isNan || hi.isNan || lo.cmpZ hi == .gt))

/-- TILE_STATE cause 7 (R159). -/
def fitBad (c : Word) (sh : Shape) : Bool :=
  c.getLsbD 16 && (4 < fld c 12 2 + bxBlocks c sh || (bxLanes c sh == 64 && c.getLsbD 9) || (c.getLsbD 14 && bxLanes c sh != 16))

/-- A tile's poison bit is set; `acc`: an accumulator tile. -/
def State.setPoison (s : State) (acc : Bool) (n : Nat) : State :=
  let t := s.tile
  { s with tile := if acc then { t with poison := t.poison ||| w32 (2 ^ n) }
    else { t with poisonOp := t.poisonOp ||| BitVec.ofNat 8 (2 ^ n) } }

/-- What an error that poisons a tile raises: the POISON event and the machine check with the instruction's issue tag (R189). -/
def State.poisonEvt (s : State) (acc : Bool) (n : Nat) (tag : Byte) (addr : DWord) : State :=
  (s.raiseErr pTILE ⟨1, if acc then n else 0x100 + n, s.stamp, addr⟩).machineCheck 3 true tag.toNat addr

/-- A tile is poisoned by an error (R189). -/
def State.poisonTile (s : State) (acc : Bool) (n : Nat) (tag : Byte) (addr : DWord) : State :=
  (s.setPoison acc n).poisonEvt acc n tag addr

/-- The tile that an error in a read for the instruction poisons: TD of TCRATE and of a TCONV to a tile, CD of TMMA.SEG; none for a
TCONV to the scratchpad (R189, R190). -/
def TileEntry.errTile (e : TileEntry) : Option (Bool × Nat) :=
  match e.op with
  | .tcrate => some (false, fld e.ctl 0 3)
  | .tconv => if e.ctl.getLsbD 16 then some (false, fld e.ctl 9 3) else none
  | .tmmaSeg => some (true, ctlCd e.ctl)
  | _ => none

/-- The error that a read for the instruction at TR found is raised as it enters the queue; its tile is poisoned when it runs, after
the older instructions that use the tile (R189). -/
def State.raiseBad (s : State) (e : TileEntry) : State :=
  match e.badUnit, e.errTile with
  | some u, some (acc, n) => s.poisonEvt acc n e.itag (s.spxAddr (32 * u))
  | some u, none => s.machineCheck 3 true e.itag.toNat (s.spxAddr (32 * u))
  | none, _ => s

/-- A parameter record as read, with the places of what it names still as virtual addresses. -/
def State.readRecord (s : State) (off : Nat) : State × List Byte × List Nat := s.spxRead 2 [] off 64

/-- The ranges of a TCONV, in R159's order: the output's two, scale, bias, statistics. -/
def State.convRanges (s : State) (c : Word) (sh : Shape) (d : StreamDesc) (bs : List Byte) : List TRange :=
  let tids := [s.cpu.tid]
  let out : List TRange :=
    if c.getLsbD 16 then [⟨1, tids, []⟩, ⟨1, tids, []⟩]
    else if isBx c then d.ranges 1 tids (bxLanes c sh) (bxBlocks c sh)
    else
      let sz := outBytes (fld c 28 4)
      let lanes := if c.getLsbD 15 then sh.cols else sh.rows
      let vals := if c.getLsbD 15 then sh.rows else sh.cols
      [⟨1, tids, (List.range lanes).flatMap fun l => contiguous (d.ebase + l * d.ls) (vals * sz)⟩, ⟨1, tids, []⟩]
  let scale := match fld c 24 2 with
    | 0 => []
    | 1 => contiguous (recNum bs 0 8) (4 * sh.rows)
    | _ => contiguous (recNum bs 0 8) (4 * sh.cols)
  let ba := recNum bs 8 8
  let bias := match fld c 22 2 with
    | 0 => []
    | 1 => contiguous ba (4 * sh.cols)
    | 2 => contiguous ba (4 * sh.rows)
    | _ => (List.range sh.rows).flatMap fun i => contiguous (ba + i * recNum bs 0x18 3) (4 * sh.cols)
  let stat := if fld c 19 2 = 0 then [] else contiguous (recNum bs 0x10 8) (sh.rows * statBytes c)
  out ++ [⟨0, tids, scale⟩, ⟨0, tids, bias⟩, ⟨1, tids, stat⟩]

/-- The alignment checks of a TCONV. -/
def convAligned (c : Word) (d : StreamDesc) (bs : List Byte) : List (Nat × DWord × Bool) :=
  let ba := w64 (recNum bs 8 8)
  (if c.getLsbD 16 then [] else if isBx c then [streamAligned d] else [aligned (Nat.log2 (outBytes (fld c 28 4))) (w64 d.ebase)])
  ++ (if fld c 24 2 = 0 then [] else [aligned 2 (w64 (recNum bs 0 8))])
  ++ (if fld c 22 2 = 0 then [] else [aligned 2 ba])
  ++ (if fld c 22 2 = 3 then [(2, ba, recNum bs 0x18 3 % 4 == 0)] else [])
  ++ (if fld c 19 2 = 0 then [] else [aligned (if fld c 19 2 = 3 then 3 else 2) (w64 (recNum bs 0x10 8))])

/-- What a TCONV captures from its record. -/
def convRec (bs : List Byte) (recOff : Nat) (bases : List RBase) : ConvRec :=
  { recOff := recOff, scaleOff := offOf (nthBase bases 2) (recNum bs 0 8), biasOff := offOf (nthBase bases 3) (recNum bs 8 8),
    statOff := offOf (nthBase bases 4) (recNum bs 0x10 8), biasStride := recNum bs 0x18 3, clipLo := w32 (recNum bs 0x20 4),
    clipHi := w32 (recNum bs 0x24 4), seed := w64 (recNum bs 0x28 8) }

/-- The steps of a TCONV after its record, if it needs one: cause 6 and 7, alignment, ranges. -/
def State.tconvRest (s : State) (o : TileArgs) (rec? : Option (Nat × List Byte × List Nat)) : State :=
  let c := o.ctl
  let sh := (s.liveShape (ctlCd c)).getD .s32x32
  let d := s.streamAt (tOpa o)
  let bs := (rec?.map fun r => r.2.1).getD []
  if rec?.isSome && recordBad c bs then s.tileState 6
  else if fitBad c sh then s.tileState 7
  else s.withAligned (convAligned c d bs) (s.withRanges .m (s.convRanges c sh d bs) fun s bases =>
    let a : Stream := if c.getLsbD 16 then Stream.zero
      else if isBx c then d.form (nthBase bases 0) (nthBase bases 1) else ⟨offOf (nthBase bases 0) d.ebase, 0, d.ls, 0⟩
    let e : TileEntry := { s.newEntry .tconv c with
      a := a, conv := rec?.map fun r => convRec bs r.1 bases, badUnit := rec?.bind fun r => r.2.2.head? }
    if s.trHolds (e.reads sh) then s else ((s.pushTile e).raiseBad e).commit 8)

def State.tconv (s : State) (o : TileArgs) : State :=
  let c := o.ctl
  let gs := (if c.getLsbD 16 then [] else [tOpa o, nextReg (tOpa o)]) ++ (if needsRecord c then [tOpb o] else [])
  s.tileInstr o gs (fun _ => tconvBad o) fun s =>
    s.withCauses [s.deadName (ctlCd c)]
      (if !needsRecord c then s.tconvRest o none
       else
         let va := s.g (tOpb o)
         s.withAligned [aligned 6 va] (s.withRanges .v [⟨0, [s.cpu.tid], [(va.toNat, 64)]⟩] fun s bs =>
           let off := offOf (nthBase bs 0) va.toNat
           if !(s.tileBlocks false off 64).isEmpty || s.sbStores [(off, 64)] then s
           else
             let r := s.readRecord off
             r.1.tconvRest o (some (off, r.2.1, r.2.2))))

/-! ## TCRATE (R164 to R175) -/

def tcrateBad (c : Word) : Bool := fld c 16 16 != 0 || fld c 6 2 != 0 || c.getLsbD 3

def crateCap (c : Word) : Nat := if c.getLsbD 14 then 16 else 32

def sizeOk (n : Nat) : Bool := n == 32 || n == 64 || n == 128 || n == 256 || n == 512 || n == 1024 || n == 2048 || n == 4096

/-- A row in the course of a scan: its slot's virtual address and offset, the offsets of its A data and scale. -/
structure CrateRow where
  slotVa : Nat
  slotOff : Nat
  a : Nat
  sc : Nat
deriving DecidableEq, Repr

/-- What a scan has gathered: the rows, the segments with their B streams not yet read, why it stopped; a fault or a wait. -/
structure CrateScan where
  rows : List CrateRow
  segs : List Segment
  reason : Nat
  /-- The units that were read uncorrectable. -/
  bad : List Nat
deriving DecidableEq, Repr

inductive ScanOut where
  | done (r : CrateScan)
  | fault (cause : Nat) (detail : Word) (xaddr : DWord)
  | wait
deriving DecidableEq, Repr

/-- The segment of a key, or a new one; none for a ninth. -/
def addToSegment (segs : List Segment) (brec : DWord) (btid : BitVec 16) (row : Nat) : Option (List Segment) :=
  if segs.any fun g => g.brec == brec && g.btid == btid then
    some (segs.map fun g => if g.brec == brec && g.btid == btid then { g with mask := g.mask ||| w32 (2 ^ row) } else g)
  else if segs.length < 8 then some (segs ++ [⟨w32 (2 ^ row), btid, brec, 0, 0⟩])
  else none

/-- One range read by the V sub-port at TR: its offset. -/
def State.crateRange (s : State) (sub : SubPort) (tids : List (BitVec 16)) (va len : Nat) : State × TOut :=
  s.checkRanges sub [⟨0, tids, contiguous va len⟩]

/-- Scans the slots from row `row` on, `fuel` rows at most; `take`: VALID decides, and the VALID byte of a slot taken is checked as
written; else every slot is taken whatever its VALID byte holds (R168, R171, R175; DESIGN CHOICE, log entry 130). -/
def State.scanRows (s : State) (h : CrateHdr) (take : Bool) (first kstart kb row : Nat) (acc : CrateScan) : Nat → State × ScanOut
  | 0 => (s, .done acc)
  | fuel + 1 =>
    let va := (h.base + 32 * ((first + row) % h.size)) % 2 ^ 64
    let q := s.crateRange .v [s.cpu.tid] va 32
    match q.2 with
    | .fault c d x => (q.1, .fault c d x)
    | .wait => (q.1, .wait)
    | .ok bs =>
      let off := offOf (nthBase bs 0) va
      if q.1.sbStores [(off, 32)] || !(q.1.tileBlocks false off 32).isEmpty then (q.1, .wait)
      else
        let r := q.1.spxRead 2 [] off 32
        let b := r.2.1
        let s := r.1
        let valid := recNum b 0x1C 1
        let brec := w64 (recNum b 0x10 8)
        let btid := BitVec.ofNat 16 (recNum b 0x1A 2)
        let segs? := addToSegment acc.segs brec btid row
        if take && valid == 0 then (s, .done { acc with reason := 4 })
        else if take && segs?.isNone then (s, .done { acc with reason := 3 })
        else
          let w := if take then s.checkRanges .v [⟨1, [s.cpu.tid], [((va + 0x1C) % 2 ^ 64, 1)]⟩] else (s, .ok [])
          let aaddr := recNum b 0 8
          let ascale := recNum b 8 8
          match w.2 with
          | .fault c d x => (w.1, .fault c d x)
          | .wait => (w.1, .wait)
          | .ok _ =>
            if aaddr % 32 ≠ 0 then (w.1, .fault cALIGN 5#32 (w64 aaddr))
            else
              let tids := w.1.tenantTids (BitVec.ofNat 16 (recNum b 0x18 2))
              let t := w.1.checkRanges .m
                [⟨0, tids, contiguous (aaddr + 32 * kstart) (32 * kb)⟩, ⟨0, tids, contiguous (ascale + kstart) kb⟩]
              match t.2, segs? with
              | .fault c d x, _ => (t.1, .fault c d x)
              | .wait, _ => (t.1, .wait)
              | .ok _, none => (t.1, .fault cTILESTATE 8#32 (w64 va))
              | .ok ab, some segs =>
                if recNum b 0x1D 1 != 0 || (take && valid != 1) then (t.1, .fault cTILESTATE 8#32 (w64 va))
                else
                  let row' : CrateRow :=
                    ⟨va, off, offOf (nthBase ab 0) (aaddr + 32 * kstart), offOf (nthBase ab 1) (ascale + kstart)⟩
                  t.1.scanRows h take first kstart kb (row + 1)
                    { acc with rows := acc.rows ++ [row'], segs := segs, bad := acc.bad ++ r.2.2 } fuel

/-- Reads the B records of the segments in turn. -/
def State.readBrecs (s : State) : List Segment → State × ScanOut
  | [] => (s, .done ⟨[], [], 0, []⟩)
  | g :: gs =>
    if g.brec.toNat % 16 ≠ 0 then (s, .fault cALIGN 4#32 g.brec)
    else
      let q := s.crateRange .v (s.tenantTids g.btid) g.brec.toNat 16
      match q.2 with
      | .fault c d x => (q.1, .fault c d x)
      | .wait => (q.1, .wait)
      | .ok bs =>
        let off := offOf (nthBase bs 0) g.brec.toNat
        if q.1.sbStores [(off, 16)] || !(q.1.tileBlocks false off 16).isEmpty then (q.1, .wait)
        else
          let r := q.1.spxRead 2 [] off 16
          let g' : Segment := { g with bgn := w64 (recNum r.2.1 0 8), bgn1 := w64 (recNum r.2.1 8 8) }
          let t := r.1.readBrecs gs
          (t.1, match t.2 with
            | .done x => .done { x with segs := g' :: x.segs, bad := r.2.2 ++ x.bad }
            | x => x)

/-- The header at an address: its alignment, its range, that of HEAD which a TAKE writes, its fields (R171 step 3); then `k`. -/
def State.withHeader (s : State) (va : DWord) (take : Bool) (k : State → CrateHdr → List Nat → State) : State :=
  let t := [s.cpu.tid]
  let ranges : List TRange := ⟨0, t, [(va.toNat, 32)]⟩ :: if take then [⟨1, t, [(va.toNat + 0xC, 4)]⟩] else []
  s.withAligned [aligned 5 va] (s.withRanges .v ranges fun s bs =>
    let off := offOf (nthBase bs 0) va.toNat
    if s.sbStores [(off, 32)] || !(s.tileBlocks false off 32).isEmpty then s
    else
      let r := s.spxRead 2 [] off 32
      let b := r.2.1
      let h : CrateHdr := ⟨va.toNat, off, recNum b 0 8, recNum b 8 4, recNum b 0xC 4⟩
      if recNum b 0x10 16 != 0 || !sizeOk h.size || h.size ≤ h.head then r.1.except cTILESTATE 8#32 va
      else k r.1 h r.2.2)

/-- The rows and segments of a crate from row 0 on, then `k` with all of it. -/
def State.withCrate (s : State) (h : CrateHdr) (take : Bool) (first kstart kb n reason : Nat) (k : State → CrateScan → State) :
    State :=
  let r := s.scanRows h take first kstart kb 0 ⟨[], [], reason, []⟩ n
  match r.2 with
  | .fault c d x => r.1.except c d x
  | .wait => r.1
  | .done a =>
    let q := r.1.readBrecs a.segs
    match q.2 with
    | .fault c d x => q.1.except c d x
    | .wait => q.1
    | .done b => k q.1 { a with segs := b.segs, bad := a.bad ++ b.bad }

/-- The OR of the segment row masks. -/
def crateMask (segs : List Segment) : Word := segs.foldl (fun m g => m ||| g.mask) 0#32

/-- The entry of a TCRATE (R169, R174). -/
def State.crateEntry (s : State) (c : Word) (h : CrateHdr) (bad : List Nat) (first kstart kb : Nat) (r : CrateScan) : TileEntry :=
  { s.newEntry .tcrate c with
    kb := kb, aux := kstart, rows := r.rows.map fun x => (x.a, x.sc), maskr := crateMask r.segs
    crate := some ⟨r.segs, h.off, first, r.rows.length⟩, badUnit := (bad ++ r.bad).head? }

/-- A part of the scratchpad for the writes of HEAD and VALID. -/
def State.spxPart (s : State) (off len : Nat) : Part := ⟨.spx off (s.classes off len), len, false, false, false, 64⟩

/-- The result word of R169. -/
def crateResult (first reason segs rows : Nat) : DWord := w64 (first * 2 ^ 32 + reason * 2 ^ 12 + segs * 2 ^ 8 + rows)

/-- Steps 5 and 6 of a TAKE whose wait ended with the counter at `count`, and its effects; where it has to wait for a table walk or an
older store it stays at TR (R168, R169, R171). -/
def State.takeNow (s : State) (w : TakeWait) (count : Nat) : State :=
  let c := w.args.ctl
  let h := w.hdr
  let n := ctr (fld c 8 6)
  let cap := crateCap c
  s.withCrate h true h.head 0 w.kb (min cap count) (if cap ≤ count then 1 else 2) fun s r =>
    let e := s.crateEntry c h w.bad h.head 0 w.kb r
    if s.sbFull || s.trHolds (e.reads .s32x32) then s
    else
      let k := r.rows.length
      let s := s.syncSet n (s.sync[n] - w32 k)
      let parts := (s.spxPart (h.off + 0xC) 4, leBytes ((h.head + k) % h.size) 4)
        :: r.rows.map fun x => (s.spxPart (x.slotOff + 0x1C) 1, [0#8])
      let s := ((s.pushSb (.store parts false)).pushTile e).raiseBad e
      (s.setG (tOpb w.args) (crateResult h.head r.reason r.segs.length k)).commit 8

/-- The wait of R167 has ended: the counter has reached the cap, or C the deadline. -/
def State.takeReady (s : State) (c : Word) : Bool :=
  let dl := fld (s.reg (pCONV + 0x110)) 0 24
  decide (crateCap c ≤ s.sync[ctr (fld c 8 6)].toNat) || (dl != 0 && decide (dl ≤ s.bell.c))

/-- Step 4 of a TAKE (R167): where the wait ends now, the counter is read and the rest follows. -/
def State.takeStep (s : State) (w : TakeWait) : State :=
  let count := w.count <|> if s.takeReady w.args.ctl then some s.sync[ctr (fld w.args.ctl 8 6)].toNat else none
  let s : State := { s with cpu := { s.cpu with wait := .take { w with count := count } } }
  match count with
  | some n => s.takeNow { w with count := count } n
  | none => s

def State.tcrateTake (s : State) (o : TileArgs) : State :=
  let c := o.ctl
  s.tileInstr o [tKcnt o, tOpa o, tOpb o] (fun _ => tcrateBad c || c.getLsbD 15) fun s =>
    let kb := s.tileKb o
    s.withCauses [if 4 < fld c 4 2 + kb then some 4 else none]
      (s.withHeader (s.g (tOpa o)) true fun s h bad => s.takeStep ⟨o, h, bad, kb, none⟩)

/-- The waiting TAKE proceeds: time goes on to the deadline where that ends the wait within this bell; steps 1 to 3 are not made again
(R167, R171). -/
def State.takeProceed (s : State) : State :=
  match s.cpu.wait with
  | .take w =>
    if !s.coreRuns || s.xlat.walk.isSome then s
    else
      let dl := fld (s.reg (pCONV + 0x110)) 0 24
      let s := if w.count.isSome || s.takeReady w.args.ctl then s else if s.bell.c < dl && dl < s.period then s.riseTo dl else s
      match s.cpu.wait with
      | .take w => s.takeStep w
      | _ => s
  | _ => s

def State.tcrateReload (s : State) (o : TileArgs) : State :=
  let c := o.ctl
  s.tileInstr o [tKcnt o, tOpa o, tOpb o] (fun _ => tcrateBad c || !c.getLsbD 15) fun s =>
    let kb := s.tileKb o
    let w := (s.g (tOpb o)).toNat
    let first := w / 2 ^ 32 % 65536
    let kstart := w / 2 ^ 48
    s.withCauses [if 4 < fld c 4 2 + kb then some 4 else none]
      (s.withHeader (s.g (tOpa o)) false fun s h bad =>
        s.withCrate h false first kstart kb (min 32 (w % 64)) 0 fun s r =>
          let e := s.crateEntry c h bad (first % h.size) kstart kb r
          if s.trHolds (e.reads .s32x32) then s else ((s.pushTile e).raiseBad e).commit 8)

/-! ## TSAVE, TSYNC (R188, R191, R192) -/

/-- A TSAVE or TRESTORE is queued or running. -/
def State.saving (s : State) : Bool :=
  s.tile.draining || s.tile.restored.isSome || s.tile.queue.any fun e => e.op == .tsave || e.op == .trestore

def State.tsave (s : State) (o : TileArgs) (err : TileErr) : State :=
  let c := o.ctl
  let no := c.getLsbD 2
  s.tileInstr o (if no then [] else [tOpa o]) (fun _ => fld c 3 29 != 0 || (tOpb o).val != 0 || (tKcnt o).val != 0) fun s =>
    let va := s.g (tOpa o)
    s.withAligned (if no then [] else [aligned 8 va])
      (s.withRanges .m (if no then [] else [⟨1, [s.cpu.tid], contiguous va.toNat imageBytes⟩]) fun s bs =>
        if s.saving || s.sbLate then s
        else
          let s := (s.pushTile { s.newEntry .tsave c with image := offOf (nthBase bs 0) va.toNat, meets := err })
          ({ s with tile := { s.tile with draining := true, stopped := false } } : State).commit 8)

/-- TSYNC's wait is over: it delivers a pending trap, or commits (R188). -/
def State.tsyncEnd (s : State) : State := if s.trapMine then s.deliverTrap else s.commit 2

def State.tileQuiet (s : State) : Bool := s.tile.queue.isEmpty && !s.tile.draining && s.tile.restored.isNone

def State.tsync (s : State) : State :=
  s.instr 2 [] [] fun s =>
    if !s.tileOn then s.except cTILEUNAV 0#32 0#64
    else if s.tileQuiet then s.tsyncEnd
    else { s with cpu := { s.cpu with wait := .tsync } }

/-! ## Meanings -/

/-- TBEGIN. -/
def execTbegin (o : TileArgs) (s : State) : Out := .next (s.tbegin o)
/-- TMMA. -/
def execTmma (o : TileArgs) (s : State) : Out := .next (s.tmma o)
/-- TMMA.SEG. -/
def execTmmaSeg (o : TileArgs) (s : State) : Out := .next (s.tmmaSeg o)
/-- TCLOSE. -/
def execTclose (o : TileArgs) (s : State) : Out := .next (s.tclose o)
/-- TCONV. -/
def execTconv (o : TileArgs) (s : State) : Out := .next (s.tconv o)
/-- TLOAD. -/
def execTload (o : TileArgs) (s : State) : Out := .next (s.tmove o false)
/-- TSTORE. -/
def execTstore (o : TileArgs) (s : State) : Out := .next (s.tmove o true)
/-- TSAVE. -/
def execTsave (o : TsaveArgs) (s : State) : Out := .next (s.tsave o.toTileArgs o.meets)
/-- TCRATE, TAKE. -/
def execTcrateTake (o : TileArgs) (s : State) : Out := .next (s.tcrateTake o)
/-- TCRATE, RELOAD. -/
def execTcrateReload (o : TileArgs) (s : State) : Out := .next (s.tcrateReload o)
/-- TCRATE_TAKE_PROCEED (R167). -/
def execTcrateTakeProceed (s : State) : Out := .next s.takeProceed
/-- TEW. -/
def execTew (o : TileArgs) (s : State) : Out := .next (s.tew o)
/-- TMASK. -/
def execTmask (o : TileArgs) (s : State) : Out := .next (s.tmask o)
/-- TSYNC. -/
def execTsync (s : State) : Out := .next s.tsync
/-- TSYNC_WAIT_END (R188). -/
def execTsyncWaitEnd (s : State) : Out :=
  .next (if s.cpu.wait = .tsync ∧ s.tileQuiet then s.tsyncEnd else s)

end Sys2Proof.Machine
end

