-- ==== Sys2Proof/Machine/TileRun.lean ====
section
/-! DEFINITION. The tile engine at work: starts, block ends, completions, poison, the deferred trap (04 R85 to R118; 05 R119 to R143; 06
R144 to R163; 07 R174 to R180; 08 R186 to R190). -/

namespace Sys2Proof.Machine

/-! ## Storage of tiles (R87, R95, R96, R195) -/

/-- Pieces of `n` bytes each. -/
def chunksOf (n : Nat) : Nat → List Byte → List (List Byte)
  | 0, _ => []
  | k + 1, bs => bs.take n :: chunksOf n k (bs.drop n)

/-- The elements of one chain of a tile, row-major, as little-endian numbers. -/
def readChain (pool : Memory) (cd : Nat) (i : NameInfo) (c : Nat) : List Nat :=
  let n := i.shape.rows * i.shape.cols
  let z := i.fmt.bytes
  (chunksOf z n (pool.read (4096 * cd + c * n * z) (n * z))).map leNat

def writeChain (pool : Memory) (cd : Nat) (i : NameInfo) (c : Nat) (xs : List Nat) : Memory :=
  let n := i.shape.rows * i.shape.cols
  let z := i.fmt.bytes
  pool.write (4096 * cd + c * n * z) (xs.flatMap fun x => leBytes x z)

/-- The chains that a tile keeps (R94). -/
def NameInfo.chains (i : NameInfo) : Nat := keptChains i.shape i.fmt

/-- The same function of each kept chain's elements. -/
def mapChains (pool : Memory) (cd : Nat) (i : NameInfo) (f : Nat → List Nat → List Nat) : Memory :=
  (List.range i.chains).foldl (fun p c => writeChain p cd i c (f c (readChain pool cd i c))) pool

def ofPair (p : Pair) : Nat := p.s.toNat + p.e.toNat * 2 ^ 32
def intOf (w n : Nat) : Int := (BitVec.ofNat w n).toInt
def ofIntW (w : Nat) (i : Int) : Nat := (BitVec.ofInt w i).toNat

/-- Operand tile Tn: element block (l, q), and its scale byte. -/
def opBlock (n l q : Nat) : Nat := 4224 * n + (4 * l + q) * 32
def opScale (n l q : Nat) : Nat := 4224 * n + 4096 + 4 * l + q

def State.setOps (s : State) (m : Memory) : State := { s with tile := { s.tile with ops := m } }
def State.setPool (s : State) (m : Memory) : State := { s with tile := { s.tile with pool := m } }

/-! ## The entry at the head -/

/-- Changes the head of the queue. -/
def State.modHead (s : State) (f : TileEntry → TileEntry) : State :=
  { s with tile := { s.tile with queue := match s.tile.queue with
      | e :: q => f e :: q
      | [] => [] } }

/-- Flags that the instruction at the head has set so far. -/
def State.headFlags (s : State) (fl : TFlags) : State := s.modHead fun e => { e with flags := e.flags ||| fl }

/-- An error poisons a tile of the head: one machine check for each (R189). -/
def State.poisonHead (s : State) (acc : Bool) (n : Nat) (addr : DWord) : State :=
  match s.tile.queue with
  | e :: _ => (s.poisonTile acc n e.itag addr).headFlags tfPOISON
  | [] => s

/-- Bytes that the engine reads for the head through M, in the classes that its checks found at TR (R103, R349), `scale`: on the path of
the scale bytes, which SPXRD does not count (R92, R402). The first unit that is uncorrectable poisons the tile, if the head names one and
has not poisoned it yet. -/
def State.tileRead (s : State) (scale : Bool) (off len : Nat) (poison : Option (Bool × Nat)) : State × List Byte × Bool :=
  let cls := classIn ((s.tile.queue.head?.map fun e => e.wins).getD [])
  let r := if scale then s.scaleReadBy cls 1 [] off len else s.spxReadBy cls 1 [] off len
  match r.2.2, poison with
  | u :: _, some (acc, n) =>
    let done := (s.tile.queue.head?.map fun e => e.flags &&& tfPOISON != 0#7).getD true
    (if done then r.1 else r.1.poisonHead acc n (s.spxAddr (32 * u)), r.2.1, true)
  | u :: _, none =>
    let itag := (s.tile.queue.head?.map fun e => e.itag.toNat).getD 0
    (r.1.machineCheck 3 true itag (s.spxAddr (32 * u)), r.2.1, true)
  | [], _ => (r.1, r.2.1, false)

/-! ## Start (R105, R189) -/

/-- A TMMA or TMMA.SEG that feeds no K-block, so that it reads no operand. -/
def TileEntry.idle (e : TileEntry) : Bool := e.kb == 0 || (e.op == .tmmaSeg && e.segs.isEmpty)

/-- The accumulator tiles whose slots an instruction reads. -/
def TileEntry.poolTiles (e : TileEntry) : List Nat :=
  match e.op with
  | .tmma | .tmmaSeg => if e.idle then [] else [ctlCd e.ctl]
  | .tclose | .tconv => [ctlCd e.ctl]
  | .tew => match tewOp e.ctl with
    | 0 | 3 => [ctlCs e.ctl]
    | 4 => []
    | _ => [ctlCd e.ctl, ctlCs e.ctl]
  | _ => []

/-- The operand tiles that an instruction reads; 64 lanes of B take two. One that feeds no K-block reads none (DESIGN CHOICE, log entry
131). -/
def TileEntry.opTiles (e : TileEntry) (sh : Shape) : List Nat :=
  let a := if e.ctl.getLsbD 23 then [] else [fld e.ctl 20 3]
  if (e.op == .tmma || e.op == .tmmaSeg) && e.idle then []
  else match e.op with
  | .tmma =>
    a ++ (if e.ctl.getLsbD 19 then [] else if sh == .s32x64 then [fld e.ctl 16 3, (fld e.ctl 16 3 + 1) % 8] else [fld e.ctl 16 3])
  | .tmmaSeg => a
  | .tstore => [fld e.ctl 0 3]
  | _ => []

/-- The tiles that the head reads: those of the pool and the operand tiles; a TSAVE reads what it saves (R193). -/
def State.headTiles (s : State) (e : TileEntry) : List Nat × List Nat :=
  let sh := s.tile.engine.shapeOf e
  if e.op == .tsave then
    if e.ctl.getLsbD 2 then ([], [])
    else ((List.range 32).filter fun n => (s.tile.engine.name n).isSome,
      (List.range 8).filter fun n => e.ctl.getLsbD 0 || s.tile.tuseOp.getLsbD n)
  else (e.poolTiles, e.opTiles sh)

/-- Bits come back flipped from the units that the instruction reads. -/
def State.flipUnits (s : State) (e : TileEntry) (fs : List (Nat × UnitFlips)) : State :=
  let rs := e.reads (s.tile.engine.shapeOf e)
  fs.foldl (fun s x => if overlapAny rs (32 * x.1) 32 then
    let m := s.mark x.1
    s.setMark { m with flips := m.flips ^^^ x.2 } else s) s

/-- Parity in the pool and in an operand tile: the tile is poisoned, and it counts against the tile array (R189, R433). -/
def State.arrayErrors (s : State) (e : TileEntry) : State :=
  let tiles := s.headTiles e
  let s := match e.meets.pool with
    | some n => if tiles.1.contains n.val then (s.poisonHead true n.val 0#64).rasCount 0x40 .immediate n.val 0#64 else s
    | none => s
  match e.meets.opTile with
  | some t =>
    if tiles.2.contains t.val then
      let s := s.poisonHead false t.val 0#64
      let s := if e.op == .tmma || e.op == .tmmaSeg then s.setPoison true (ctlCd e.ctl) else s
      s.rasCount 0x41 .immediate (0x100 + t.val) 0#64
    else s
  | none => s

/-- The oldest queued instruction starts. -/
def State.tileStart (s : State) (err : TileErr) : State :=
  match s.tile.queue with
  | e :: q =>
    if s.tile.busy || s.tile.draining || e.op == .tsave then s
    else
      let e := { e with meets := err }
      let s : State := { s with tile := { s.tile with busy := true, queue := e :: q } }
      (s.flipUnits e err.flips).arrayErrors e
  | [] => s

/-! ## Block ends (R85, R86, R93, R123 to R130, R138, R139) -/

/-- One element's update: its new number, its flags, the OPND of an invalid product. -/
def stepElem (i : NameInfo) (sat : Bool) (ea eb : Byte) (xs ys : List Int) (n : Nat) : Nat × TFlags × Option Nat :=
  match i.fmt with
  | .f32c =>
    let c := contribF32C sat ea eb xs ys
    let r := acc (pairOf n) c.val
    (ofPair r.1, c.flags ||| r.2, if c.invalid || r.2 &&& tfINV != 0#7 then some (opndCode ea eb) else none)
  | .i32 =>
    let r := holdInt 32 tfOVF (intOf 32 n + blockSum xs ys)
    (ofIntW 32 r.1, r.2, none)
  | .x128 =>
    let c := exactContribution ea eb xs ys
    let r := x128Add i.wbase (intOf 128 n) c.1
    (ofIntW 128 r.1, r.2, if c.2 then some (opndCode ea eb) else none)

/-- A lane's element block with its scale byte. -/
abbrev LaneBlock := List Int × Byte

/-- The row mask of the current pass; a TMMA feeds every row. -/
def TileEntry.passMask (e : TileEntry) : Word :=
  if e.op == .tmmaSeg then ((e.segs[e.pass]?).map fun g => g.mask).getD 0#32 else 0xFFFFFFFF#32

/-- Row `i` and column `j` are fed as far as the mask registers go (R101, R102). -/
def State.rowOn (s : State) (e : TileEntry) (i : Nat) : Bool := !e.ctl.getLsbD 13 || s.tile.maskr.getLsbD i
def State.colOn (s : State) (e : TileEntry) (j : Nat) : Bool := !e.ctl.getLsbD 13 || s.tile.maskc.getLsbD j

/-- One lane's block from the scratchpad. -/
def State.streamBlock (s : State) (cd code : Nat) (f : Stream) (l k : Nat) : State × LaneBlock :=
  let r := s.tileRead false (f.off + l * f.ls + k * f.ks) 32 (some (true, cd))
  let q := r.1.tileRead true (f.soff + (l * f.ls + k * f.ks) / 32) 1 (some (true, cd))
  (q.1, bxElems code r.2.1, q.2.1.headD 0#8)

/-- One lane's block from an operand tile; lanes 32 to 63 lie in the next tile (R110). -/
def State.tileBlock (s : State) (code n l q : Nat) : LaneBlock :=
  let t := (n + l / 32) % 8
  (bxElems code (s.tile.ops.read (opBlock t (l % 32) q) 32), s.tile.ops.get (opScale t (l % 32) q))

/-- The blocks of the lanes that are needed; others are left out. -/
def State.laneBlocks (s : State) (need : Nat → Bool) (get : State → Nat → State × LaneBlock) : List Nat → State × List LaneBlock
  | [] => (s, [])
  | l :: ls =>
    let r := if need l then get s l else (s, ([], 0#8))
    let q := r.1.laneBlocks need get ls
    (q.1, r.2 :: q.2)

/-- What a K-block gives the tile: its flags and, for the lowest row and then column, the OPND of an invalid product. -/
structure BlockOut where
  elems : List Nat
  flags : TFlags
  invalid : Option (Nat × Nat × Nat)
deriving DecidableEq, Repr

/-- Adds one K-block to the elements of a chain. -/
def addBlock (i : NameInfo) (sat : Bool) (rowOn colOn : Nat → Bool) (as bs : List LaneBlock) (old : List Nat) : BlockOut :=
  let c := i.shape.cols
  let rs := old.zipIdx.map fun x =>
    let row := x.2 / c
    let col := x.2 % c
    if rowOn row && colOn col then
      let a := as.getD row ([], 0#8)
      let b := bs.getD col ([], 0#8)
      let r := stepElem i sat a.2 b.2 a.1 b.1 x.1
      (r.1, r.2.1, r.2.2.map fun o => (row, col, o))
    else (x.1, 0#7, none)
  { elems := rs.map fun r => r.1, flags := rs.foldl (fun f r => f ||| r.2.1) 0#7, invalid := rs.findSome? fun r => r.2.2 }

/-- TILE_FAULTPOS of a position (R116, R141). -/
def faultPos (e : TileEntry) (kblock opnd row col : Nat) : DWord :=
  w64 (2 ^ 63 + ctlCd e.ctl * 2 ^ 40 + e.itag.toNat * 2 ^ 32 + kblock % 65536 * 2 ^ 16 + opnd * 2 ^ 14 + col * 2 ^ 5 + row)

/-- Notes an invalid product of the head; the first one found while VALID is 0 with its stamp. VALID is judged here, when the product is
found (R116), and the position shows in TILE_FAULTPOS at completion (R107; DESIGN CHOICE, log entry 132). -/
def State.noteInvalid (s : State) (kblock : Nat) : Option (Nat × Nat × Nat) → State
  | none => s
  | some (row, col, o) =>
    let st := s.stamp
    let held := (s.reg (pTILE + 0x10C)).getLsbD 31
    s.modHead fun e => { e with
      invalid := true
      faultpos := if held then e.faultpos else some (e.faultpos.getD (faultPos e kblock o row col, st)) }

/-- The B stream of the current pass. -/
def TileEntry.bStream (e : TileEntry) : Stream := if e.op == .tmmaSeg then e.bs.getD e.pass Stream.zero else e.b

/-- One K-block of the head: its operands are read, its contributions added in its chain. -/
def State.oneBlock (s : State) (e : TileEntry) (i : NameInfo) (k : Nat) : State :=
  let c := e.ctl
  let cd := ctlCd c
  let af := fld c 28 4
  let bf := fld c 24 4
  let rowOn (r : Nat) : Bool := s.rowOn e r && e.passMask.getLsbD r
  let colOn (j : Nat) : Bool := s.colOn e j
  let q := fld c 10 2 + k
  let ra := s.laneBlocks rowOn (fun s l => if c.getLsbD 23 then s.streamBlock cd af e.a l k
    else (s, s.tileBlock af (fld c 20 3) (l + if c.getLsbD 15 then 16 else 0) q)) (List.range i.shape.rows)
  let rb := ra.1.laneBlocks colOn (fun s l => if c.getLsbD 19 then s.streamBlock cd bf e.bStream l k
    else (s, s.tileBlock bf (fld c 16 3) (l + if c.getLsbD 14 then 16 else 0) q)) (List.range i.shape.cols)
  let ch := if i.chains = 1 then 0 else k % i.shape.chains
  let s := rb.1
  let o := addBlock i ((s.reg (pTILE + 0x100)).getLsbD 11) rowOn colOn ra.2 rb.2 (readChain s.tile.pool cd i ch)
  let fed := ((List.range i.shape.rows).filter rowOn).length * ((List.range i.shape.cols).filter colOn).length
  let s := (s.setPool (writeChain s.tile.pool cd i ch o.elems)).headFlags o.flags
  (s.noteInvalid k o.invalid).chargeCells (if bxWide af then 2 else 3) (16 * fed)

/-- KDONE and PASS after `n` more K-blocks (R196). -/
def TileEntry.advance (e : TileEntry) (n : Nat) : TileEntry :=
  let d := min e.kb (e.kdone + n)
  if e.op == .tmmaSeg && d == e.kb && decide (e.pass + 1 < e.segs.length) then { e with pass := e.pass + 1, kdone := 0 }
  else { e with kdone := d }

/-- THE BLOCK END of the group in progress: up to as many K-blocks as the shape has chains. It needs array cycles that the Weighbridge
grants; while the engine drains, a running instruction adds the group in progress and then stops (R86, R93, R100, R192). SATOVF counts as
it stands at the block end (DESIGN CHOICE, log entry 133). -/
def State.blockEnd (s : State) : State :=
  match s.tile.queue with
  | e :: _ =>
    match s.tile.engine.name (ctlCd e.ctl) with
    | some i =>
      if !s.tile.busy || !(e.op == .tmma || e.op == .tmmaSeg) || e.allAdded || s.act == 0 || (s.tile.draining && s.tile.stopped) then s
      else
        let n := min i.shape.chains (e.kb - e.kdone)
        let s := (List.range n).foldl (fun s k => s.oneBlock e i (e.kdone + k)) s
        let s := s.bump64 (pTILE + 0x130) (if i.shape == .s32x64 then 32 else 16)
        let s : State := { s with tile := { s.tile with stopped := s.tile.draining } }
        (s.charge 4 ((footprint i.shape i.fmt + 255) / 256)).modHead fun e => e.advance n
    | none => s
  | [] => s

/-! ## What each instruction does when it completes -/

/-- What a completing instruction reports beside its entry: flags, an invalid product in a merge at (row, column). -/
abbrev Report := TFlags × Option (Nat × Nat)

/-- The first position, row-major, whose merge was invalid. -/
def firstInvalid (cols : Nat) (rs : List TFlags) : Option (Nat × Nat) :=
  (rs.zipIdx.find? fun x => x.1 &&& tfINV != 0#7).map fun x => (x.2 / cols, x.2 % cols)

def orFlags (rs : List TFlags) : TFlags := rs.foldl (fun f r => f ||| r) 0#7

def State.chargePool (s : State) (i : NameInfo) : State := s.charge 4 ((footprint i.shape i.fmt + 255) / 256)

/-- A report of the head. -/
def State.report (s : State) (r : Report) : State :=
  let s := s.headFlags r.1
  match r.2 with
  | some (row, col) => s.noteInvalid 0xFFFF (some (row, col, 0))
  | none => s

/-- The initial number of an element from its preload, and flags (R121). -/
def preloadElem (i : NameInfo) (v : Word) : Nat × TFlags :=
  match i.fmt with
  | .f32c => (ofPair (preloadPair v), 0)
  | .i32 => (v.toNat, 0)
  | .x128 => let r := preloadX128 i.wbase v; (ofIntW 128 r.1, r.2)

/-- The words of a residual tile that preloads a tile, row by row (R119, R120). -/
def State.preloadRows (s : State) (e : TileEntry) (i : NameInfo) : List Nat → State × List Word
  | [] => (s, [])
  | r :: rs =>
    let a := s.tileRead false (e.a.off + r * e.aux) (4 * i.shape.cols) (some (true, ctlCd e.ctl))
    let q := a.1.preloadRows e i rs
    (q.1, (chunksOf 4 i.shape.cols a.2.1).map (fun b => w32 (leNat b)) ++ q.2)

/-- The words of a preload in element order: zeros, a bias row for every row, a bias column for every column, a residual tile; a
bias vector is read once (R119, R120). -/
def State.preload (s : State) (e : TileEntry) (i : NameInfo) : State × List Word :=
  let rows := i.shape.rows
  let cols := i.shape.cols
  match fld e.ctl 11 2 with
  | 0 => (s, List.replicate (rows * cols) 0#32)
  | 1 =>
    let q := s.tileRead false e.a.off (4 * cols) (some (true, ctlCd e.ctl))
    let row := (chunksOf 4 cols q.2.1).map fun b => w32 (leNat b)
    (q.1, (List.replicate rows row).flatten)
  | 2 =>
    let q := s.tileRead false e.a.off (4 * rows) (some (true, ctlCd e.ctl))
    (q.1, (chunksOf 4 rows q.2.1).flatMap fun b => List.replicate cols (w32 (leNat b)))
  | _ => s.preloadRows e i (List.range rows)

/-- Poison bits of names that are live before and not after. -/
def endedMask (a b : TileView) : Word :=
  (List.range 32).foldl (fun m n => if (a.name n).isSome && (b.name n).isNone then m ||| w32 (2 ^ n) else m) 0#32

/-- TBEGIN (R119). -/
def State.doTbegin (s : State) (e : TileEntry) : State :=
  let cd := ctlCd e.ctl
  let i := beginInfo e.ctl
  let gone := endedMask s.tile.engine (viewStep s.tile.engine e) ||| w32 (2 ^ cd)
  let s : State := { s with tile := { s.tile with poison := s.tile.poison &&& ~~~gone } }
  let r := s.preload e i
  let xs := r.2.map fun w => preloadElem i w
  let s := r.1.setPool (mapChains r.1.tile.pool cd i fun c old => if c = 0 then xs.map Prod.fst else old.map fun _ => 0)
  (s.chargePool i).headFlags (orFlags (xs.map Prod.snd))

/-- Elements of all kept chains, chain by chain, turned into one list per element. -/
def transposeChains (cs : List (List Nat)) (n : Nat) : List (List Nat) :=
  (List.range n).map fun k => cs.map fun c => c.getD k 0

/-- The closed values of an F32C tile, element by element, with what the merges report. -/
def closedPairs (pool : Memory) (cd : Nat) (i : NameInfo) : List (Pair × TFlags) :=
  let n := i.shape.rows * i.shape.cols
  (transposeChains ((List.range i.chains).map fun c => readChain pool cd i c) n).map fun ps =>
    if i.opn then closeChains (ps.map pairOf) else (pairOf (ps.headD 0), 0)

/-- TCLOSE (R130). -/
def State.doTclose (s : State) (e : TileEntry) : State :=
  let cd := ctlCd e.ctl
  match s.tile.engine.name cd with
  | none => s
  | some i =>
    let s := s.chargePool i
    if i.opn && i.split then
      let cs := closedPairs s.tile.pool cd i
      let s := s.setPool (mapChains s.tile.pool cd i fun c old => if c = 0 then cs.map fun p => ofPair p.1 else old.map fun _ => 0)
      s.report (orFlags (cs.map Prod.snd), firstInvalid i.shape.cols (cs.map Prod.snd))
    else s

/-- One element of TEW: destination, source (R113). -/
def tewElem (i : NameInfo) (op : Nat) (d x : Nat) : Nat × TFlags :=
  match i.fmt with
  | .f32c =>
    let p := pairOf d
    let q := pairOf x
    let pick (want : Ordering) : Nat :=
      if p.value.isNan || q.value.isNan then ofPair Pair.nan
      else if q.value.cmpZ p.value == want then ofPair q.canon else d
    match op with
    | 0 => (x, 0)
    | 1 => let r := merge p q; (ofPair r.1, r.2)
    | 2 => let r := merge p q.neg; (ofPair r.1, r.2)
    | 3 => (ofPair q.neg, 0)
    | 4 => (0, 0)
    | 5 => (pick .gt, 0)
    | _ => (pick .lt, 0)
  | f =>
    let w := 8 * f.bytes
    let a := intOf w d
    let b := intOf w x
    let put (fl : TFlags) (v : Int) : Nat × TFlags := let r := holdInt w fl v; (ofIntW w r.1, r.2)
    match op with
    | 0 => (x, 0)
    | 1 => put tfOVF (a + b)
    | 2 => put tfOVF (a - b)
    | 3 => put (if f = .i32 then tfSAT else tfOVF) (-b)
    | 4 => (0, 0)
    | 5 => (if a < b then x else d, 0)
    | _ => (if b < a then x else d, 0)

/-- TEW (R113, R190). -/
def State.doTew (s : State) (e : TileEntry) : State :=
  let cd := ctlCd e.ctl
  let cs := ctlCs e.ctl
  let op := tewOp e.ctl
  match s.tile.engine.name cd with
  | none => s
  | some i =>
    let pool := s.tile.pool
    let rs := (List.range i.chains).map fun c =>
      (readChain pool cd i c).zipWith (tewElem i op) (if op = 4 then readChain pool cd i c else readChain pool cs i c)
    let pool' := rs.zipIdx.foldl (fun p x => writeChain p cd i x.2 (x.1.map Prod.fst)) pool
    let fl := orFlags (rs.flatMap fun r => r.map Prod.snd)
    let n := i.shape.rows * i.shape.cols
    let inv := if op = 1 ∨ op = 2 then
        firstInvalid i.shape.cols ((List.range n).map fun k => orFlags (rs.map fun r => (r.map Prod.snd).getD k 0))
      else none
    let bad (k : Nat) : Bool := s.tile.poison.getLsbD k
    let p := s.tile.poison
    let m := w32 (2 ^ cd)
    let poison := match op with
      | 0 | 3 => if bad cs then p ||| m else p &&& ~~~m
      | 4 => p &&& ~~~m
      | _ => if bad cs then p ||| m else p
    let s : State := { s with tile := { s.tile with pool := pool', poison := poison } }
    let s := (s.chargePool i).report (fl, inv)
    if op ≠ 4 ∧ poison.getLsbD cd then s.headFlags tfPOISON else s

/-- Blocks that a TLOAD or TCRATE puts into an operand tile: K-block and lane in turn. -/
def State.loadBlocks (s : State) (t koff kb : Nat) (lanes : List (Nat × (Nat → Nat) × (Nat → Nat))) : State :=
  lanes.foldl (fun s x =>
    (List.range kb).foldl (fun s q =>
      let r := s.tileRead false (x.2.1 q) 32 (some (false, t))
      let z := r.1.tileRead true (x.2.2 q) 1 (some (false, t))
      z.1.setOps ((z.1.tile.ops.write (opBlock t x.1 (koff + q)) r.2.1).write (opScale t x.1 (koff + q)) z.2.1)) s) s

/-- An operand tile has been written: its bit of TILE_TUSE_OP; a whole write clears its poison first (R190). -/
def State.opWritten (s : State) (t : Nat) (whole : Bool) : State :=
  let m : Byte := BitVec.ofNat 8 (2 ^ t)
  { s with tile := { s.tile with
      tuseOp := s.tile.tuseOp ||| m, poisonOp := if whole then s.tile.poisonOp &&& ~~~m else s.tile.poisonOp } }

/-- TLOAD (R112). -/
def State.doTload (s : State) (e : TileEntry) : State :=
  let t := fld e.ctl 0 3
  if e.kb = 0 then s
  else
    let f := e.a
    (s.opWritten t (e.kb == 4)).loadBlocks t (fld e.ctl 3 2) e.kb ((List.range 32).map fun l =>
      (l, (fun q => f.off + l * f.ls + q * f.ks), fun q => f.soff + (l * f.ls + q * f.ks) / 32))

/-- A read at TR that was uncorrectable poisons the instruction's tile, if it has one, and shows in POISON (R189). -/
def State.badAtTR (s : State) (e : TileEntry) : State :=
  match e.badUnit, e.errTile with
  | some _, some (acc, n) => (s.setPoison acc n).headFlags tfPOISON
  | some _, none => s.headFlags tfPOISON
  | none, _ => s

/-- TCRATE's load (R174). -/
def State.doTcrate (s : State) (e : TileEntry) : State :=
  let t := fld e.ctl 0 3
  let s := (s.opWritten t (e.kb == 4 && e.rows.length == 32)).loadBlocks t (fld e.ctl 4 2) e.kb
    (e.rows.zipIdx.map fun r => (r.2, (fun q => r.1.1 + 32 * q), fun q => r.1.2 + q))
  ({ s with tile := { s.tile with maskr := e.maskr } } : State).badAtTR e

/-- TSTORE (R112): nothing from a poisoned tile. -/
def State.doTstore (s : State) (e : TileEntry) : State :=
  let t := fld e.ctl 0 3
  let koff := fld e.ctl 3 2
  let f := e.a
  if s.tile.poisonOp.getLsbD t then s.headFlags tfPOISON
  else
    (List.range 32).foldl (fun s l => (List.range e.kb).foldl (fun s q =>
      let ops := s.tile.ops
      (s.spxWriteBy (classIn e.wins) (f.off + l * f.ls + q * f.ks) (ops.read (opBlock t l (koff + q)) 32)).spxWriteBy (classIn e.wins)
        (f.soff + (l * f.ls + q * f.ks) / 32) [ops.get (opScale t l (koff + q))]) s) s

/-- TMASK. -/
def State.doTmask (s : State) (e : TileEntry) : State :=
  { s with tile := { s.tile with
      maskr := if e.ctl.getLsbD 0 then e.maskr else s.tile.maskr, maskc := if e.ctl.getLsbD 1 then e.maskc else s.tile.maskc } }

/-- The end of a TMMA or TMMA.SEG: ZMASK's zeros and propagated poison (R102, R177, R190). -/
def State.doTmmaEnd (s : State) (e : TileEntry) : State :=
  let c := e.ctl
  let cd := ctlCd c
  match s.tile.engine.name cd with
  | none => s
  | some i =>
    let seg := e.op == .tmmaSeg
    let rows := e.segs.foldl (fun m g => m ||| g.mask) 0#32
    let fed (r j : Nat) : Bool := s.rowOn e r && s.colOn e j && (!seg || rows.getLsbD r)
    let zero := c.getLsbD 12 && (if seg then true else c.getLsbD 13 && e.kb != 0)
    let s := if zero then s.setPool (mapChains s.tile.pool cd i fun _ old =>
        old.zipIdx.map fun x => if fed (x.2 / i.shape.cols) (x.2 % i.shape.cols) then x.1 else 0) else s
    let p := s.tile.poison.getLsbD cd || (e.opTiles i.shape).any fun t => s.tile.poisonOp.getLsbD t
    (if p then (s.setPoison true cd).headFlags tfPOISON else s).badAtTR e

/-! ## TCONV (R144 to R163) -/

/-- What a TCONV reads beside its tile: words by index; whether a read was uncorrectable. -/
def State.convWords (s : State) (poison : Option (Bool × Nat)) (off n : Nat) : State × List Word × Bool :=
  if n = 0 then (s, [], false)
  else
    let r := s.tileRead false off (4 * n) poison
    (r.1, (chunksOf 4 n r.2.1).map (fun b => w32 (leNat b)), r.2.2)

/-- The same for each row of a residual tile. -/
def State.convMatrix (s : State) (poison : Option (Bool × Nat)) (off stride n : Nat) : List Nat → State × List (List Word) × Bool
  | [] => (s, [], false)
  | r :: rs =>
    let a := s.convWords poison (off + r * stride) n
    let q := a.1.convMatrix poison off stride n rs
    (q.1, a.2.1 :: q.2.1, a.2.2 || q.2.2)

/-- The exact values of the elements before conversion, with the merges' flags (R131, R146). -/
def closedValues (pool : Memory) (cd : Nat) (i : NameInfo) : List (FVal × TFlags) :=
  match i.fmt with
  | .f32c => (closedPairs pool cd i).map fun p => (p.1.value, p.2)
  | .i32 => (readChain pool cd i 0).map fun n => (FVal.ofInt (intOf 32 n), 0)
  | .x128 => (readChain pool cd i 0).map fun n => (FVal.ofScaled (intOf 128 n) i.wbase, 0)

/-- The rounding of each element of a row with its word. -/
def convRnd (mode rbits : Nat) (w : Word) : Rnd :=
  match mode with
  | 0 => .rne
  | 1 => .tz
  | _ => srRnd rbits w

/-- The random words of all rows, and the lanes after them (R150). -/
def randomRows (stoch : Bool) (cols : Nat) (lanes : List Word) : Nat → List Word × List (List Word)
  | 0 => (lanes, [])
  | n + 1 =>
    let r := randomRows stoch cols lanes n
    if stoch then
      let q := rngRow r.1 cols
      (q.1, r.2 ++ [q.2])
    else (r.1, r.2 ++ [List.replicate cols 0#32])

/-- An element that is converted: its stage-4 value with its rounding; none where it is masked. -/
abbrev ConvElem := BxPos

/-- Consecutive written elements of a lane, as byte runs from their position. -/
def runsOf (sz : Nat) : Nat → List (Option (List Byte)) → List (Nat × List Byte)
  | _, [] => []
  | k, none :: xs => runsOf sz (k + 1) xs
  | k, some b :: xs =>
    match runsOf sz (k + 1) xs with
    | (p, bs) :: r => if p = (k + 1) * sz then (k * sz, b ++ bs) :: r else (k * sz, b) :: (p, bs) :: r
    | [] => [(k * sz, b)]

/-- The output of an element format: its bytes by lane, its flags (R158). -/
def elemLane (ofmt : Nat) (xs : List ConvElem) : List (Nat × List Byte) × TFlags :=
  let rs := xs.map fun x => x.map fun v => outElem ofmt v.2 v.1
  (runsOf (outBytes ofmt) 0 (rs.map fun r => r.map fun p => leBytes p.1 (outBytes ofmt)),
    orFlags (rs.map fun r => (r.map fun p => p.2).getD 0#7))

/-- The blocks of a BX lane: element bytes and scale byte of each (R151, R152). -/
def bxLane (ofmt k : Nat) (xs : List ConvElem) : List (List Byte × Byte) × TFlags :=
  let wide := ofmt == 4
  let bs := (cutBlocks (if wide then 32 else 64) xs k).map fun ps => encodeBlock (if wide then 127 else 7) ps
  (bs.map fun b => (packBlock wide b.1, b.2.1), orFlags (bs.map fun b => b.2.2))

/-- The lanes of a row-major matrix: its rows, or its columns. -/
def lanesOf (byCol : Bool) (rows cols : Nat) (m : List (List ConvElem)) : List (List ConvElem) :=
  if byCol then (List.range cols).map fun j => (List.range rows).map fun i => (m.getD i []).getD j none else m

/-- Everything a TCONV computes: its matrix of elements, the flags of stages 2 to 4, the lanes afterwards. -/
structure ConvOut where
  elems : List (List ConvElem)
  flags : TFlags
  lanes : List Word
deriving DecidableEq, Repr

/-- Stages 1 to 4 of all elements (R144, R145, R150, R156). -/
def convStages (i : NameInfo) (c : Word) (xs : List FVal) (live : Nat → Nat → Bool) (scale : Nat → Nat → Option FVal)
    (bias : Nat → Nat → Option FVal) (clip : Option (FVal × FVal)) (rbits : Nat) (lanes : List Word) : ConvOut :=
  let cols := i.shape.cols
  let rw := randomRows (fld c 26 2 == 2) cols lanes i.shape.rows
  let m := (List.range i.shape.rows).map fun r => (List.range cols).map fun j =>
    if live r j then
      let z := stages (xs.getD (r * cols + j) .nan) (scale r j) (bias r j) clip
      (some (z.1, convRnd (fld c 26 2) rbits ((rw.2.getD r []).getD j 0#32)), z.2)
    else ((none : ConvElem), 0#7)
  { elems := m.map fun r => r.map Prod.fst, flags := orFlags (m.flatMap fun r => r.map Prod.snd), lanes := rw.1 }

/-- The output of a lane to the scratchpad: its flags, and its bytes where `write` (R82, R83, R158, R190). -/
def State.putLane (s : State) (e : TileEntry) (write : Bool) (l k : Nat) (xs : List ConvElem) : State :=
  let c := e.ctl
  let f := e.a
  let put (s : State) (off : Nat) (bs : List Byte) : State := if write then s.spxWriteBy (classIn e.wins) off bs else s
  if isBx c then
    let b := bxLane (fld c 28 4) k xs
    (b.1.zipIdx.foldl (fun s x => put (put s (f.off + l * f.ls + x.2 * f.ks) x.1.1)
      (f.soff + (l * f.ls + x.2 * f.ks) / 32) [x.1.2]) s).headFlags b.2
  else
    let b := elemLane (fld c 28 4) xs
    (b.1.foldl (fun s x => put s (f.off + l * f.ls + x.1) x.2) s).headFlags b.2

/-- Writes the blocks of a lane into operand tiles (R160). -/
def State.putTileLane (s : State) (c : Word) (sixteen : Bool) (l k : Nat) (xs : List ConvElem) : State :=
  let b := bxLane (fld c 28 4) k xs
  let t := (fld c 9 3 + l / 32) % 8
  let lane := if sixteen then l + (if c.getLsbD 14 then 16 else 0) else l % 32
  let ops := b.1.zipIdx.foldl (fun m x => (Memory.write m (opBlock t lane (fld c 12 2 + x.2)) x.1.1).write
    (opScale t lane (fld c 12 2 + x.2)) [x.1.2]) s.tile.ops
  (s.setOps ops).headFlags b.2

/-- The statistics of the fed rows, written after the output (R153, R154, R161). -/
def State.putStats (s : State) (e : TileEntry) (r : ConvRec) (rowOn : Nat → Bool) (m : List (List ConvElem)) (write : Bool) : State :=
  let c := e.ctl
  let cls := classIn e.wins
  if fld c 19 2 = 0 then s
  else
    m.zipIdx.foldl (fun s x =>
      if rowOn x.2 then
        let ws := x.1.filterMap fun e => e.map fun v => statValue v.1
        let s := if c.getLsbD 18 && ws.isEmpty then s.headFlags tfEMPTY else s
        if write then s.spxWriteBy cls (r.statOff + x.2 * statBytes c) ((rowStat (fld c 19 2) ws).flatMap fun w => leBytes w.toNat 4) else s
      else s) s

def ConvRec.none : ConvRec := ⟨0, 0, 0, 0, 0, 0, 0, 0⟩

/-- The generator and CONV_SEED as a RESEED leaves them (R149). -/
def State.reseed (s : State) (c : Word) (r : ConvRec) : State :=
  if c.getLsbD 17 then { s with tile := { s.tile with seed := r.seed, lanes := rngSeed (lo32 r.seed) } } else s

/-- TCONV. A destination tile counts as written, and its bit of TILE_TUSE_OP is set, also where every lane of it is masked (DESIGN
CHOICE, log entry 134). -/
def State.doTconv (s : State) (e : TileEntry) : State :=
  let c := e.ctl
  let cs := ctlCd c
  match s.tile.engine.name cs with
  | none => s
  | some i =>
    let r := e.conv.getD ConvRec.none
    let rows := i.shape.rows
    let cols := i.shape.cols
    let toTile := c.getLsbD 16
    let td := fld c 9 3
    let pz : Option (Bool × Nat) := if toTile then some (false, td) else none
    let s := (s.reseed c r).chargePool i
    let sv := s.convWords pz r.scaleOff (match fld c 24 2 with | 1 => rows | 2 => cols | _ => 0)
    let bv := sv.1.convWords pz r.biasOff (match fld c 22 2 with | 1 => cols | 2 => rows | _ => 0)
    let bm := if fld c 22 2 = 3 then bv.1.convMatrix pz r.biasOff r.biasStride cols (List.range rows) else (bv.1, [], false)
    let s := bm.1
    let bad := e.badUnit.isSome || sv.2.2 || bv.2.2 || bm.2.2
    let xs := closedValues s.tile.pool cs i
    let rowOn (k : Nat) : Bool := !c.getLsbD 18 || s.tile.maskr.getLsbD k
    let colOn (k : Nat) : Bool := !c.getLsbD 18 || s.tile.maskc.getLsbD k
    let at' (ws : List Word) (k : Nat) : Option FVal := (ws[k]?).map dec32
    let scale (a b : Nat) : Option FVal := match fld c 24 2 with | 1 => at' sv.2.1 a | 2 => at' sv.2.1 b | _ => none
    let bias (a b : Nat) : Option FVal :=
      match fld c 22 2 with | 1 => at' bv.2.1 b | 2 => at' bv.2.1 a | 3 => at' (bm.2.1.getD a []) b | _ => none
    let clip := if c.getLsbD 21 then some (dec32 r.clipLo, dec32 r.clipHi) else none
    let o := convStages i c (xs.map Prod.fst) (fun a b => rowOn a && colOn b) scale bias clip s.tile.rbits.toNat s.tile.lanes
    let s : State := { s with tile := { s.tile with lanes := o.lanes } }
    let fs := (xs.map Prod.snd).zipIdx.map fun x => if rowOn (x.2 / cols) && colOn (x.2 % cols) then x.1 else 0
    let s := (s.report (orFlags fs, firstInvalid cols fs)).headFlags o.flags
    let poisoned := s.tile.poison.getLsbD cs
    let byCol := c.getLsbD 15
    let lanes := lanesOf byCol rows cols o.elems
    let laneOn (l : Nat) : Bool := if byCol then colOn l else rowOn l
    let s := if poisoned || (bad && !toTile) then s.headFlags tfPOISON else s
    let k := bxBlocks c i.shape
    if toTile then
      let n := bxLanes c i.shape
      let tiles := if n = 64 then [td, (td + 1) % 8] else [td]
      let s := lanes.zipIdx.foldl (fun s x => if laneOn x.2 then s.putTileLane c (n == 16) x.2 k x.1 else s) s
      let s := tiles.foldl (fun s t => s.opWritten t false) s
      let s : State := if poisoned || e.badUnit.isSome then
          { s with tile := { s.tile with poisonOp := tiles.foldl (fun p t => p ||| BitVec.ofNat 8 (2 ^ t)) s.tile.poisonOp } } else s
      (s.badAtTR e).putStats e r rowOn o.elems true
    else
      let write := !poisoned && !bad
      let s := lanes.zipIdx.foldl (fun s x => if isBx c && !laneOn x.2 then s else s.putLane e write x.2 k x.1) s
      s.putStats e r rowOn o.elems write

/-! ## Completion (R107, R138, R142, R186) -/

/-- The effects of an instruction other than TSAVE and TRESTORE at its completion, its view apart. -/
def State.tileEffect (s : State) (e : TileEntry) : State :=
  match e.op with
  | .tbegin => s.doTbegin e
  | .tmma | .tmmaSeg => s.doTmmaEnd e
  | .tclose => s.doTclose e
  | .tconv => (s.doTconv e).bump (pCONV + 0x104)
  | .tload => s.doTload e
  | .tstore => s.doTstore e
  | .tcrate => s.doTcrate e
  | .tew => s.doTew e
  | .tmask => s.doTmask e
  | .tsave | .trestore => s

/-- The deferred-trap record (R186). -/
def State.deferTrap (s : State) (e : TileEntry) : State :=
  let d := s.reg kDEFER
  if d.getLsbD 31 then s.setReg kDEFER (d ||| 0x40000000#32)
  else
    let s : State := { s with tile := { s.tile with trapSeq := e.seq } }
    (s.setReg kDEFER (w32 (2 ^ 31 + e.priv.toNat * 2 ^ 24 + ctlCd e.ctl * 2 ^ 16 + e.itag.toNat))).setReg (pTILE + 0x14C)
      (e.tid.setWidth 32)

/-- What a completed instruction has set: flags with their event, the fault position, TILE_ARITH, a deferred trap. -/
def State.reportEntry (s : State) (e : TileEntry) : State :=
  let old := s.reg (pTILE + 0x104)
  let new := old ||| e.flags.setWidth 32
  let s := if new = old then s else (s.setReg (pTILE + 0x104) new).raise pTILE 0
  let s := match e.faultpos with
    | some (p, st) => (s.setReg64 (pTILE + 0x108) p).setReg64 (pTILE + 0x110) st
    | none => s
  let s := if e.invalid then s.orReg (pRAS + 0x10C) 0x1#32 else s
  if e.invalid && e.trapinv then s.deferTrap e else s

/-- The acknowledgement of a remote write that has taken effect (R43). -/
def State.ackLate (s : State) : Option InMsg → State
  | some m => s.answer (rspBody s 2 m 0 []) m.src m.su
  | none => s

/-- Page writes whose older instructions have all completed take effect, and are answered; `n` instructions have left the queue. -/
def State.lateStep (s : State) (n : Nat) : State :=
  let due := s.tile.late.filter fun l => l.1 ≤ n
  let rest := (s.tile.late.filter fun l => n < l.1).map fun l => (l.1 - n, l.2)
  due.foldl (fun s l => (s.lateNow l.2.1).ackLate l.2.2) { s with tile := { s.tile with late := rest } }

/-- Waiting remote writes of TILE_TUSE take effect in the first idle cycle, and are answered (R117). -/
def State.releaseTuse (s : State) : State :=
  if s.tileQuiet then
    let held := s.tile.heldTuse
    held.foldl (fun s h => (s.tuseNow h.1 h.2.1).ackLate h.2.2) { s with tile := { s.tile with heldTuse := [] } }
  else s

/-- AN INSTRUCTION COMPLETES: its effects, its report, the engine view, the writes that waited for it. -/
def State.tileComplete (s : State) : State :=
  match s.tile.queue with
  | e :: _ =>
    if !s.tile.busy || e.op == .tsave || e.op == .trestore || !e.allAdded then s
    else
      let s := s.tileEffect e
      let s : State := { s with tile := { s.tile with engine := viewStep s.tile.engine e } }
      let s := match s.tile.queue with
        | e :: _ => s.reportEntry e
        | [] => s
      let s : State := { s with tile := { s.tile with queue := s.tile.queue.drop 1, busy := false } }
      (s.lateStep 1).releaseTuse
  | [] => s

/-- TILE_INSTR_START (R105). -/
def execTileInstrStart (err : TileErr) (s : State) : Out := .next (s.tileStart err)
/-- TILE_BLOCK_END (R86). -/
def execTileBlockEnd (s : State) : Out := .next s.blockEnd

end Sys2Proof.Machine
end

