-- ==== Sys2Proof/Machine/TileImage.lean ====
section
/-! DEFINITION. The image of the tile state: TSAVE's drain, image and completion, TRESTORE's checks and completion (08 R191 to R199). -/

namespace Sys2Proof.Machine

/-! ## The image's layout (R195, R196) -/

/-- Fields, each with its width, from bit 0 up. -/
def packBits : List (Nat × Nat) → Nat
  | [] => 0
  | (v, n) :: xs => v % 2 ^ n + 2 ^ n * packBits xs

/-- The fields of given widths. -/
def unpackBits (x : Nat) : List Nat → List Nat
  | [] => []
  | n :: ns => x % 2 ^ n :: unpackBits (x / 2 ^ n) ns

/-- The sub-opcodes of the queued instructions (R108). -/
def subop : TileOp → Nat
  | .tbegin => 0x08
  | .tmma => 0x10
  | .tmmaSeg => 0x11
  | .tclose => 0x18
  | .tconv => 0x20
  | .tload => 0x28
  | .tstore => 0x29
  | .tsave => 0x30
  | .trestore => 0x31
  | .tcrate => 0x38
  | .tew => 0x40
  | .tmask => 0x48

/-- The instruction of a saved entry's SUBOP; TSAVE and TRESTORE are never saved. -/
def opOfSub (n : Nat) : Option TileOp :=
  match n with
  | 0x08 => some .tbegin
  | 0x10 => some .tmma
  | 0x11 => some .tmmaSeg
  | 0x18 => some .tclose
  | 0x20 => some .tconv
  | 0x28 => some .tload
  | 0x29 => some .tstore
  | 0x38 => some .tcrate
  | 0x40 => some .tew
  | 0x48 => some .tmask
  | _ => none

/-- The scratchpad form of a stream, 81 bits: offsets and strides of elements are multiples of 32. -/
def Stream.fields (f : Stream) : List (Nat × Nat) := [(f.off / 32, 18), (f.soff, 23), (f.ls / 32, 20), (f.ks / 32, 20)]
/-- The same with an output's offset and stride in bytes. -/
def Stream.outFields (f : Stream) : List (Nat × Nat) := [(f.off, 23), (f.soff, 23), (f.ls / 32, 20), (f.ks / 32, 20)]

/-- Flags of a stopped TMMA or TMMA.SEG, which never sets EMPTY. -/
def packFlags (f : TFlags) : Nat := f.toNat % 32 + f.toNat / 64 * 32
def unpackFlags (n : Nat) : TFlags := BitVec.ofNat 7 (n % 32 + n / 32 % 2 * 64)

def crateFields (c : Option Crate) : List (Nat × Nat) :=
  match c with
  | some r => [(r.hdr / 32, 18), (r.first, 12), (r.rows, 6)]
  | none => [(0, 18), (0, 12), (0, 6)]

/-- CAPTURE by instruction. -/
def TileEntry.capture (e : TileEntry) : Nat :=
  packBits (match e.op with
    | .tmma => [(packFlags e.flags, 6), (e.kb, 16)] ++ e.a.fields ++ e.b.fields
    | .tmmaSeg => [(packFlags e.flags, 6), (e.kb, 16), (e.aux, 16)] ++ e.a.fields ++ crateFields e.crate
    | .tbegin => [(e.a.off, 23), (e.aux, 24)]
    | .tconv => e.a.outFields ++ [(((e.conv.map fun r => r.recOff).getD 0) / 64, 17)]
    | .tload | .tstore => [(e.kb, 16)] ++ e.a.fields
    | .tcrate => [(e.kb, 16), (e.aux, 16)] ++ crateFields e.crate
    | .tmask => [(e.maskr.toNat, 32), (e.maskc.toNat, 64)]
    | _ => [])

/-- The progress word. -/
def TileEntry.tprog (e : TileEntry) : Nat :=
  e.itag.toNat * 2 ^ 24 + (if e.op == .tmmaSeg then e.pass else 0) * 2 ^ 20 + bit e.trapinv 17 + bit e.started 16 + e.kdone

/-- One entry of the queue image. -/
def TileEntry.bytes (e : TileEntry) : List Byte :=
  leBytes e.tprog 4 ++ leBytes e.ctl.toNat 4 ++ leBytes (subop e.op) 1 ++ leBytes e.capture 23

def queueImage (es : List TileEntry) : List Byte :=
  es.flatMap TileEntry.bytes ++ List.replicate (32 * (32 - es.length)) 0#8

/-- The two bytes of a name. -/
def nameField : Option NameInfo → Nat
  | none => 0
  | some i =>
    2 ^ 15 + bit i.opn 14 + i.shape.code * 2 ^ 12
      + (match i.fmt with | .i32 => 1 | .f32c => 2 | .x128 => 3) * 2 ^ 10 + (BitVec.ofInt 10 i.wbase).toNat

/-- The name that two bytes describe. -/
def fieldName (n : Nat) : Option NameInfo :=
  if n / 2 ^ 15 % 2 = 0 then none
  else
    match n / 2 ^ 10 % 4 with
    | 1 => some ⟨Shape.ofCode (n / 2 ^ 12 % 4), .i32, (BitVec.ofNat 10 n).toInt, n / 2 ^ 14 % 2 == 1⟩
    | 2 => some ⟨Shape.ofCode (n / 2 ^ 12 % 4), .f32c, (BitVec.ofNat 10 n).toInt, n / 2 ^ 14 % 2 == 1⟩
    | 3 => some ⟨Shape.ofCode (n / 2 ^ 12 % 4), .x128, (BitVec.ofNat 10 n).toInt, n / 2 ^ 14 % 2 == 1⟩
    | _ => none

/-- Bytes 8 to 255 of the control area, for the entries saved and the issue tag of the TSAVE, which is NEXT_ITAG of the image (R195's
example). The position that a stopped instruction has noted and not yet reported is not in it (R107; DESIGN CHOICE, log entry 132). -/
def State.controlRest (s : State) (es : List TileEntry) (tag : Byte) : List Byte :=
  let t := s.tile
  let f := (s.reg64 (pTILE + 0x108), s.reg64 (pTILE + 0x110))
  let c := t.engine.crate
  leBytes t.engine.tuse 4 ++ leBytes t.poison.toNat 4
  ++ leBytes (t.rbits.toNat * 2 ^ 24 + (s.reg (pTILE + 0x104)).toNat % 128 * 2 ^ 16 + t.poisonOp.toNat * 256 + t.tuseOp.toNat) 4
  ++ leBytes t.maskr.toNat 4 ++ leBytes t.maskc.toNat 8 ++ leBytes f.1.toNat 8 ++ leBytes f.2.toNat 8 ++ leBytes t.seed.toNat 8
  ++ leBytes (((c.map fun r => r.rows).getD 0) * 2 ^ 26 + es.length * 2 ^ 20 + tag.toNat * 2 ^ 12 + (c.map fun r => r.first).getD 0) 4
  ++ leBytes (((c.map fun r => r.hdr / 32).getD 0) * 2 ^ 14 + bit c.isSome 0) 4
  ++ t.engine.names.flatMap (fun n => leBytes (nameField n) 2) ++ t.lanes.flatMap fun l => leBytes l.toNat 4

/-- WORD0. -/
def State.imageWord0 (s : State) : Nat :=
  let d := s.reg kDEFER
  0x01010000 + bit (d.getLsbD 31) 15 + bit (d.getLsbD 30) 14 + fld d 16 5 * 256 + fld d 0 8

/-- The control area and the queue image, 1,280 bytes, with their CRC. -/
def State.imageHead (s : State) (es : List TileEntry) (tag : Byte) : List Byte :=
  let w := leBytes s.imageWord0 4
  let r := s.controlRest es tag ++ queueImage es
  w ++ leBytes (crc32c (w ++ leBytes 0 4 ++ r)).toNat 4 ++ r

/-! ## TSAVE (R192 to R194) -/

/-- The pool slots that live tiles occupy. -/
def TileView.liveSlots (v : TileView) : List Nat :=
  (List.range 32).filter fun k => (v.name k).isSome || v.covered k

/-- Writes the image. -/
def State.writeImage (s : State) (e : TileEntry) (es : List TileEntry) : State :=
  if e.ctl.getLsbD 2 then s
  else
    let all := e.ctl.getLsbD 0
    let t := s.tile
    let put (s : State) (o : Nat) (bs : List Byte) : State := s.spxWriteBy (classIn e.wins) (e.image + o) bs
    let s := put s 0 (s.imageHead es e.itag)
    let s := (List.range 8).foldl (fun s n =>
      if all || t.tuseOp.getLsbD n then put s (0x500 + 4224 * n) (t.ops.read (4224 * n) 4224) else s) s
    (if all then List.range 32 else t.engine.liveSlots).foldl
      (fun s k => put (s.charge 4 16) (0x8900 + 4096 * k) (t.pool.read (4096 * k) 4096)) s

/-- The engine has drained for the TSAVE in the queue (cycle D): older entries are saved and leave the queue, the image is
written. A tile that its reads poison is poisoned in the image too (R189; DESIGN CHOICE, log entry 135). -/
def State.drainDone (s : State) : State :=
  if !s.tile.draining then s
  else
    let q := s.tile.queue
    let old := q.takeWhile fun e => e.op != .tsave
    match q.dropWhile fun e => e.op != .tsave with
    | [] => s
    | e :: young =>
      let running : Bool := match old with
        | h :: _ => s.tile.busy && !(h.op == .tmma || h.op == .tmmaSeg)
        | [] => false
      if running then s
      else
        let old := match old with
          | h :: t => { h with started := h.started || s.tile.busy } :: t
          | [] => []
        let s : State := { s with tile := { s.tile with queue := e :: young, busy := true, draining := false, stopped := false } }
        ((s.arrayErrors e).writeImage e old).lateStep old.length

/-- SCRUB: storage and control component as after a reset. -/
def State.scrubTile (s : State) : State :=
  let s : State := { s with tile := { s.tile with
    ops := [], pool := [], poison := 0, poisonOp := 0, maskr := 0xFFFFFFFF#32, maskc := 0xFFFFFFFFFFFFFFFF#64, seed := 0
    rbits := 8, lanes := rngSeed 0 } }
  (((s.charge 4 512).setReg (pTILE + 0x104) 0#32).setReg64 (pTILE + 0x108) 0#64).setReg64 (pTILE + 0x110) 0#64

/-- TSAVE completes. The issue view is what younger instructions make of the emptied one. -/
def State.saveDone (s : State) (e : TileEntry) (young : List TileEntry) : State :=
  let s : State := { s with tile := { s.tile with
    engine := TileView.init, issue := young.foldl viewStep TileView.init, tuseOp := 0, queue := young, busy := false } }
  let s := (s.setReg kDEFER (s.reg kDEFER &&& 0x3FFFFFFF#32)).reportEntry e
  let s := if e.ctl.getLsbD 1 then s.scrubTile else s
  (s.lateStep 1).releaseTuse

/-! ## Is an image valid (R197) -/

/-- A saved entry as the image gives it. -/
structure RawEntry where
  tprog : Nat
  ctl : Word
  sub : Nat
  cap : Nat
deriving DecidableEq, Repr

def rawEntry (q : List Byte) (k : Nat) : RawEntry :=
  ⟨recNum q (32 * k) 4, w32 (recNum q (32 * k + 4) 4), recNum q (32 * k + 8) 1, recNum q (32 * k + 9) 23⟩

/-- The bits of a control word that R109 and the instructions' tables reserve. -/
def ctlReserved : TileOp → Word
  | .tbegin => 0xFF800000#32
  | .tmma | .tmmaSeg => 0x000003E0#32
  | .tclose | .tload | .tstore => 0xFFFFFFE0#32
  | .tconv => 0x000001E0#32
  | .tcrate => 0xFFFF00C8#32
  | .tew => 0xFFFFC000#32
  | .tmask => 0xFFFFFFFC#32
  | .tsave => 0xFFFFFFF8#32
  | .trestore => 0xFFFFFFFC#32

/-- KB of a saved entry; 0 where it has none. -/
def RawEntry.kb (r : RawEntry) (op : TileOp) : Nat :=
  match op with
  | .tmma | .tmmaSeg => r.cap / 64 % 65536
  | .tload | .tstore | .tcrate => r.cap % 65536
  | _ => 0

/-- A format code, or another code, that the instruction does not accept: it counts as a reserved bit (R62, R109, R157; for codes other
than formats DESIGN CHOICE, log entry 136). -/
def codesBad (op : TileOp) (c : Word) : Bool :=
  let af := fld c 28 4
  let bf := fld c 24 4
  match op with
  | .tmma | .tmmaSeg => af < 4 || 7 < af || bf < 4 || 7 < bf || af / 2 != bf / 2
  | .tbegin => (accFmtOf (fld c 7 4)).isNone
  | .tconv => !(af == 0 || af == 2 || af == 3 || af == 4 || af == 6 || af == 8 || af == 9) || fld c 26 2 == 3 || fld c 24 2 == 3
  | .tew => 6 < tewOp c
  | _ => false

def RawEntry.kdone (r : RawEntry) : Nat := r.tprog % 65536
def RawEntry.started (r : RawEntry) : Bool := r.tprog / 65536 % 2 == 1

/-- An entry breaks one of R197's conditions; `v`: the view before it. -/
def RawEntry.bad (r : RawEntry) (k : Nat) (v : TileView) : Bool :=
  match opOfSub r.sub with
  | none => true
  | some op =>
    let mul := op == .tmma || op == .tmmaSeg
    let chains := ((v.name (ctlCd r.ctl)).map fun i => i.shape.chains).getD 1
    r.ctl &&& ctlReserved op != 0#32 || codesBad op r.ctl || r.tprog / 2 ^ 18 % 4 != 0 || (r.started && (k != 0 || !mul))
      || decide (r.kb op < r.kdone) || (mul && r.kdone % chains != 0 && r.kdone != r.kb op)

/-- The entry that an image describes, what must be read again left out. -/
def RawEntry.entry (r : RawEntry) (op : TileOp) (priv : BitVec 2) (tid : BitVec 16) : TileEntry :=
  let e : TileEntry :=
    { itag := BitVec.ofNat 8 (r.tprog / 2 ^ 24), seq := 0, op := op, ctl := r.ctl, kb := r.kb op, aux := 0, a := Stream.zero, b := Stream.zero,
      bs := [], conv := none, crate := none, rows := [], maskr := 0, maskc := 0, priv := priv, tid := tid,
      trapinv := r.tprog / 2 ^ 17 % 2 == 1, started := r.started, pass := r.tprog / 2 ^ 20 % 16, kdone := r.kdone, flags := 0,
      invalid := false, faultpos := none, image := 0, wins := [], badUnit := none, meets := TileErr.none }
  let st (xs : List Nat) : Stream := ⟨32 * xs.getD 0 0, xs.getD 1 0, 32 * xs.getD 2 0, 32 * xs.getD 3 0⟩
  let w81 := [18, 23, 20, 20]
  let ref (xs : List Nat) : Option Crate := some ⟨[], 32 * xs.getD 0 0, xs.getD 1 0, xs.getD 2 0⟩
  match op with
  | .tmma =>
    let fl := unpackFlags (r.cap % 64)
    { e with a := st (unpackBits (r.cap / 2 ^ 22) w81), b := st (unpackBits (r.cap / 2 ^ 103) w81), flags := fl
             invalid := fl &&& tfINV != 0#7 }
  | .tmmaSeg =>
    let fl := unpackFlags (r.cap % 64)
    { e with aux := r.cap / 2 ^ 22 % 65536, a := st (unpackBits (r.cap / 2 ^ 38) w81)
             crate := ref (unpackBits (r.cap / 2 ^ 119) [18, 12, 6]), flags := fl, invalid := fl &&& tfINV != 0#7 }
  | .tbegin => { e with a := ⟨r.cap % 2 ^ 23, 0, 0, 0⟩, aux := r.cap / 2 ^ 23 % 2 ^ 24 }
  | .tconv =>
    let xs := unpackBits r.cap [23, 23, 20, 20, 17]
    { e with a := ⟨xs.getD 0 0, xs.getD 1 0, 32 * xs.getD 2 0, 32 * xs.getD 3 0⟩
             conv := if needsRecord r.ctl then some ⟨64 * xs.getD 4 0, 0, 0, 0, 0, 0, 0, 0⟩ else none }
  | .tload | .tstore => { e with a := st (unpackBits (r.cap / 2 ^ 16) w81) }
  | .tcrate => { e with aux := r.cap / 2 ^ 16 % 65536, crate := ref (unpackBits (r.cap / 2 ^ 32) [18, 12, 6]) }
  | .tmask => { e with maskr := w32 (r.cap % 2 ^ 32), maskc := w64 (r.cap / 2 ^ 32) }
  | _ => e

/-- The engine view that a control area describes, its crate not read yet. -/
def imageView (c : List Byte) : TileView :=
  let q := recNum c 0x38 4
  let cr := recNum c 0x3C 4
  { names := (List.range 32).map fun n => fieldName (recNum c (0x40 + 2 * n) 2)
    crate := if cr % 2 = 1 then some ⟨[], 32 * (cr / 2 ^ 14), q % 4096, q / 2 ^ 26⟩ else none }

/-- NAMES and TUSE agree with live tiles that are aligned and do not overlap. -/
def namesOk (c : List Byte) : Bool :=
  let v := imageView c
  (List.range 32).all fun n =>
    let live := decide (2 ^ 15 ≤ recNum c (0x40 + 2 * n) 2)
    match v.name n with
    | some i => n % i.slots == 0 && !v.covered n && decide (n + i.slots ≤ 32)
    | none => !live

/-- Whether the control area is in order, by itself. -/
def controlOk (c q : List Byte) : Bool :=
  let misc := recNum c 0x10 4
  recNum c 0 4 / 65536 == 0x0101 && recNum c 4 4 == (crc32c (c.take 4 ++ leBytes 0 4 ++ c.drop 8 ++ q)).toNat
    && !(w32 (recNum c 0 4)).getLsbD 13 && misc / 2 ^ 29 == 0 && misc / 2 ^ 23 % 2 == 0 && recNum c 0x3C 4 / 2 % 2 ^ 13 == 0
    && recNum c 0x20 4 / 2 ^ 11 % 8 == 0 && recNum c 0x24 4 / 2 ^ 13 % 2 ^ 18 == 0
    && decide (recNum c 0x38 4 / 2 ^ 20 % 64 ≤ 32) && namesOk c

/-- Entries from `k` on: the first one that breaks R197, if any; `v`: the view before it. -/
def firstBad (k : Nat) (v : TileView) : List RawEntry → Option Nat
  | [] => none
  | r :: rs =>
    if r.bad k v then some k
    else firstBad (k + 1) (match opOfSub r.sub with | some op => viewStep v (r.entry op 0 0) | none => v) rs

/-! ## Building what a TRESTORE brings (R197, R198) -/

/-- What building an entry gives. -/
inductive ROut (α : Type) where
  | ok (x : α)
  | fault (cause : Nat) (detail : Word) (xaddr : DWord)
  | wait
deriving DecidableEq, Repr

/-- Ranges given as scratchpad offsets: the window check of a sub-port at the current level and TID. -/
def State.offRanges (s : State) (sub : SubPort) (kind : Nat) : List (Nat × Nat) → ROut Unit
  | [] => .ok ()
  | (off, len) :: rs =>
    if len = 0 then s.offRanges sub kind rs
    else if 2 ^ 23 < off + len then .fault cTILESTATE 5#32 (w64 (s.spxBase + off))
    else
      match s.rangeCheck ⟨.core s.pl [s.cpu.tid], sub, kind⟩ off len with
      | some (o, c) => .fault cWINDOW (s.windowDetail o c kind) (w64 (s.spxBase + o))
      | none => s.offRanges sub kind rs

/-- Goes on where a step of building gave a result. -/
def andThen {α β : Type} (r : State × ROut α) (k : State → α → State × ROut β) : State × ROut β :=
  match r.2 with
  | .ok x => k r.1 x
  | .fault c d x => (r.1, .fault c d x)
  | .wait => (r.1, .wait)

/-- A scan as a step of building. -/
def ScanOut.step : ScanOut → ROut CrateScan
  | .done a => .ok a
  | .fault c d x => .fault c d x
  | .wait => .wait

def TOut.step : TOut → ROut (List RBase)
  | .ok bs => .ok bs
  | .fault c d x => .fault c d x
  | .wait => .wait

/-- Reads the header, slots and B records of a crate reference again, through V (R198). -/
def State.rebuildCrate (s : State) (r : Crate) (kstart kb : Nat) : State × ROut CrateScan :=
  andThen (s, s.offRanges .v 0 [(r.hdr, 32)]) fun s _ =>
    if s.sbStores [(r.hdr, 32)] then (s, .wait)
    else
      let b := s.spxRead 2 [] r.hdr 32
      let h : CrateHdr := ⟨s.spxBase + r.hdr, r.hdr, recNum b.2.1 0 8, recNum b.2.1 8 4, recNum b.2.1 0xC 4⟩
      if recNum b.2.1 0x10 16 != 0 || !sizeOk h.size || h.size ≤ h.head then (b.1, .fault cTILESTATE 8#32 (w64 h.va))
      else
        let q := b.1.scanRows h false r.first kstart kb 0 ⟨[], [], 0, b.2.2⟩ (min 32 r.rows)
        andThen (q.1, q.2.step) fun s a =>
          let t := s.readBrecs a.segs
          andThen (t.1, t.2.step) fun s z => (s, .ok { a with segs := z.segs, bad := a.bad ++ z.bad })

def CrateScan.crate (a : CrateScan) (r : Crate) : Crate := { r with segs := a.segs, rows := a.rows.length }

/-- The entry's ranges that are left to check, as scratchpad offsets, at the current level and TID; older stores to what it reads are
waited for. -/
def State.rebuildEnd (s : State) (sh : Shape) (e : TileEntry) (reads : List (Nat × Nat)) : State × ROut TileEntry :=
  andThen (s, s.offRanges .m 0 reads) fun s _ => andThen (s, s.offRanges .m 1 (e.writes sh)) fun s _ =>
    if s.sbStores (e.reads sh) then (s, .wait) else (s, .ok e)

/-- Completes one entry: records and crates are read again, every range is checked. The rows of a TCRATE and the B streams of a TMMA.SEG
are checked under their tenants' TIDs as their instructions check them (R170, R178). -/
def State.rebuildEntry (s : State) (sh : Shape) (e : TileEntry) : State × ROut TileEntry :=
  match e.op with
  | .tmmaSeg =>
    let r := e.crate.getD ⟨[], 0, 0, 0⟩
    andThen (s.rebuildCrate r 0 0) fun s a =>
      match (a.segs.map fun g => aligned 5 g.bgn).find? fun x => !x.2.2 with
      | some x => (s, .fault cALIGN (w32 x.1) x.2.1)
      | none =>
        let ds := a.segs.map fun g => g.desc e.aux
        let t := s.checkRanges .m (a.segs.flatMap fun g => (g.desc e.aux).ranges 0 (s.tenantTids g.btid) sh.cols e.kb)
        andThen (t.1, t.2.step) fun s bs =>
          s.rebuildEnd sh { e with bs := formsOf ds bs, crate := some (a.crate r), badUnit := a.bad.head? }
            (if e.ctl.getLsbD 23 then e.a.cells sh.rows e.kb else [])
  | .tcrate =>
    let r := e.crate.getD ⟨[], 0, 0, 0⟩
    andThen (s.rebuildCrate r e.aux e.kb) fun s a =>
      s.rebuildEnd sh { e with
        rows := a.rows.map fun x => (x.a, x.sc), maskr := crateMask a.segs, crate := some (a.crate r), badUnit := a.bad.head? } []
  | .tconv =>
    match e.conv with
    | none => s.rebuildEnd sh e (e.reads sh)
    | some r =>
      andThen (s, s.offRanges .v 0 [(r.recOff, 64)]) fun s _ =>
        if s.sbStores [(r.recOff, 64)] then (s, .wait)
        else
          let b := s.readRecord r.recOff
          let c' := e.ctl ||| 0x10000#32
          if recordBad e.ctl b.2.1 then (b.1, .fault cTILESTATE 6#32 0#64)
          else
            match (convAligned c' ⟨0, 0, 0, 0⟩ b.2.1).find? fun x => !x.2.2 with
            | some x => (b.1, .fault cALIGN (w32 x.1) x.2.1)
            | none =>
              let t := b.1.checkRanges .m (b.1.convRanges c' sh ⟨0, 0, 0, 0⟩ b.2.1)
              andThen (t.1, t.2.step) fun s bs =>
                let e' := { e with conv := some (convRec b.2.1 r.recOff bs), badUnit := b.2.2.head? }
                s.rebuildEnd sh e' (e'.reads sh)
  | _ => s.rebuildEnd sh e (e.reads sh)

/-- All entries in index order; `v`: the view before them. A fault carries the index of its entry. -/
def State.rebuild (s : State) (priv : BitVec 2) (k : Nat) (v : TileView) : List RawEntry → State × ROut (List TileEntry)
  | [] => (s, .ok [])
  | r :: rs =>
    let e := r.entry ((opOfSub r.sub).getD .tclose) priv s.cpu.tid
    let q := s.rebuildEntry (((v.name (ctlCd e.ctl)).map fun i => i.shape).getD .s32x32) e
    match q.2 with
    | .fault c d x => (q.1, .fault c (if c = cTILESTATE then d ||| w32 (k * 256) else d) x)
    | .wait => (q.1, .wait)
    | .ok e' =>
      let t := q.1.rebuild priv (k + 1) (viewStep v e') rs
      (t.1, match t.2 with
        | .ok es => .ok (e' :: es)
        | x => x)

/-- The tile areas that an image's TUSE_OP and NAMES mark: a number, operand tile n or 8 + slot, with place and length. -/
def imageAreas (c : List Byte) : List (Nat × Nat × Nat) :=
  let v := imageView c
  ((List.range 8).filter fun n => (w32 (recNum c 0x10 4)).getLsbD n).map (fun n => (n, 0x500 + 4224 * n, 4224))
  ++ (List.range 32).filterMap fun n => (v.name n).map fun i => (8 + n, 0x8900 + 4096 * n, 4096 * i.slots)

/-- The offsets of the areas, pool slots one by one. -/
def areaRows (va : Nat) : List (Nat × Nat × Nat) → List RBase → List (Nat × Nat)
  | (n, at', len) :: as, b :: bs =>
    (if n < 8 then [(n, offOf b (va + at'))]
     else (List.range (len / 4096)).map fun k => (n + k, offOf b (va + at') + 4096 * k)) ++ areaRows va as bs
  | _, _ => []

/-- The core's level for a while. -/
def State.atLevel (s : State) (l : BitVec 2) : State := s.setFlags (setPL s.cpu.flags l)

/-- TRESTORE. -/
def State.trestore (s : State) (o : TileArgs) : State :=
  let priv := o.ctl.setWidth 2
  s.tileInstr o [tOpa o]
    (fun s => fld o.ctl 2 30 != 0 || priv == 3#2 || decide (s.pl < priv.toNat) || (tOpb o).val != 0 || (tKcnt o).val != 0) fun s =>
    if !s.tileQuiet then s
    else
      let va := (s.g (tOpa o)).toNat
      s.withRanges .m [⟨0, [s.cpu.tid], contiguous va 1280⟩] fun s bs =>
        let off := offOf (nthBase bs 0) va
        if s.sbStores [(off, 1280)] then s
        else
          let r := s.spxRead 1 [] off 1280
          let c := r.2.1.take 256
          let q := r.2.1.drop 256
          let s := r.1
          if !controlOk c q then s.tileState 11
          else
            let raws := (List.range (recNum c 0x38 4 / 2 ^ 20 % 64)).map (rawEntry q)
            let v := imageView c
            match firstBad 0 v raws with
            | some k => s.tileState (11 + 256 * k)
            | none =>
              let fl := s.cpu.flags
              let vr : State × ROut (Option Crate × List Nat) := match v.crate with
                | none => (s.atLevel priv, .ok (none, []))
                | some cr => andThen ((s.atLevel priv).rebuildCrate cr 0 0) fun s a => (s, .ok (some (a.crate cr), a.bad))
              match vr.2 with
              | .fault c d x => (vr.1.setFlags fl).except c d x
              | .wait => vr.1.setFlags fl
              | .ok (cr, cbad) =>
                let v := { v with crate := cr }
                let b := vr.1.rebuild priv 0 v raws
                let s := b.1.setFlags fl
                match b.2 with
                | .fault c d x => s.except c d x
                | .wait => s
                | .ok es =>
                  let areas := imageAreas c
                  s.withRanges .m (areas.map fun (a : Nat × Nat × Nat) => ⟨0, [s.cpu.tid], contiguous (va + a.2.1) a.2.2⟩) fun s bs =>
                    let e : TileEntry := { s.newEntry .trestore o.ctl with
                      priv := priv, rows := areaRows va areas bs, badUnit := (r.2.2 ++ cbad).head? }
                    if s.trHolds (e.reads .s32x32) then s
                    else
                      let t := s.tile
                      let n := t.nextSeq + 1
                      let es := es.zipIdx.map fun x => { x.1 with seq := n + x.2, wins := s.winList }
                      let s : State := { s with tile := { t with
                        queue := [e], nextItag := t.nextItag + 1, nextSeq := n + es.length, issue := es.foldl viewStep v
                        restored := some ⟨v, c, es⟩ } }
                      ((e :: es).foldl State.raiseBad s).commit 8

/-! ## TRESTORE completes (R199) -/

/-- The tile that an area belongs to: an operand tile, or the accumulator tile whose slots hold it. -/
def areaTile (v : TileView) (n : Nat) : Bool × Nat :=
  if n < 8 then (false, n) else (true, ((List.range (n - 7)).reverse.find? fun m => (v.name m).isSome).getD (n - 8))

/-- Loads one area; an uncorrectable read poisons its tile, each tile once, whatever the image says of it (R189). `hit`: the tiles
poisoned so far. -/
def State.loadArea (s : State) (v : TileView) (e : TileEntry) (hit : List (Bool × Nat)) (x : Nat × Nat) : State × List (Bool × Nat) :=
  let len := if x.1 < 8 then 4224 else 4096
  let r := s.spxReadBy (classIn e.wins) 1 [] x.2 len
  let s := if x.1 < 8 then r.1.setOps (r.1.tile.ops.write (4224 * x.1) r.2.1)
    else (r.1.charge 4 16).setPool (r.1.tile.pool.write (4096 * (x.1 - 8)) r.2.1)
  let t := areaTile v x.1
  match r.2.2 with
  | [] => (s, hit)
  | u :: _ => if hit.contains t then (s, hit) else (s.poisonTile t.1 t.2 e.itag (s.spxAddr (32 * u)), t :: hit)

/-- The areas in turn; the tiles that they poison. -/
def State.loadAreas (s : State) (v : TileView) (e : TileEntry) (hit : List (Bool × Nat)) : List (Nat × Nat) → State × List (Bool × Nat)
  | [] => (s, hit)
  | x :: xs =>
    let r := s.loadArea v e hit x
    r.1.loadAreas v e r.2 xs

/-- The deferred-trap record of an image, bound to a level and a TID. -/
def State.restoreTrap (s : State) (w0 : Nat) (priv : BitVec 2) (tid : BitVec 16) : State :=
  let s : State := { s with tile := { s.tile with trapSeq := 0 } }
  (s.setReg kDEFER (w32 (w0 / 2 ^ 14 % 4 * 2 ^ 30 + priv.toNat * 2 ^ 24 + w0 / 256 % 32 * 2 ^ 16 + w0 % 256))).setReg
    (pTILE + 0x14C) (tid.setWidth 32)

/-- The engine view, the control component and the page registers take the image's values; the areas are loaded; the entries
stand at the front of the queue. -/
def State.restoreDone (s : State) (e : TileEntry) (young : List TileEntry) (x : Restored) : State :=
  let at' (o n : Nat) : Nat := recNum x.ctl o n
  let misc := w32 (at' 0x10 4)
  let t := s.tile
  let s : State := { s with tile := { t with
    engine := x.view, poison := w32 (at' 0x0C 4), poisonOp := BitVec.ofNat 8 (fld misc 8 8), tuseOp := BitVec.ofNat 8 (fld misc 0 8)
    maskr := w32 (at' 0x14 4), maskc := w64 (at' 0x18 8), seed := w64 (at' 0x30 8), rbits := BitVec.ofNat 5 (fld misc 24 5)
    nextItag := BitVec.ofNat 8 (at' 0x38 4 / 2 ^ 12), lanes := (List.range 32).map fun l => w32 (at' (0x80 + 4 * l) 4)
    queue := x.entries ++ young, busy := false, restored := none
    late := t.late.map fun l => (l.1 + x.entries.length, l.2) } }
  let s := s.setReg (pTILE + 0x104) (w32 (fld misc 16 7))
  let s := (s.setReg64 (pTILE + 0x108) (w64 (at' 0x20 8))).setReg64 (pTILE + 0x110) (w64 (at' 0x28 8))
  let s := s.restoreTrap (at' 0 4) e.priv e.tid
  let r := s.loadAreas x.view e [] e.rows
  let s := if r.2.isEmpty then r.1 else r.1.reportEntry { e with flags := tfPOISON }
  (s.lateStep 1).releaseTuse

/-- The instruction at the head completes. -/
def State.instrComplete (s : State) : State :=
  match s.tile.queue with
  | e :: young =>
    if !s.tile.busy then s
    else
      match e.op, s.tile.restored with
      | .tsave, _ => s.saveDone e young
      | .trestore, some x => s.restoreDone e young x
      | _, _ => s.tileComplete
  | [] => s

/-- TRESTORE (R197, R198). -/
def execTrestore (o : TileArgs) (s : State) : Out := .next (s.trestore o)
/-- TSAVE_DRAIN_DONE (R192, R193). -/
def execTsaveDrainDone (s : State) : Out :=
  .next (s.meeting (((s.tile.queue.find? fun e => e.op == .tsave).map fun e => e.meets.conflicts).getD 0) State.drainDone)

end Sys2Proof.Machine
end

