-- ==== Sys2Proof/Machine/Inbound.lean ====
section
/-! DEFINITION. Inbound messages (16_fabric_and_pitch_map.md R371 to R374, R378, R388, R389, R396, R399; 09 R217, R218, R461; 14 R341 to
R343). -/

namespace Sys2Proof.Machine

/-! ## What arrives (R371, R373, R374) -/

/-- The defined opcodes of a class. -/
def opcodeKnown (cls : BitVec 2) (opc : BitVec 6) : Bool :=
  match cls.toNat with
  | 0 => decide (1 ≤ opc.toNat ∧ opc.toNat ≤ 5)
  | 2 => opc == 1#6
  | _ => decide (1 ≤ opc.toNat ∧ opc.toNat ≤ 4)

/-- LENGTH lies in its row of the opcode table. -/
def lengthOk (cls : BitVec 2) (opc : BitVec 6) (len : Nat) : Bool :=
  match cls.toNat, opc.toNat with
  | 0, 1 => decide (1 ≤ len ∧ len ≤ 256)
  | 0, 2 => decide (1 ≤ len ∧ len ≤ 256)
  | 0, _ => len == 4
  | 1, 1 => decide (1 ≤ len ∧ len ≤ 256)
  | 1, _ => len == 0
  | 2, _ => decide (4 ≤ len ∧ len ≤ 256)
  | _, 2 => len == 16
  | _, _ => len == 0

/-- The payload bytes of a message. -/
def payloadLen (cls : BitVec 2) (opc : BitVec 6) (len : Nat) : Nat :=
  match cls.toNat, opc.toNat with
  | 0, 1 => 0
  | 0, 3 => 0
  | _, _ => len

/-- MALFORMED, for a message that is no HELLO (R373). -/
def State.malformed (s : State) (m : InMsg) : Bool :=
  let l := s.net.lanes[m.lane]
  !l.neg || m.ver.toNat != s.linkVer || m.cls.toNat != m.vc.val || m.rsv || !opcodeKnown m.cls m.opc || (m.cls == 3#2 && m.opc == 1#6)
    || !lengthOk m.cls m.opc m.len.toNat
    || (m.cls == 0#2 && decide (m.opc.toNat ≤ 2) && decide (256 < m.addr.toNat % 256 + m.len.toNat))
    || m.flits != 1 + (payloadLen m.cls m.opc m.len.toNat + 31) / 32

/-- The tick of a D1 stamp: nearest to the own tick (R204). -/
def nearTick (own : BitVec 40) (b : Byte) : BitVec 40 := own + (b - own.setWidth 8).signExtend 40

/-- The fields of a message as a D2 message would carry them; its payload. -/
def State.fromLink (s : State) (m : InMsg) : InMsg :=
  let n := payloadLen m.cls m.opc m.len.toNat
  let m := { m with data := (m.data ++ List.replicate n 0#8).take n }
  if s.linkVer = 1 then
    let t := nearTick s.bell.tick (m.stamp.extractLsb' 32 8)
    { m with tid := if m.tid.setWidth 8 = 0xFF#8 then 0xFFFF#16 else (m.tid.setWidth 8).setWidth 16
             stamp := w64 (t.toNat * 2 ^ 24 + m.stamp.toNat % 2 ^ 24) }
  else m

/-- A flit of the lane can be accepted: the lane is up, in use, not discarding, and the part can receive (R24, R381, R385, R410). -/
def State.laneOpen (s : State) (n : Fin 2) : Bool :=
  let l := s.net.lanes[n]
  l.up && l.en && !l.rxBad && !l.stopped && decide (s.pwr.state.toNat < 3)

/-- `k` accepted flits: the expected number after them (R380); they lie in the channel's buffer (R376). -/
def State.tookFlits (s : State) (n : Fin 2) (c : Fin 4) (k : Nat) : State :=
  let l := s.net.lanes[n]
  (s.setLane n { l with rxSeq := l.rxSeq + BitVec.ofNat 8 k, rxBuf := l.rxBuf.set c (l.rxBuf[c] + k) }).charge 9 k

/-- `k` flits leave the channel's buffer, each returning its credit (R376). -/
def State.freeFlits (s : State) (n : Fin 2) (c : Fin 4) (k : Nat) : State :=
  let l := s.net.lanes[n]
  let k := min k l.rxBuf[c]
  s.setLane n { l with rxBuf := l.rxBuf.set c (l.rxBuf[c] - k), rxCredit := l.rxCredit.set c (l.rxCredit[c] + k) }

def State.freeMsg (s : State) (m : InMsg) : State := s.freeFlits m.lane m.vc m.flits

/-- The partner has the credits for a message: the channel's buffer takes it (R376). -/
def State.bufferFits (s : State) (m : InMsg) : Bool :=
  let n := s.net.lanes[m.lane].rxBuf[m.vc]
  n == 0 || decide (n + m.flits ≤ 16)

/-- Messages held from a lane that goes down no longer count in its buffers: its credits start anew (R384). -/
def State.forgetFlits (s : State) (n : Fin 2) : State :=
  { s with net := { s.net with held := s.net.held.map fun m => if m.lane = n then { m with flits := 0 } else m } }

/-- Sends an ERR answer to a request. -/
def State.answerErr (s : State) (m : InMsg) (code : Nat) : State := s.answer (rspBody s 3 m code []) m.src m.su

/-- A malformed message: a REQ is answered BAD_ACCESS. -/
def State.rejectMalformed (s : State) (m : InMsg) : State :=
  let s := if m.cls = 0#2 then s.answerErr (s.fromLink m) eBAD_ACCESS else s
  s.badMsg m.cls m.opc m.src

/-! ## Acceptance (R388) -/

def State.accepts (s : State) (m : InMsg) : Bool :=
  if m.phys then
    m.pdie == s.straps.die && m.ppitch == s.straps.pitch
      && (m.cls == 3#2 || (m.cls == 0#2 && (m.opc == 3#6 || m.opc == 4#6) && m.tid == 0#16)
        || (m.cls == 1#2 && m.dst == 0xFFFC0000#32 + s.physWord && s.liveId.isNone))
  else s.liveId == some m.dst || (s.mapId == some (m.dst, 3) && (m.cls == 3#2 || m.tid == 0#16))

/-- A message that is not accepted: MISROUTE, and an error for a REQ. -/
def State.rejectMisrouted (s : State) (m : InMsg) : State :=
  let s := s.misroute m.src m.dst m.stamp
  if m.cls = 0#2 then s.answerErr m (if m.phys || s.mapId == some (m.dst, 3) then eACCESS_DENIED else eNO_ROUTE) else s

/-- A MESSAGE ARRIVES that the command names by class and opcode: what it does once it is accepted is `k`. A header that names
another row of the opcode table is no case of the command. A REQ leaves the inbound buffer when it is served, any other message
at once (R376, R377). -/
def State.receive (s : State) (cls : BitVec 2) (opc : BitVec 6) (m : InMsg) (k : State → InMsg → State) : State :=
  if !s.laneOpen m.lane || !s.bufferFits m || m.cls != cls || (opcodeKnown m.cls m.opc && m.opc != opc) then s
  else
    let s := s.tookFlits m.lane m.vc m.flits
    if s.malformed m then (s.freeMsg m).rejectMalformed m
    else
      let m := s.fromLink m
      if s.accepts m then k (if cls = 0#2 then s else s.freeMsg m) m else (s.freeMsg m).rejectMisrouted m

/-! ## Requests (R43, R389) -/

/-- A request as the port serves it. -/
def reqOf (m : InMsg) : Req :=
  ⟨m.opc.toNat, m.src, m.tid, m.phys, m.len.toNat, m.addr.toNat, m.data, m.stamp, some m⟩

/-- Serves a request; `true`: it has to wait. -/
def State.serveIn (s : State) (m : InMsg) : State × Bool :=
  let r := s.serveReq (reqOf m)
  match r.2 with
  | .data bs => (r.1.answer (rspBody r.1 1 m 0 bs) m.src m.su, false)
  | .ack => (r.1.answer (rspBody r.1 2 m 0 []) m.src m.su, false)
  | .err c => (r.1.answerErr m c, false)
  | .later => (r.1, false)
  | .hold => (s, true)

/-- A request of this source waits (R43). -/
def State.sourceWaits (s : State) (held : List InMsg) (m : InMsg) : Bool :=
  held.any (fun h => h.cls == 0#2 && h.src == m.src) || s.tile.unanswered.any fun x => x.src == m.src

/-- Nothing that was handed over is still to be performed or answered (R398, R427). -/
def State.accessesDone (s : State) : Bool := s.cpu.sb.isEmpty && s.openTags.isEmpty

/-- The request of a tag is an access that an instruction committed: no fetch, prefetch, walk or debug access. -/
def State.ofInstr (s : State) (t : TagEntry) : Bool :=
  match t.use with
  | .fill line ic => !ic && !(s.caches.fills.any fun f => !f.ic && f.line == line && f.prefetch && f.pieces.isEmpty)
  | .fetch _ _ => false
  | .walk _ => false
  | .debug _ => false
  | _ => true

/-- Every fabric access that committed before the pipeline tag `b` was next has been performed: stores, loads, SYNCRADDs and move
units (R342). -/
def State.doneBefore (s : State) (b : BitVec 16) : Bool :=
  !(s.cpu.sb.any fun e => olderTag e.tag b) && !(s.cpu.m1.any fun m => olderTag m.ptag b)
    && !(s.caches.fills.any fun f => !f.ic && olderTag f.tag b && !(f.prefetch && f.pieces.isEmpty))
    && !(s.openTags.any fun t => s.ofInstr t && olderTag t.ptag b)

/-- The answer of an XINV (R342). -/
def State.xack (s : State) (m : InMsg) (code : Nat) : State :=
  s.answer ⟨3, 3, 0, m.tid, s.stamp, BitVec.ofNat 56 code, m.tag, []⟩ m.src m.su

/-- Answers the XINVs whose accesses are done (R342). -/
def State.settleXinvs (s : State) (kept : List (InMsg × BitVec 16)) : List (InMsg × BitVec 16) → State
  | [] => { s with net := { s.net with xinvs := kept } }
  | x :: xs =>
    if s.doneBefore x.2 || s.rst.phase != .run then (s.xack x.1 0).settleXinvs kept xs else s.settleXinvs (kept ++ [x]) xs

/-- Serves what was held, oldest first. -/
def State.settle (s : State) (kept : List InMsg) : List InMsg → State
  | [] => { s with net := { s.net with held := kept } }
  | m :: ms =>
    if s.sourceWaits kept m then s.settle (kept ++ [m]) ms
    else
      let r := s.serveIn m
      if r.2 then s.settle (kept ++ [m]) ms else (r.1.freeMsg m).settle kept ms

/-- Requests that no lane can carry complete with NO_ROUTE; no other message is sent (R375). -/
def State.noRoute (s : State) (ms : List OutMsg) : State :=
  ms.foldl (fun s m =>
    if m.cls = 0#2 then
      match s.net.tags.find? fun t => t.tag == m.tag && !t.absorbed with
      | some t => s.completeTag t (.err eNO_ROUTE)
      | none => s
    else s) s

/-- The messages that lost their lane. -/
def State.settleLost (s : State) : State := ({ s with net := { s.net with lost := [] } } : State).noRoute s.net.lost

/-- What waits goes on: the lines of retired ways, the loads in M1, the held messages; contributions that still wait when a reset or a fence begins are refused or discarded (R396,
R461). -/
def State.settleHeld (s : State) : State :=
  let s := if s.ras.fence.isSome || s.resetting then s.serveWaiting else s
  let s := s.settleLost
  let s := s.writeLeaving s.caches.leaving.length
  let s := (s.runM1 s.cpu.m1.length).dbgRetry
  let s := s.settle [] s.net.held
  s.settleXinvs [] s.net.xinvs

def State.holdMsg (s : State) (m : InMsg) : State := { s with net := { s.net with held := s.net.held ++ [m] } }

/-- An accepted REQ. -/
def State.requestIn (s : State) (m : InMsg) : State :=
  let s := s.settleHeld
  if s.sourceWaits s.net.held m then s.holdMsg m
  else
    let r := s.serveIn m
    if r.2 then s.holdMsg m else (r.1.freeMsg m).settleLost

/-! ## Answers (R370, R378, R399) -/

/-- The bytes that an answer to a tag's read must bring; none for an access that is acknowledged. -/
def TagUse.readLen : TagUse → Option Nat
  | .load p => some (p.off + p.len)
  | .moveRead _ n => some n
  | .fill _ _ => some 64
  | .fetch _ n => some n
  | .walk _ => some 8
  | .debug n => n
  | _ => none

/-- The answer fits the request: data of its length, or an acknowledgement, or an error. -/
def answerFits (t : TagEntry) (a : Ans) : Bool :=
  match a with
  | .data bs => t.use.readLen == some bs.length
  | .ack => t.use.readLen.isNone
  | _ => true

/-- An unassigned ID names the core that a logical ID of the own package reaches: on the own die the mapped pitch of a SPARE entry, on
another die any pitch of the physical die (R391, R460). -/
def State.spareOf (s : State) (dst src : Word) : Bool :=
  match s.route dst 0 with
  | .go pd true pp ppv =>
    fld src 18 14 == 0x3FFF && fld src 11 7 == pd.toNat && (!ppv || (fld src 0 11 == pp.toNat && fld (s.pitch.core.get (fld dst 0 11)) 30 2 == 3))
  | _ => false

/-- The answer comes from where the request went: with SU = 1 from the position that the request named, or from a SPARE
(R378, R460). -/
def State.fromTarget (s : State) (t : TagEntry) (m : InMsg) : Bool :=
  t.tag == m.tag && (if t.phys then !m.su || m.src == t.dst else if m.su then s.spareOf t.dst m.src else m.src == t.dst)

/-- An RDATA, ACK or ERR: for an absorbed tag it is late, without a request it is unmatched. -/
def State.answerIn (s : State) (m : InMsg) (a : Ans) : State :=
  match s.net.tags.find? fun t => s.fromTarget t m with
  | some t =>
    if t.absorbed then (s.bump kLATERSP).dropTag t.tag
    else if answerFits t a then (s.completeTag t a).settleHeld
    else s.badMsg m.cls m.opc m.src
  | none => s.badMsg m.cls m.opc m.src

/-! ## The Tally and control messages -/

/-- A TALLY message (R217, R396, R461). -/
def State.tallyIn (s : State) (m : InMsg) : State :=
  let a := m.addr.toNat
  let t : TallyMsg := ⟨m.src, m.su, m.tid, BitVec.ofNat 6 (a / 2 ^ 26), BitVec.ofNat 21 a, m.stamp, m.data⟩
  s.contribIn t

/-- The logical ID lies in the own broadcast group (R341, R342). -/
def State.inBcastGroup (s : State) (id : Word) : Bool :=
  let die := s.reg (pXLAT + 0x110)
  let core := s.reg (pXLAT + 0x114)
  fld id 18 14 == s.pkg && decide (fld die 0 7 ≤ fld id 11 7 ∧ fld id 11 7 ≤ fld die 8 7)
    && decide (fld core 0 11 ≤ fld id 0 11 ∧ fld id 0 11 ≤ fld core 16 11)

/-- An XINV (R342, R396). -/
def State.xinvIn (s : State) (m : InMsg) : State :=
  if s.ras.fence.isSome then s.xack m 0
  else if s.rst.phase != .run && s.rst.phase != .bootfail then s.xack m eTARGET_RESET
  else if m.su || !s.inBcastGroup m.src then s.xack m eACCESS_DENIED
  else
    let i : Inval := ⟨m.addr.toNat % 4, m.tid, leNat (m.data.take 8) % 2 ^ 57, leNat (m.data.drop 8)⟩
    let s := ((s.invalidate i).dropLoop).bump (pXLAT + 0x12C)
    let b := if s.cpu.midUnits then s.cpu.ptag + 1 else s.cpu.ptag
    s.settleXinvs s.net.xinvs [(m, b)]

/-- An XACK (R341, R343). -/
def State.xackIn (s : State) (m : InMsg) : State :=
  match s.xlat.bcast with
  | some b =>
    if m.tag.toNat = fld (s.reg (pXLAT + 0x11C)) 24 8 ∧ !m.su ∧ b.waiting.contains m.src then
      let code := m.addr.toNat % 256
      let rest := b.waiting.filter fun i => i != m.src
      let b' : Bcast := ⟨rest, if code = 0 ∨ code = eTARGET_RESET then b.failed else m.src :: b.failed⟩
      if rest.isEmpty then s.bcastDone b' else s.setXlat { s.xlat with bcast := some b' }
    else (s.bump (pXLAT + 0x130)).raise pXLAT 2
  | none => (s.bump (pXLAT + 0x130)).raise pXLAT 2

/-! ## Meanings -/

/-- REQ_RD. -/
def execReqRd (m : InMsg) (s : State) : Out := .next (s.receive 0 1 m State.requestIn)
/-- REQ_WR. -/
def execReqWr (m : InMsg) (s : State) : Out := .next (s.receive 0 2 m State.requestIn)
/-- REQ_REGRD. -/
def execReqRegrd (m : InMsg) (s : State) : Out := .next (s.receive 0 3 m State.requestIn)
/-- REQ_REGWR. -/
def execReqRegwr (m : InMsg) (s : State) : Out := .next (s.receive 0 4 m State.requestIn)
/-- REQ_SADD. -/
def execReqSadd (m : InMsg) (s : State) : Out := .next (s.receive 0 5 m State.requestIn)
/-- RSP_RDATA. -/
def execRspRdata (m : InMsg) (s : State) : Out := .next (s.receive 1 1 m fun s m => s.answerIn m (.data m.data))
/-- RSP_ACK. -/
def execRspAck (m : InMsg) (s : State) : Out := .next (s.receive 1 2 m fun s m => s.answerIn m .ack)
/-- RSP_ERR. -/
def execRspErr (m : InMsg) (s : State) : Out :=
  .next (s.receive 1 3 m fun s m => s.answerIn m (.err (m.addr.toNat % 256)))
/-- RSP_NOTICE. -/
def execRspNotice (m : InMsg) (s : State) : Out :=
  .next (s.receive 1 4 m fun s m => s.noticeIn m.src (m.addr.toNat / 256 % 256) (m.addr.toNat % 64) m.stamp)
/-- TALLY_CONTRIB. -/
def execTallyContrib (m : InMsg) (s : State) : Out := .next (s.receive 2 1 m State.tallyIn)
/-- CTRL_XINV. -/
def execCtrlXinv (m : InMsg) (s : State) : Out := .next (s.receive 3 2 m State.xinvIn)
/-- CTRL_XACK. -/
def execCtrlXack (m : InMsg) (s : State) : Out := .next (s.receive 3 3 m State.xackIn)
/-- CTRL_HOLE: the manual gives its arrival no effect in the core beyond its acceptance (R397). -/
def execCtrlHole (m : InMsg) (s : State) : Out := .next (s.receive 3 4 m fun s _ => s)

/-- TALLY_DESC_READ: the lowest newly armed slot's descriptor is read (R212). -/
def execTallyDescRead (slot : Fin 64) (flips : UnitFlips) (s : State) : Out :=
  .next (if s.serving && s.nextUnread == some slot.val then (s.readDesc slot.val flips).serveWaiting else s)
/-- TALLY_APPLY_START: time goes on to C = APPLY_AT (R220). -/
def execTallyApplyStart (s : State) : Out :=
  .next (if s.bell.c < s.applyAt && s.applyAt < s.period then s.riseTo s.applyAt else s)
/-- TALLY_SLOT_APPLY_DONE (R220). -/
def execTallySlotApplyDone (s : State) : Out := .next (s.applyDone).serveWaiting
/-- TALLY_HELD_STAGE (R217). -/
def execTallyHeldStage (s : State) : Out := .next s.serveWaiting

/-! ## What lets held messages go on (R117, R249, R342) -/

/-- STORE_BUFFER_PERFORM: the oldest entry, no move unit (R237, R272). -/
def execStoreBufferPerform (o : PerformArgs) (s : State) : Out :=
  .next (s.meeting (bit o.conflict 0) fun s => s.performSb false o.flips).settleHeld
/-- MOVE_UNIT_PERFORM: the oldest entry, a move unit (R239). -/
def execMoveUnitPerform (flips : List UnitFlips) (s : State) : Out := .next (s.performSb true flips).settleHeld
/-- TILE_INSTR_COMPLETE (R103, R117). -/
def execTileInstrComplete (s : State) : Out :=
  .next (s.meeting ((s.tile.queue.head?.map fun e => e.meets.conflicts).getD 0) State.instrComplete).settleHeld

end Sys2Proof.Machine
end

