-- ==== Sys2Proof/Machine/Lanes.lean ====
section
/-! DEFINITION. The lanes: coming up and down, credits, negotiation, replay, the HOLE notice (16_fabric_and_pitch_map.md R376, R380 to R387,
R397). -/

namespace Sys2Proof.Machine

/-- The core takes part in a lane's signals: the enable is high and the part is neither in SLEEP nor OFF (R24, R410). -/
def State.laneLive (s : State) (n : Fin 2) : Bool :=
  s.net.lanes[n].up && s.net.lanes[n].en && decide (s.pwr.state.toNat < 3)

/-! ## Up and down (R383 to R385) -/

/-- fab_lane_up rises: numbering and negotiation start anew, and the core returns its 16 credits for each channel (R376, R385). -/
def State.laneUp (s : State) (n : Fin 2) : State :=
  let l := s.net.lanes[n]
  if l.up || s.rst.wholeLow || decide (3 ≤ s.pwr.state.toNat) then s
  else s.setLane n { Lane.init with
    up := true, en := !l.retired, retired := l.retired, rxCredit := Vector.replicate 4 16, txq := l.txq.map fun x => (x.1, 0) }

/-- fab_lane_up falls: what is unresolved goes out whole on the other lane (R384). -/
def State.laneDown (s : State) (n : Fin 2) : State :=
  let l := s.net.lanes[n]
  if !l.up then s
  else
    let s := s.forgetFlits n
    if l.retired then s.setLane n { l with up := false } else (s.setLane n { Lane.init with en := l.en }).resend l.unresolved

/-! ## Credits and HELLO (R22, R385) -/

/-- A credit arrives; the first CTRL credit lets HELLO go, others let messages go. -/
def State.txCredit (s : State) (n : Fin 2) (vc : Fin 4) : State :=
  if !s.laneLive n then s
  else
    let l := s.net.lanes[n]
    let s := s.setLane n { l with credits := l.credits.set vc (l.credits[vc] + 1) }
    let s := if vc = 3 ∧ !l.helloSent then s.sendHello n else s
    s.pump n

/-- HELLO is repeated while none has come. -/
def State.helloRetry (s : State) (n : Fin 2) : State :=
  let l := s.net.lanes[n]
  if s.laneLive n && l.helloSent && l.peer.isNone then s.sendHello n else s

/-! ## Negotiation (R385, R386) -/

/-- The feature bits that a version permits. -/
def versionBits (ver : Nat) : Word := if ver = 1 then 0x3#32 else 0x1F#32

/-- The result for a partner's HELLO; none where the versions do not meet. -/
def negotiate (h : Hello) : Option NegResult :=
  let v := min 2 h.maxver.toNat
  if v < max 1 h.minver.toNat then none
  else some ⟨BitVec.ofNat 8 v, 0x1F#32 &&& h.features &&& versionBits v, h.maxver, h.minver, h.features⟩

/-- NEG_FAIL. -/
def State.negFail (s : State) (cause : Nat) (h : Hello) : State :=
  s.raiseErr pFAB ⟨5, cause * 256 + h.lane.val, s.stamp, w64 (h.maxver.toNat * 256 + h.minver.toNat)⟩

/-- The first HELLO of a lane. -/
def State.firstHello (s : State) (h : Hello) : State :=
  let n := h.lane
  let l := s.net.lanes[n]
  let s := s.setLane n { l with peer := some (h.maxver, h.minver, h.features, h.pos) }
  match negotiate h with
  | none => s.negFail 1 h
  | some r =>
    let o : Fin 2 := if n = 0 then 1 else 0
    let other := s.net.lanes[o].active
    let differs := other && match s.net.link with
      | some q => q.ver != r.ver || q.feat != r.feat
      | none => false
    if differs then s.negFail 2 h
    else
      let s := s.setLane n { s.net.lanes[n] with neg := true }
      let s : State := if other then s else { s with net := { s.net with link := some r } }
      (s.raise pFAB 0).pump n

/-- A HELLO arrives. -/
def State.helloIn (s : State) (h : Hello) : State :=
  if !s.laneOpen h.lane then s
  else
    let s := (s.tookFlits h.lane h.vc h.flits).freeFlits h.lane h.vc h.flits
    if h.flits ≠ 1 ∨ h.ver ≠ 0#8 ∨ h.vc ≠ 3 then s.badMsg 3 1 h.pos
    else
      match s.net.lanes[h.lane].peer with
      | none => s.firstHello h
      | some p =>
        if p = (h.maxver, h.minver, h.features, h.pos) then s
        else (s.setLane h.lane { s.net.lanes[h.lane] with stopped := true, neg := false }).negFail 3 h

/-! ## Replay (R381 to R383, R433) -/

/-- An event on a lane's channel. -/
def State.laneEvent (s : State) (n : Fin 2) : State := s.rasCount n.val .transient 0 0#64

/-- A flit is discarded; the first of a run raises a replay request (R381), one without a credit is counted (R23). -/
def State.flitReject (s : State) (n : Fin 2) (f : FlitFault) : State :=
  if !s.laneLive n then s
  else
    let l := s.net.lanes[n]
    let s := s.bump kLINKERR
    match f with
    | .noCredit => s.laneEvent n
    | _ =>
      if l.rxBad then s
      else (s.setLane n { l with rxBad := true, rxNak := some l.rxSeq }).laneEvent n

/-- The replay request is repeated. -/
def State.nakRetry (s : State) (n : Fin 2) : State :=
  let l := s.net.lanes[n]
  if s.laneLive n && l.rxBad then (s.setLane n { l with rxNak := some l.rxSeq }).laneEvent n else s

/-- The expected flit arrives: acceptance goes on. -/
def State.goodFlit (s : State) (n : Fin 2) : State :=
  let l := s.net.lanes[n]
  if s.laneLive n && l.rxBad then s.setLane n { l with rxBad := false, rxNak := none } else s

/-- A replay is asked for: the flits from `seq` on go out again, or the lane is lost (R382, R383). -/
def State.txNak (s : State) (n : Fin 2) (seq : Byte) : State :=
  if !s.laneLive n then s
  else
    let l := s.net.lanes[n]
    let count := if l.nakSeq = some seq then l.nakCount + 1 else 1
    if !(l.sent.any fun f => f.seq == seq) then s.loseLane n 2
    else if 9 ≤ count then s.loseLane n 1
    else
      let again := (l.sent.dropWhile fun (f : SentFlit) => f.seq != seq).length
      let s := (s.setLane n { l with nakSeq := some seq, nakCount := count }).charge 9 again
      ((s.bump (pFAB + 0x120 + 4 * n.val)).raise pFAB 1).laneEvent n

/-! ## The HOLE notice (R397, R440) -/

/-- A fenced core that holds a CTRL credit sends its notice. -/
def State.holeNotice (s : State) : State :=
  let ready (n : Fin 2) : Bool := s.net.lanes[n].active && decide (0 < s.net.lanes[n].credits[3])
  match s.ras.fence with
  | some reason =>
    if s.net.holeDue && (ready 0 || ready 1) then
      let s : State := { s with net := { s.net with holeDue := false } }
      let a := reason.toNat * 2 ^ 24 + s.physWord.toNat
      s.postOther ⟨3, 4, 0, 0, s.stamp, BitVec.ofNat 56 a, 0, []⟩ (s.reg (pFAB + 0x114))
    else s
  | none => s

/-! ## Meanings -/

/-- LANE_UP. -/
def execLaneUp (n : Fin 2) (s : State) : Out := .next (s.laneUp n).settleHeld
/-- LANE_DOWN. -/
def execLaneDown (n : Fin 2) (s : State) : Out := .next (s.laneDown n).settleHeld
/-- TX_CREDIT. -/
def execTxCredit (n : Fin 2) (vc : Fin 4) (s : State) : Out := .next (s.txCredit n vc)
/-- HELLO_RETRY. -/
def execHelloRetry (n : Fin 2) (s : State) : Out := .next (s.helloRetry n)
/-- CTRL_HELLO. -/
def execCtrlHello (h : Hello) (s : State) : Out := .next (s.helloIn h)
/-- FLIT_RX_REJECT. -/
def execFlitRxReject (n : Fin 2) (f : FlitFault) (s : State) : Out := .next (s.flitReject n f)
/-- NAK_RETRY. -/
def execNakRetry (n : Fin 2) (s : State) : Out := .next (s.nakRetry n)
/-- GOOD_FLIT_EXPECTED. -/
def execGoodFlitExpected (n : Fin 2) (s : State) : Out := .next (s.goodFlit n)
/-- TX_NAK. -/
def execTxNak (n : Fin 2) (seq : Byte) (s : State) : Out := .next (s.txNak n seq).settleHeld
/-- HOLE_NOTICE_SEND. -/
def execHoleNoticeSend (s : State) : Out := .next s.holeNotice

end Sys2Proof.Machine
end

