-- ==== Sys2Proof/Machine/Async.lean ====
section
/-! DEFINITION. Asynchronous entries and what raises them (10_pipeline.md R243 to R252, R256; 20_life_cycle_and_debug.md R458). -/

namespace Sys2Proof.Machine

/-! ## Sampling (R243, R244, R248, R250) -/

/-- A source can be sampled: the core runs in RUN, is neither fenced nor halted (R244, R250, R438). -/
def State.canSample (s : State) : Bool :=
  s.rst.phase == .run && !s.rst.booting && s.ras.fence.isNone && !s.cpu.halted && s.pwr.state == 0#3

/-- REPNI delays every source but a machine check: a REP instruction has units to commit, and fewer than 63 of them after the one at
TR have committed since a source was due (R248). -/
def State.repDelays (s : State) : Bool :=
  (s.reg (pCORE + 0x104)).getLsbD 0 && s.cpu.repOpen && !s.cpu.dues.any fun d => decide (63 ≤ d.2)

/-- The highest irq_ext line that is pending and enabled. -/
def State.topExt (s : State) : Option Nat :=
  let v := s.cpu.ext &&& (s.reg (pCORE + 0x108)).setWidth 8
  if v = 0#8 then none else some (Nat.log2 v.toNat)

/-- The page-event interrupt is pending and enabled, IE apart. -/
def State.pageIrq (s : State) : Bool := (s.reg (pCORE + 0x108)).getLsbD 8 && s.pageIrqs != 0

/-- Cycles from the first cycle in which the source was pending and enabled to the handler's first instruction (R245, R248, R250). -/
def State.entryLat (s : State) (id : Nat) : Nat :=
  min 65535 (14 + ((s.cpu.dues.find? fun d => d.1 == id).map fun d => d.2).getD 0)

/-- AN ASYNCHRONOUS ENTRY of a source through a vector (R245, R287). -/
def State.enterAsync (s : State) (id : Nat) (toM : Bool) (vec : Fin 6) (cause : Nat) (detail : Word) (xaddr : DWord) : State :=
  (s.oweTrap.setReg (pCORE + 0x130) (w32 (s.entryLat id))).enter toM vec true cause detail xaddr s.cpu.ip

/-- An external interrupt or a page event enters S where CORE_DELEG delegates it and the level is not M (R286). -/
def State.enterIrq (s : State) (id deleg cause : Nat) (detail : Word) : State :=
  if (s.reg (pCORE + 0x188)).getLsbD deleg && decide (s.pl ≤ 1) then s.enterAsync id false 1 cause detail 0#64
  else s.enterAsync id true 3 cause detail 0#64

/-- The machine check's entry (R256). -/
def State.enterMchk (s : State) : State :=
  let s : State := { s with cpu := { s.cpu with mchkDue := false } }
  s.enterAsync 11 true 5 0x40 (w32 (fld (s.reg (pCORE + 0x114)) 16 8)) (s.reg64 (pCORE + 0x02C))

/-- THE HALT: its return address goes to LIFE_DBGPC, fetch stops, no frame is written (R458). -/
def State.takeHalt (s : State) : State :=
  let s := s.setReg64 (pLIFE + 0x120) s.cpu.ip
  { s with
    cpu := { s.cpu with
      ptag := if s.cpu.issued then s.cpu.ptag + 1 else s.cpu.ptag, issued := false, midUnits := false, repOpen := false
      lineLoad := false, loop := none, wait := .none, waited := [], movtStamp := none, dues := [], fetched := [], fromLine := none
      haltDue := false, halted := true, stepping := false }
    xlat := { s.xlat with walk := none, served := [], failed := [], bcast := none } }

/-- The source of the highest priority is sampled, and its entry takes place (R243). -/
def State.sample (s : State) : State :=
  if !s.canSample then s
  else if s.cpu.mchkDue then s.enterMchk
  else if s.repDelays then s
  else if s.cpu.haltDue then s.takeHalt
  else if s.cpu.nmi then ({ s with cpu := { s.cpu with nmi := false } } : State).enterAsync 0 true 4 0x41 0#32 0#64
  else if !flagIE s.cpu.flags then s
  else
    match s.topExt with
    | some n => s.enterIrq (2 + n) (16 + n) (0x48 + n) 0#32
    | none => if s.pageIrq then s.enterIrq 10 24 0x50 (w32 s.pageIrqs) else s

/-! ## Meanings -/

/-- ASYNC_ENTRY. -/
def execAsyncEntry (s : State) : Out := .next s.sample
/-- NMI_EDGE: latched until its entry begins (R243). -/
def execNmiEdge (s : State) : Out :=
  .next (if s.clockOn then { s with cpu := { s.cpu with nmi := true } } else s)
/-- IRQ_EXT: the line as sampled (R34). -/
def execIrqExt (line : Fin 8) (level : Bool) (s : State) : Out :=
  let m := 1#8 <<< line.val
  let s : State := { s with cpu := { s.cpu with ext := if level then s.cpu.ext ||| m else s.cpu.ext &&& ~~~m } }
  .next s.latchWfi

end Sys2Proof.Machine
end

