-- ==== Sys2Proof/Machine/Branch.lean ====
section
/-! DEFINITION. Branches, jumps, calls, block repeat, NOP (11_instruction_set.md R268, R280, R281; R241, R242). -/

namespace Sys2Proof.Machine

/-- A conditional branch counts a misprediction (R241): none in DET mode; with the predictor off every taken branch is one; else
the predictor's state, which is not architectural, decides. -/
def State.countMispredict (s : State) (taken : Bool) : State :=
  if s.detOn then s
  else if !(s.reg (pCORE + 0x100)).getLsbD 2 then (if taken then s.bump (pCORE + 0x128) else s)
  else
    let m := Config.mispredicted s.fresh
    let s : State := { s with fresh := s.fresh + 1 }
    if m then s.bump (pCORE + 0x128) else s

/-- BRPT commits (R280); its own commit makes no loop check. -/
def State.brptAt (s : State) (a : GReg) (len : BitVec 16) : State :=
  if len = 0#16 then s.undef
  else
    let nxt := s.cpu.ip + 5
    let e := nxt + len.setWidth 64
    let s := s.retireInstr
    let skip := s.g a = 0#64
    ({ s with cpu := { s.cpu with
        brs := nxt, bre := e, brc := s.g a, ip := if skip then e else nxt
        loop := if skip then none else loopAfter s.loopUsable none (some (nxt, e)) nxt } }).endStep

/-- B_CC: relative, by condition. -/
def execBCc (cc : Fin 15) (t : BranchDisp) (s : State) : Out :=
  .next (s.instr (branchLen t) [] [] fun s =>
    let taken := condHolds cc.castSucc s.cpu.flags
    let s := s.countMispredict taken
    if taken then s.branch (branchLen t) (s.cpu.ip + branchVal t) else s.commit (branchLen t))

/-- JMP. -/
def execJmp (a : GReg) (s : State) : Out := .next (s.instr 3 [a] [] fun s => s.jump (s.g a))

/-- CALL. -/
def execCall (disp : BitVec 32) (s : State) : Out :=
  .next (s.instr 5 [31] [] fun s => (s.setG 31 (s.cpu.ip + 5)).jump (s.cpu.ip + disp.signExtend 64))

/-- CALLR: the target is read before G31 is written. -/
def execCallr (a : GReg) (s : State) : Out :=
  .next (s.instr 3 [a, 31] [] fun s => (s.setG 31 (s.cpu.ip + 3)).jump (s.g a))

/-- RET. -/
def execRet (s : State) : Out := .next (s.instr 1 [31] [] fun s => s.jump (s.g 31))

/-- BRPT: block repeat of `len` bytes (R280, R281). -/
def execBrpt (a : GReg) (len : BitVec 16) (s : State) : Out :=
  .next (s.instr 5 [a] [] fun s => s.brptAt a len)

/-- NOP. -/
def execNop (s : State) : Out := .next (s.instr 1 [] [] fun s => s.commit 1)

end Sys2Proof.Machine
end

