-- ==== Sys2Proof/Machine/TimeCmd.lean ====
section
/-! DEFINITION. Commands of the bell port and of time, of the scratchpad's banks and groups, and of the S1 and BOOT handshakes
(01_block_and_ports.md R27, R32; 09 R201 to R208; 15 R361 to R364; 18 R413; 19 R434). -/

namespace Sys2Proof.Machine

/-! ## Groups (R362 to R364) -/

def State.group (s : State) (g : Fin 16) : GroupState := s.spx.groups[g]
def State.setGroup (s : State) (g : Fin 16) (x : GroupState) : State :=
  { s with spx := { s.spx with groups := s.spx.groups.set g x, filling := s.spx.filling &&& ~~~(1#16 <<< g.val) } }

/-- The acknowledges of an opening group are high: its zero-fill begins. -/
def State.groupAck (s : State) (g : Fin 16) : State :=
  if s.build.s2 && s.group g == .opening then
    { s with spx := { s.spx with filling := s.spx.filling ||| (1#16 <<< g.val) } }
  else s

/-- The zero-fill ends: the group is ON (R363). -/
def State.groupOpen (s : State) (g : Fin 16) : State :=
  if s.group g == .opening && s.spx.filling.getLsbD g.val then
    let s := (s.loseGroup g.val).charge 6 (s.build.groupBytes / 32)
    (s.setGroup g .on).followPower.keptRelease
  else s

/-- An entry of the store buffer accesses the own scratchpad within a range. -/
def entryInSpx (k : SbKind) (a n : Nat) : Bool :=
  let one (p : Part) : Bool :=
    match p.tgt with
    | .spx off _ => meet off p.len a n
    | _ => false
  match k with
  | .store ps _ => ps.any fun p => one p.1
  | .copy src dst _ _ => (src ++ dst).any one
  | .fill dst _ _ => dst.any one
  | .movt src _ _ _ => src.any one
  | _ => false

/-- An accepted access of the group is outstanding: a read, a load in M1, an entry of the store buffer, a queued tile instruction
(R362). -/
def State.groupBusy (s : State) (g : Nat) : Bool :=
  let n := s.build.groupBytes
  let here (p : Part) : Bool :=
    match p.tgt with
    | .spx off _ => meet off p.len (g * n) n
    | _ => false
  (s.spx.reads.any fun r => 32 * r.unit / n == g) || (s.cpu.m1.any fun m => here m.part) || (s.cpu.sb.any fun e => entryInSpx e.kind (g * n) n)
    || !(s.tileBlocks true (g * n) n).isEmpty

/-- The last accepted access has completed: the group is OFF and its contents are lost. -/
def State.groupClose (s : State) (g : Fin 16) : State :=
  if s.group g == .closing && !s.groupBusy g.val then ((s.loseGroup g.val).setGroup g .off).followPower else s

/-- A read in flight to a bank that lost its power: uncorrectable, the bank being counted apart (R364). -/
def State.failRead (s : State) (r : SpxRead) : State :=
  (s.spxUncorr r.unit 2 r.weight false false).failPiece r.piece 1 (s.spxAddr (32 * r.unit))

/-- spx_bk_pwr_ack falls for a bank of a group in ON or CLOSING (R364). -/
def State.bankLoss (s : State) (bank : Nat) : State :=
  let g := Fin.ofNat 16 (bank / 8)
  if s.build.s2 && bank < s.build.nBanks && (s.group g == .on || s.group g == .closing) then
    let n := s.build.groupBytes
    let hit (r : SpxRead) : Bool := 32 * r.unit / n == g.val
    let lost := s.spx.reads.filter hit
    let s : State := { s with spx := { s.spx with reads := s.spx.reads.filter fun r => !hit r } }
    let s := (s.loseGroup g.val).setGroup g .off
    let s := lost.foldl State.failRead s
    (s.rasCount (0x80 + bank) .immediate 0 (w64 (g.val * n))).followPower
  else s

/-! ## Meanings -/

/-- A bit error strikes an array (R321, R337, R361). -/
def State.upset (s : State) (x : Upset) : State :=
  let hit (i n : Nat) (e : TlbEntry) : TlbEntry := if i = n then { e with bad := true } else e
  let all (n : Nat) (m : List TlbEntry) : List TlbEntry := m.zipIdx.map fun e => hit e.2 n e.1
  let x' := s.xlat
  match x with
  | .tlb 0 n => s.setXlat { x' with itlb := all n x'.itlb }
  | .tlb 1 n => s.setXlat { x' with dtlb := all n x'.dtlb }
  | .tlb 2 n => s.setXlat { x' with l2 := x'.l2.map fun e => (e.1, hit e.1 n e.2) }
  | .tlb _ n => s.setXlat { x' with ovf := all n x'.ovf }
  | .line ic n e =>
    let c := s.cache ic
    s.setCache ic { c with lines := c.lines.map fun l => if l.1 = n then (n, { l.2 with err := worseErr l.2.err e }) else l }
  | .unit u fl => s.setMark { s.mark u with flips := (s.mark u).flips ^^^ fl }

/-- BELL_PULSE (R201); `load`: bell_tick_in where bell_tick_load is 1; `upsets`: bit errors that have struck the arrays since the last. -/
def execBellPulse (load : Option (BitVec 40)) (allow : BitVec 16) (upsets : List Upset) (s : State) : Out :=
  .next ((upsets.foldl State.upset s).bellNow load.isSome (load.getD 0) allow false)
/-- SUBSTITUTED_BELL (R207). -/
def execSubstitutedBell (allow : BitVec 16) (s : State) : Out := .next (s.substituteNow allow)
/-- SPLIT_POINT: time goes on to C = SPLIT (R205). -/
def execSplitPoint (s : State) : Out :=
  .next (if s.bell.c < s.split && s.split < s.period then s.riseTo s.split else s)
/-- OVERTIME: time goes on to the last cycle of the bell, and one cycle past it (R201). -/
def execOvertime (s : State) : Out :=
  .next (if s.bell.ot = 0 then s.reach s.period else s)
/-- RAS_LEAK (R434). -/
def execRasLeak (s : State) : Out := .next s.leak
/-- SPX_READ_DATA (R25, R361). -/
def execSpxReadData (flips : UnitFlips) (s : State) : Out := .next (s.spxData flips)
/-- SPX_CORR_WRITEBACK (R361). -/
def execSpxCorrWriteback (s : State) : Out := .next s.corrWriteback
/-- SPX1_RSP (R27). -/
def execSpx1Rsp (data : BitVec 512) (err : Bool) (s : State) : Out := .next (s.s1Response (leBytes data.toNat 64) err)
/-- SPX1_REQ_ACCEPT (R27). -/
def execSpx1ReqAccept (s : State) : Out := .next s.s1Accept
/-- BOOT_REQ_ACCEPT (R32). -/
def execBootReqAccept (s : State) : Out := .next s.bootAccept
/-- BOOT_RESPONSE (R413 to R415). -/
def execBootResponse (data : DWord) (err : Bool) (s : State) : Out := .next (s.bootResponse data err)
/-- GROUP_PWR_ACK. -/
def execGroupPwrAck (g : Fin 16) (s : State) : Out := .next (s.groupAck g)
/-- GROUP_OPEN_DONE. -/
def execGroupOpenDone (g : Fin 16) (s : State) : Out := .next (s.groupOpen g)
/-- GROUP_CLOSE_DONE. -/
def execGroupCloseDone (g : Fin 16) (s : State) : Out := .next (s.groupClose g)
/-- BANK_PWR_ACK_LOSS. -/
def execBankPwrAckLoss (bank : Fin 128) (s : State) : Out := .next (s.bankLoss bank.val)

end Sys2Proof.Machine
end

