-- ==== Sys2Proof/Machine/PowerCmd.lean ====
section
/-! DEFINITION. Commands of the PWR port and of the Weighbridge (17_power_governor.md R401 to R411, 01 R30, R31). -/

namespace Sys2Proof.Machine

/-! ## L, the throttle, the temperature (R401 to R406) -/

/-- Time goes on to the cycle of this bell in which L steps next (R401). -/
def State.rampMove (s : State) : State :=
  let s := if s.clockOn then s.checkAllow.levelSync else s
  match s.rampAge with
  | some a => if a ≤ s.lastAge then s.reach a else s
  | none => s

/-- Time goes on to the cycle of this bell in which the static event exhausts the allowance, if none was exhausted yet (R403). -/
def State.exhaustMove (s : State) : State :=
  let s := if s.clockOn then s.checkAllow else s
  match s.exhaustAge with
  | some a => if a ≤ s.lastAge then s.reach a else s
  | none => s

/-- temp_code takes a value: HOT, TEMP_CRIT and the hold follow it (R405, R406). -/
def State.setTemp (s : State) (code : Byte) : State :=
  if s.clockOn then ({ s with pwr := { s.pwr with temp := code } }).checkTemp else s

/-! ## Power states (R408 to R411) -/

/-- The state that pwr_state_req asks for: reserved codes ask for RUN (R31). -/
def reqState (req : BitVec 3) : Nat := if req.toNat ≤ 4 then req.toNat else 0

/-- A source is pending and enabled in the sense of R274: a machine check, a halt request, NMI, an enabled line or page event. -/
def State.wakeSource (s : State) : Bool := s.cpu.mchkDue || s.cpu.haltDue || s.cpu.nmi || s.irqReady

/-- What every entry into a low state waits for (R408). -/
def State.canRest (s : State) : Bool :=
  s.rst.phase == .run && s.ras.fence.isNone && s.wfiHolds && !s.wakeSource && s.cpu.sb.isEmpty && s.cpu.div.isNone && !s.tileBusy

/-- What SLEEP and OFF wait for besides. -/
def State.canSleep (s : State) : Bool :=
  s.openTags.isEmpty && s.tally.slots.all fun (t : TallySlot) => !t.unread && t.desc.isNone

/-- A lane while the part sleeps: it carries nothing, its numbering and negotiation are lost (R410, R431). -/
def Lane.asleep (l : Lane) : Lane := { Lane.init with en := l.en, retired := l.retired, txq := l.txq }

/-- Both rails go off: SLEEP, or OFF (R410, R411). -/
def State.railsOff (s : State) (state : BitVec 3) : State :=
  { s with
    pwr := { s.pwr with state := state, railEn := 0, waking := none, railUp := none }
    spx := { s.spx with mem := [], marks := [], corr := [], reads := [], filling := 0, groups := Vector.replicate 16 .off }
    net := { s.net with link := none, lanes := Vector.ofFn fun i => s.net.lanes[i].asleep } }

/-- The requested state is entered where R408 holds (R408, R411). -/
def State.rest (s : State) : State :=
  if s.pwr.state ≠ 0 ∨ !s.canRest then s
  else
    match reqState s.pwr.req with
    | 1 => { s with pwr := { s.pwr with state := 1#3 } }
    | 2 => { s with pwr := { s.pwr with state := 2#3, railEn := 1 } }
    | 3 => if s.canSleep then s.railsOff 3#3 else s
    | 4 => if s.canSleep then s.railsOff 4#3 else s
    | _ => s

/-- A reset that waits for the rails enters once they are good: rail 1 from NAP, both from SLEEP (R410, R429). -/
def State.railsGood (s : State) : State :=
  match s.rst.railWait with
  | none => s
  | some k =>
    if s.rst.sleep then (if s.pwr.railOk = 3#2 then s.enterReset k true false else s)
    else if s.pwr.railOk.getLsbD 1 then s.enterReset k false false else s

/-- IDLE is reached from NAP once rail 1 is good (R31, R408). -/
def State.fromNap (s : State) : State :=
  if s.pwr.state == 2#3 && s.pwr.waking.isNone && reqState s.pwr.req == 1 && s.pwr.railOk.getLsbD 1 then
    { s with pwr := { s.pwr with state := 1#3 } }
  else s

/-- pwr_state_req takes a value: a change between IDLE and NAP takes effect at once, where the rails allow it, RUN wakes a sleeping
core (R31, R408, R410). -/
def State.powerReq (s : State) (req : BitVec 3) : State :=
  if !s.clockOn then s
  else
    let s : State := { s with pwr := { s.pwr with req := req } }
    match s.pwr.state.toNat, reqState req with
    | 1, 2 => if s.pwr.waking.isNone then { s with pwr := { s.pwr with state := 2#3, railEn := 1 } } else s
    | 2, 1 =>
      if s.pwr.waking.isNone then
        ({ s with pwr := { s.pwr with railEn := 3 } } : State).fromNap
      else s
    | 2, 2 => if s.pwr.waking.isNone then { s with pwr := { s.pwr with railEn := 1 } } else s
    | 3, 0 =>
      State.railsGood { s with
        pwr := { s.pwr with railEn := 3 }
        rst := { s.rst with railWait := some (s.rst.railWait.getD 0), sleep := true, wake := s.rst.railWait.isNone || s.rst.wake } }
    | _, _ => s

/-- A wake from IDLE or NAP begins (R409). -/
def State.startWake (s : State) : State :=
  let why := reqState s.pwr.req == 0 || s.wakeSource
  if !why || s.pwr.waking.isSome then s
  else
    match s.pwr.state.toNat with
    | 1 => { s with pwr := { s.pwr with waking := some 0 } }
    | 2 => { s with pwr := { s.pwr with
        waking := some 0, railEn := 3, railUp := if s.pwr.railOk.getLsbD 1 then some 0 else none } }
    | _ => s

/-- A rail is reported good. -/
def State.railRise (s : State) (rail : Fin 2) : State :=
  if s.rst.wholeLow then s
  else
    let s : State := { s with pwr := { s.pwr with
      railOk := s.pwr.railOk ||| (1#2 <<< rail.val)
      railUp := if rail = 1 ∧ s.pwr.waking.isSome ∧ s.pwr.railUp.isNone then some 0 else s.pwr.railUp } }
    s.railsGood.fromNap.keptRelease

/-- `n` cycles pass, across a bell where need be. -/
def State.pass (s : State) : Nat → State
  | 0 => s
  | n + 1 => s.idleCycle.pass n

/-- The core reaches RUN (R250). -/
def State.awake (s : State) : State := { s with pwr := { s.pwr with state := 0, waking := none, railUp := none } }

/-- The wake time is over: 20 cycles from IDLE, 64 from the rise of pwr_rail_ok[1] from NAP (R409). -/
def State.endWake (s : State) : State :=
  match s.pwr.state.toNat, s.pwr.waking, s.pwr.railUp with
  | 1, some n, _ => (s.pass (20 - n)).awake
  | 2, some _, some m => if s.pwr.railOk.getLsbD 1 then (s.pass (64 - m)).awake else s
  | _, _, _ => s

/-- The current state needs a rail (R31, R409). -/
def State.needsRail (s : State) (rail : Fin 2) : Bool :=
  match s.pwr.state.toNat with
  | 0 => true
  | 1 => true
  | 2 => rail == 0
  | _ => false

/-- pwr_rail_ok falls: a machine check of kind 0x06 and a core reset where the rail is needed (R31). -/
def State.railLoss (s : State) (rail : Fin 2) : State :=
  if s.rst.wholeLow then s
  else
    let s : State := { s with pwr := { s.pwr with
      railOk := s.pwr.railOk &&& ~~~(1#2 <<< rail.val), railUp := if rail = 1 then none else s.pwr.railUp } }
    if s.needsRail rail then (s.machineCheck 6 false 0 0#64).requestReset 0 false else s

/-! ## Meanings -/

/-- ALLOWANCE_EXHAUSTED (R403). -/
def execAllowanceExhausted (s : State) : Out := .next s.exhaustMove
/-- RAMP_LEVEL_STEP (R401). -/
def execRampLevelStep (s : State) : Out := .next s.rampMove
/-- TEMP_HOT (R405). -/
def execTempHot (code : Byte) (s : State) : Out := .next (s.setTemp code)
/-- TEMP_CRIT (R406). -/
def execTempCrit (code : Byte) (s : State) : Out := .next (s.setTemp code)
/-- TEMP_COOL (R406). -/
def execTempCool (code : Byte) (s : State) : Out := .next (s.setTemp code)
/-- PWR_STATE_REQ (R408). -/
def execPwrStateReq (req : BitVec 3) (s : State) : Out := .next (s.powerReq req).settleHeld
/-- PWR_STATE_ENTER (R408). -/
def execPwrStateEnter (s : State) : Out := .next s.rest
/-- WAKE_START (R409). -/
def execWakeStart (s : State) : Out := .next s.startWake
/-- PWR_RAIL_OK_RISE (R409, R410). -/
def execPwrRailOkRise (rail : Fin 2) (s : State) : Out := .next (s.railRise rail).settleHeld
/-- WAKE_COMPLETE (R409). -/
def execWakeComplete (s : State) : Out := .next s.endWake
/-- RAIL_FAIL (R31). -/
def execRailFail (rail : Fin 2) (s : State) : Out := .next (s.railLoss rail).settleHeld
/-- PWR_THROTTLE (R405). -/
def execPwrThrottle (level : BitVec 3) (s : State) : Out :=
  .next (if s.clockOn then { s with pwr := { s.pwr with throttle := level } } else s)

end Sys2Proof.Machine
end

