-- ==== Sys2Proof/Machine/ResetCmd.lean ====
section
/-! DEFINITION. Commands of the resets and of the FUSE port, of the life cycle's timers (01_block_and_ports.md R17 to R21, R33;
18_bring_up_and_reset.md R416, R425 to R430; 16 R398; 20 R453, R454). -/

namespace Sys2Proof.Machine

/-! ## The reset controller -/

/-- rst_whole_n is seen high: the straps are sampled, fuse word 0 is asked for (R17, R19); dbg_trst_n and the selection of the
wrapper stand as given (R16). -/
def State.wholeUp (s : State) (straps : Straps) (trstn wsel : Bool) : State :=
  if s.rst.wholeLow then
    { s with straps := straps, rst := { s.rst with wholeLow := false }, dbg := { s.dbg with trstn := trstn, wsel := wsel } }
  else s

/-- Every answer of the drain has come (R398, R425). -/
def State.drained (s : State) : State :=
  if s.rst.phase == .drain && s.accessesDone then s.endDrain else s

/-- The drain's limit has passed: what is outstanding is absorbed (R398, R427). -/
def State.drainOver (s : State) : State :=
  if s.rst.phase == .drain then
    let s : State := { s with rst := { s.rst with cycles := max s.rst.cycles s.rst.drainLimit } }
    let r := s.absorbTags
    State.endDrain { r.1 with rst := { r.1.rst with absorbed := r.2 } }
  else s

/-- The scrub has written its last unit (R365, R425, R438). -/
def State.scrubbed (s : State) : State :=
  if s.rst.phase == .scrub && s.scrubOut then
    let s := s.scrub
    { s with rst := { s.rst with scrubDone := true, phase := if s.rst.fenceDrain then .bad else .held } }
  else s

/-- rst_hold is low in the held phase; a tainted core leaves no requested reset, and none is left without both rails (R20, R31,
R457). -/
def State.holdLow (s : State) : State :=
  if s.rst.phase == .held && !s.life.taint && s.pwr.railOk == 3#2 then s.releaseHeld else s

/-! ## Meanings -/

/-- RST_WHOLE_ASSERT (R21, R432). -/
def execRstWholeAssert (s : State) : Out := .next s.wholeReset
/-- RST_WHOLE_RELEASE. -/
def execRstWholeRelease (straps : Straps) (trstn wsel : Bool) (s : State) : Out :=
  .next (s.wholeUp straps trstn wsel)
/-- FUSE_ACK (R33). -/
def execFuseAck (data : Word) (s : State) : Out := .next (s.fuseWord data)
/-- RST_REQ (R20): kind 3 is reserved and asks for nothing. -/
def execRstReq (kind : BitVec 2) (s : State) : Out :=
  .next (if kind = 3#2 then s else (s.requestReset kind.toNat false).railsGood.settleHeld)
/-- RESET_CORE_RST (R21). -/
def execResetCoreRst (who : Accessor) (s : State) : Out := .next (s.accessWrite who (pRESET + 0x100) 1#32).settleHeld
/-- DRAIN_COMPLETE. -/
def execDrainComplete (s : State) : Out := .next s.drained.settleHeld
/-- DRAIN_TIMEOUT. -/
def execDrainTimeout (s : State) : Out := .next s.drainOver.settleHeld
/-- SCRUB_DONE. -/
def execScrubDone (s : State) : Out := .next s.scrubbed.settleHeld
/-- RST_HOLD_RELEASE. -/
def execRstHoldRelease (s : State) : Out := .next s.holdLow.settleHeld
/-- RESET_RELEASE (R416). -/
def execResetRelease (who : Accessor) (s : State) : Out := .next (s.accessWrite who (pRESET + 0x100) 0x100#32)

/-- LIFE_XREQ (R450). -/
def execLifeXreq (who : Accessor) (v : Word) (s : State) : Out := .next (s.accessWrite who (pLIFE + 0x108) v).settleHeld
/-- LIFE_SESS_OPEN (R453). -/
def execLifeSessOpen (who : Accessor) (s : State) : Out := .next (s.accessWrite who (pLIFE + 0x110) 1#32)
/-- CHALLENGE_READY: 64 cycles after OPEN (R453). -/
def execChallengeReady (s : State) : Out :=
  .next (if s.life.opening.isSome then { s with life := { s.life with chal := s.life.opening, opening := none } } else s)
/-- LIFE_SESS_SUBMIT: SUBMIT with the LIFE_XREQ written beside it (R453). -/
def execLifeSessSubmit (who : Accessor) (v : Word) (s : State) : Out :=
  .next (if s.reaches who 0xE then (s.lifeSubmit v).settleHeld else s)
/-- LIFE_VERIFY_DONE: 400,000 cycles after SUBMIT (R453). -/
def execLifeVerifyDone (s : State) : Out := .next s.verifyDone.settleHeld
/-- CHALLENGE_EXPIRE: 2^36 cycles after OPEN; a challenge under verification is discarded at its end (R454). -/
def execChallengeExpire (s : State) : Out :=
  .next (if s.life.verifying then s else { s with life := { s.life with chal := none, opening := none } })

end Sys2Proof.Machine
end

