-- ==== Sys2Proof/Machine/RegCmd.lean ====
section
/-! DEFINITION. Commands that access registers of the pages (02_register_pages.md R47 to R56 and the rules that each row names). -/

namespace Sys2Proof.Machine

/-- The key of a register of a page. -/
def regKey (page : Fin 16) (off : BitVec 12) : Nat := page.val * 0x1000 + off.toNat

/-- A register read arrives from an accessor: what it returns stands in `busRead` (R55). -/
def State.accessRead (s : State) (who : Accessor) (key : Nat) : State :=
  if s.reaches who (key / 0x1000) then
    let r := s.readReg who key
    { r.1 with busRead := r.2.setWidth 64 }
  else s

/-- A whole pair is written: low word, then high word (R55). -/
def State.accessPair (s : State) (who : Accessor) (lo : Nat) (v : DWord) : State :=
  (s.accessWrite who lo (lo32 v)).accessWrite who (lo + 4) (hi32 v)

/-! ## The common layout -/

/-- PAGE_APPLY_ARM (R53). -/
def execPageApplyArm (who : Accessor) (page : Fin 16) (s : State) : Out := .next (s.accessWrite who (regKey page 0xF04) 1#32)
/-- PAGE_APPLY_CANCEL (R53). -/
def execPageApplyCancel (who : Accessor) (page : Fin 16) (s : State) : Out := .next (s.accessWrite who (regKey page 0xF04) 2#32)
/-- PAGE_LOCK_WRITE (R52). -/
def execPageLockWrite (who : Accessor) (page : Fin 16) (s : State) : Out := .next (s.accessWrite who (regKey page 0xF00) 1#32)
/-- EVT_SET_WRITE (R49). -/
def execEvtSetWrite (who : Accessor) (page : Fin 16) (v : Word) (s : State) : Out := .next (s.accessWrite who (regKey page 0x01C) v)
/-- EVT_RAW_CLEAR (R50). -/
def execEvtRawClear (who : Accessor) (page : Fin 16) (v : Word) (s : State) : Out := .next (s.accessWrite who (regKey page 0x010) v)
/-- ERR_INFO_CLEAR (R51). -/
def execErrInfoClear (who : Accessor) (page : Fin 16) (s : State) : Out :=
  .next (s.accessWrite who (regKey page 0x020) 0x80000000#32)
/-- PAIR_LOW_READ (R55). -/
def execPairLowRead (who : Accessor) (page : Fin 16) (off : BitVec 12) (s : State) : Out :=
  .next (s.accessRead who (regKey page off))
/-- PAIR_LOW_WRITE (R55). -/
def execPairLowWrite (who : Accessor) (page : Fin 16) (off : BitVec 12) (v : Word) (s : State) : Out :=
  .next (s.accessWrite who (regKey page off) v)
/-- PAIR_HIGH_WRITE (R55): `off` is the high word's. -/
def execPairHighWrite (who : Accessor) (page : Fin 16) (off : BitVec 12) (v : Word) (s : State) : Out :=
  .next (s.accessWrite who (regKey page off) v).settleHeld
/-- REG_WRITE (R47). -/
def execRegWrite (who : Accessor) (page : Fin 16) (off : BitVec 12) (v : Word) (s : State) : Out :=
  .next (s.accessWrite who (regKey page off) v).settleHeld

/-! ## CORE to FAB -/

/-- CORE_DET_WRITE (R249). -/
def execCoreDetWrite (who : Accessor) (v : Word) (s : State) : Out := .next (s.accessWrite who (pCORE + 0x100) v)
/-- CORE_MCHK_CLEAR (R256, R257). -/
def execCoreMchkClear (who : Accessor) (s : State) : Out := .next (s.accessWrite who (pCORE + 0x114) 0x80000000#32)
/-- CACHE_ENABLE_WRITE (R320). -/
def execCacheEnableWrite (who : Accessor) (v : Word) (s : State) : Out := .next (s.accessWrite who (pCACHE + 0x100) v)
/-- XLAT_CTRL_WRITE (R345). -/
def execXlatCtrlWrite (who : Accessor) (v : Word) (s : State) : Out := .next (s.accessWrite who (pXLAT + 0x100) v)
/-- TILE_TUSE_WRITE (R117). -/
def execTileTuseWrite (who : Accessor) (v : Word) (s : State) : Out := .next (s.accessWrite who (pTILE + 0x118) v)
/-- TILE_TUSE_OP_WRITE (R117). -/
def execTileTuseOpWrite (who : Accessor) (v : Word) (s : State) : Out := .next (s.accessWrite who (pTILE + 0x11C) v)
/-- TILE_MASK_WRITE: TILE_MASKC as a pair, or TILE_MASKR (R118). -/
def execTileMaskWrite (who : Accessor) (columns : Bool) (v : DWord) (s : State) : Out :=
  .next (if columns then s.accessPair who (pTILE + 0x128) v else s.accessWrite who (pTILE + 0x124) (lo32 v))
/-- TILE_DEFER_CLEAR (R200). -/
def execTileDeferClear (who : Accessor) (s : State) : Out := .next (s.accessWrite who (pTILE + 0x148) 0x80000000#32)
/-- TILE_TSTAT_CLEAR: bits [6:0] clear flags of TILE_TSTAT, bit 31 clears TILE_FAULTPOS.VALID (R143). -/
def execTileTstatClear (who : Accessor) (v : Word) (s : State) : Out :=
  let s := s.accessWrite who (pTILE + 0x104) (v &&& 0x7F#32)
  .next (if v.getLsbD 31 then s.accessWrite who (pTILE + 0x10C) 0x80000000#32 else s)
/-- CONV_SEED_WRITE (R149). -/
def execConvSeedWrite (who : Accessor) (v : DWord) (s : State) : Out := .next (s.accessPair who (pCONV + 0x108) v)
/-- CONV_CTRL_WRITE (R163). -/
def execConvCtrlWrite (who : Accessor) (v : Word) (s : State) : Out := .next (s.accessWrite who (pCONV + 0x100) v)
/-- SPX_BASE_WRITE (R346). -/
def execSpxBaseWrite (who : Accessor) (v : DWord) (s : State) : Out := .next (s.accessPair who (pSPX + 0x104) v)
/-- SPX_BANKPWR_WRITE (R362, R363). -/
def execSpxBankpwrWrite (who : Accessor) (v : Word) (s : State) : Out := .next (s.accessWrite who (pSPX + 0x118) v)
/-- FAB_LANE_OFF_WRITE (R383). -/
def execFabLaneOffWrite (who : Accessor) (v : Word) (s : State) : Out := .next (s.accessWrite who (pFAB + 0x100) v).settleHeld
/-- FAB_ABSORB_CLR_WRITE (R399). -/
def execFabAbsorbClrWrite (who : Accessor) (s : State) : Out := .next (s.accessWrite who (pFAB + 0x11C) 1#32)

/-! ## PITCH to RAS -/

/-- PITCH_STAGED_ACCESS (R390). -/
def execPitchStagedAccess (who : Accessor) (write : Bool) (v : Word) (s : State) : Out :=
  .next (if write then s.accessWrite who (pPITCH + 0x104) v else s.accessRead who (pPITCH + 0x104))
/-- BELL_SKEW_CLR_WRITE (R211). -/
def execBellSkewClrWrite (who : Accessor) (s : State) : Out := .next (s.accessWrite who (pBELL + 0x120) 1#32)
/-- SYNC_VAL_WRITE (R228). -/
def execSyncValWrite (who : Accessor) (n : Fin 64) (v : Word) (s : State) : Out :=
  .next (s.accessWrite who (pSYNC + 0x100 + 4 * n.val) v)
/-- SYNC_ADD_WRITE (R228). -/
def execSyncAddWrite (who : Accessor) (n : Fin 64) (v : Word) (s : State) : Out :=
  .next (s.accessWrite who (pSYNC + 0x300 + 4 * n.val) v)
/-- WEIGH_ENALLOW_WRITE (R403). -/
def execWeighEnallowWrite (who : Accessor) (v : Word) (s : State) : Out := .next (s.accessWrite who (pWEIGH + 0x100) v)
/-- RAS_FENCE_GO: GO is set (R437, R438). -/
def execRasFenceGo (who : Accessor) (v : Word) (s : State) : Out :=
  .next (s.accessWrite who (pRAS + 0x114) ((v ||| 0x100#32) &&& ~~~0x200#32)).settleHeld
/-- RAS_FENCE_REAPPLY: GO and REAPPLY are set (R447). -/
def execRasFenceReapply (who : Accessor) (v : Word) (s : State) : Out :=
  .next (s.accessWrite who (pRAS + 0x114) (v ||| 0x300#32)).settleHeld
/-- RAS_RETIRE_GO: GO is set (R436). -/
def execRasRetireGo (who : Accessor) (v : Word) (s : State) : Out :=
  .next (s.accessWrite who (pRAS + 0x124) ((v ||| 0x100#32) &&& ~~~0x200#32)).settleHeld
/-- RAS_RETIRE_REAPPLY: GO and REAPPLY are set (R447). -/
def execRasRetireReapply (who : Accessor) (v : Word) (s : State) : Out :=
  .next (s.accessWrite who (pRAS + 0x124) (v ||| 0x300#32)).settleHeld
/-- RAS_BKT_WRITE (R435). -/
def execRasBktWrite (who : Accessor) (v : Word) (s : State) : Out := .next (s.accessWrite who (pRAS + 0x120) v)
/-- RAS_LPOP_WRITE (R443). -/
def execRasLpopWrite (who : Accessor) (v : Word) (s : State) : Out := .next (s.accessWrite who (pRAS + 0x12C) v)
/-- RAS_SUMMARY_CLEAR (R442). -/
def execRasSummaryClear (who : Accessor) (v : Word) (s : State) : Out := .next (s.accessWrite who (pRAS + 0x10C) v)

end Sys2Proof.Machine
end

