-- ==== Sys2Proof/Machine/DebugCmd.lean ====
section
/-! DEFINITION. The debug ports: TAP and wrapper instructions (20_life_cycle_and_debug.md R456 to R458). -/

namespace Sys2Proof.Machine

/-! ## Loading an instruction (R456) -/

/-- The debug ports work: the part is powered. -/
def State.dbgLive (s : State) : Bool := decide (s.pwr.state.toNat < 3)

/-- The wrapper is selected: by the host chip's core-test access, or by the TAP's WRAP instruction (R16, R456). -/
def State.wrapped (s : State) : Bool := s.dbg.wsel || (s.dbg.trstn && s.dbg.tap == 0x08#5)

/-- A TAP instruction is loaded and does `k`; one that is not permitted is loaded as BYPASS and raises DENIED;
while dbg_trst_n is low nothing happens (R16). -/
def State.tapInstr (s : State) (code : BitVec 5) (k : State → State) : State :=
  if !s.dbgLive || !s.dbg.trstn then s
  else if s.dbgAllows (tapClass code) then k { s with dbg := { s.dbg with tap := code } }
  else ({ s with dbg := { s.dbg with tap := 0x1F#5 } } : State).raise pLIFE 4

/-- A wrapper instruction of a class is loaded and does `k`; one that is not permitted is loaded as WS_BYPASS and raises DENIED;
without the wrapper selected nothing happens (R16). -/
def State.wrapInstr (s : State) (code : Byte) (c : DbgClass) (k : State → State) : State :=
  if !s.dbgLive || !s.wrapped then s
  else if s.dbgAllows c then k { s with dbg := { s.dbg with wir := code } }
  else ({ s with dbg := { s.dbg with wir := 0x00#8 } } : State).raise pLIFE 4

/-- What a boundary register, a chain or a self-test gives is open: a free value. -/
def State.capture' (s : State) : State := ({ s with fresh := s.fresh + 1 } : State).dbgOut (Config.captured s.fresh)

/-- IDCODE: IMPL_MINOR, the part number, 0, 1. -/
def idcode : DWord := w64 (3 * 2 ^ 28 + 0x9A11 * 2 ^ 12 + 1)

/-! ## DBG_CTRL (R458) -/

/-- A halt request: an asynchronous source; it is taken at once where it can be sampled. -/
def State.askHalt (s : State) : State :=
  if s.cpu.halted || s.rst.phase != .run then s
  else
    let s : State := { s with cpu := { s.cpu with haltDue := true } }
    if s.canSample && !s.cpu.mchkDue && !s.repDelays then s.takeHalt else s

/-- A halted core goes on at LIFE_DBGPC; `step`: until one instruction or unit has committed. -/
def State.goOn (s : State) (step : Bool) : State :=
  if s.cpu.halted then
    { s with cpu := { s.cpu with
        ip := s.reg64 (pLIFE + 0x120), wait := .none, fetched := [], fromLine := none, loop := none, halted := step, stepping := step } }
  else s

/-! ## DBG_ACCESS (R456, R458) -/

/-- A read that nothing answers leaves a free value. -/
def State.noData (s : State) : State := s.capture'

/-- A physical address whose type without a page is cacheable, while L1D is active. -/
def State.dbgCacheable (s : State) (pa : Nat) : Bool := s.cacheOn false && s.effType pa 0 == 0

/-- A read of an aligned doubleword, of a word in a register window. -/
def State.dbgRead (s : State) (pa : Nat) : State :=
  match s.physTarget pa with
  | .regs off =>
    let r := s.readReg .local (off / 4 * 4)
    r.1.dbgOut (r.2.setWidth 64)
  | .spx off _ =>
    if (s.rangeCheck ⟨.core 2 [0#16], .v, 0⟩ off 8).isSome then s.noData
    else
      let r := s.spxRead 2 [] off 8
      if r.2.2.isEmpty then r.1.dbgOut (w64 (leNat r.2.1)) else r.1.noData
  | .boot a => { s with boot := { s.boot with offered := s.boot.offered ++ [⟨false, a, 0, none, none, false, 0, true, none⟩] } }
  | .phys a => if s.dbgCacheable a then s.dbgCached a none true else s.dbgPast a none

/-- A write of the same. -/
def State.dbgWrite (s : State) (pa : Nat) (v : DWord) : State :=
  match s.physTarget pa with
  | .regs off => s.dbgReg (off / 4 * 4) v
  | .spx off _ =>
    if (s.rangeCheck ⟨.core 2 [0#16], .v, 1⟩ off 8).isSome then s
    else s.writeSpx off (leBytes v.toNat 8) (s.classes off 8) []
  | .boot a => { s with boot := { s.boot with offered := s.boot.offered ++ [⟨true, a, v, none, none, false, 0, true, none⟩] } }
  | .phys a => if s.dbgCacheable a then s.dbgCached a (some v) true else s.dbgPast a (some v)

/-- The address of a memory access is aligned: to 4 in a register window, else to 8. -/
def dbgAligned (pa : Nat) : Bool := if inRegWindow pa then pa % 4 == 0 else pa % 8 == 0

/-- A special register as the debug port writes it: as MTSR at level M; IP moves the return address of the halt. -/
def State.dbgSr (s : State) (r : SpecialReg) (v : DWord) : State :=
  match r with
  | .ip => ({ s with cpu := { s.cpu with ip := v } } : State).setReg64 (pLIFE + 0x120) v
  | .flags =>
    let m := mtsrFlagsMask false
    s.setFlags ((s.cpu.flags &&& ~~~m) ||| (v &&& m))
  | .vec n =>
    let s := s.writeSr (.vec n) v
    { s with cpu := { s.cpu with lines := s.cpu.lines.set n (some (v &&& ~~~0x3F#64)) } }
  | r => s.writeSr r v

/-- One access: registers of the pipeline while it is halted, page registers and memory at any time. -/
def State.dbgAccess (s : State) (t : DbgOp) : State :=
  match t with
  | .gRead n => if s.cpu.halted then s.dbgOut (s.g n) else s
  | .gWrite n v => if s.cpu.halted then s.setG n v else s
  | .fRead n => if s.cpu.halted then s.dbgOut (s.f n) else s
  | .fWrite n v => if s.cpu.halted then s.setF n v else s
  | .srRead n =>
    match specialReg n with
    | some r => if s.cpu.halted then s.dbgOut (s.readSr r) else s
    | none => s
  | .srWrite n v =>
    match specialReg n with
    | some r => if s.cpu.halted then s.dbgSr r v else s
    | none => s
  | .regRead off => if off.toNat % 4 = 0 then s.dbgRead (0xFFFFFFFFFF0000 + off.toNat) else s
  | .regWrite off v => if off.toNat % 4 = 0 then s.dbgWrite (0xFFFFFFFFFF0000 + off.toNat) (v.setWidth 64) else s
  | .memRead pa => if dbgAligned pa.toNat then s.dbgRead pa.toNat else s
  | .memWrite pa v => if dbgAligned pa.toNat then s.dbgWrite pa.toNat v else s

/-! ## SCAN and MBIST (R457) -/

def State.setTaint (s : State) : State := { s with life := { s.life with taint := true } }

/-- SCAN shifts through the pipeline's registers: no rule restores them. -/
def State.scanned (s : State) : State :=
  let k := s.fresh
  let v (n : Nat) : DWord := Config.scanned k n
  let fr (n : Nat) : Frame := ⟨v n, v (n + 1) &&& flagsMask, v (n + 2) &&& xcauseMask, v (n + 3), v (n + 4)⟩
  let s := (({ s with fresh := k + 1 } : State).setTaint).capture'
  { s with cpu := { s.cpu with
      g := Vector.ofFn fun i => v i.val
      f := Vector.ofFn fun i => v (32 + i.val)
      ip := v 64, flags := v 65 &&& flagsMask, brs := v 66, bre := v 67, brc := v 68, veidx := v 69
      tid := (v 70).setWidth 16, frameS := fr 71, frameM := fr 76
      vecs := Vector.ofFn fun i => v (81 + i.val) &&& ~~~0x3F#64 } }

/-- Open bytes over a memory of `n` bytes. -/
def openBytes (k n : Nat) : Memory := Memory.write [] 0 ((List.range n).map fun i => (Config.scanned k i).setWidth 8)

/-- n bytes of the pool, or of the operand tiles, as a self-test leaves them: open bytes. -/
def State.openPool (s : State) (k n : Nat) : State := State.setTaint { s with tile := { s.tile with pool := openBytes k n } }
def State.openOps (s : State) (k n : Nat) : State := State.setTaint { s with tile := { s.tile with ops := openBytes k n } }

/-- The self-test of the pool or of the operand tiles disturbs them; the others report. -/
def State.selfTest (s : State) (target : MbistTarget) : State :=
  let k := s.fresh
  let s := ({ s with fresh := k + 1 } : State).capture'
  match target with
  | .pool => s.openPool k 131072
  | .operandTiles => s.openOps k 33792
  | .spxInterface | .caches | .tlbs => s

/-! ## LC_STATE and LC_SESSION -/

/-- One access of LC_SESSION, as through the LIFE page. -/
def State.session (s : State) (op : SessionOp) : State :=
  match op with
  | .open => s.lifeOpen
  | .readChal n => s.dbgOut ((s.regNow (pLIFE + 0x140 + 4 * n.val)).setWidth 64)
  | .writeResp n v => s.lifeResp n.val v
  | .submit x => s.lifeSubmit x

/-! ## Meanings -/

/-- TAP_IDCODE. -/
def execTapIdcode (s : State) : Out := .next (s.tapInstr 0x01 fun s => s.dbgOut idcode)
/-- TAP_SAMPLE_PRELOAD. -/
def execTapSamplePreload (s : State) : Out := .next (s.tapInstr 0x02 State.capture')
/-- TAP_EXTEST. -/
def execTapExtest (s : State) : Out := .next (s.tapInstr 0x03 State.capture')
/-- TAP_WRAP. -/
def execTapWrap (s : State) : Out := .next (s.tapInstr 0x08 id)
/-- TAP_BYPASS. -/
def execTapBypass (s : State) : Out := .next (s.tapInstr 0x1F id)
/-- WS_BYPASS. -/
def execWsBypass (s : State) : Out := .next (s.wrapInstr 0x00 .free id)
/-- WS_EXTEST. -/
def execWsExtest (s : State) : Out := .next (s.wrapInstr 0x01 .boundary State.capture')
/-- WS_INTEST. -/
def execWsIntest (s : State) : Out := .next (s.wrapInstr 0x02 .control State.capture')
/-- DBG_HALT. -/
def execDbgHalt (s : State) : Out := .next (s.wrapInstr 0x10 .control State.askHalt)
/-- DBG_RESUME. -/
def execDbgResume (s : State) : Out := .next (s.wrapInstr 0x10 .control fun s => s.goOn false)
/-- DBG_STEP. -/
def execDbgStep (s : State) : Out := .next (s.wrapInstr 0x10 .control fun s => s.goOn true)
/-- DBG_ACCESS. -/
def execDbgAccess (t : DbgOp) (s : State) : Out := .next (s.wrapInstr 0x11 .access fun s => s.dbgAccess t).settleHeld
/-- SCAN. -/
def execScan (s : State) : Out := .next (s.wrapInstr 0x20 .internal State.scanned)
/-- MBIST. -/
def execMbist (target : MbistTarget) (s : State) : Out := .next (s.wrapInstr 0x21 .internal fun s => s.selfTest target)
/-- LC_STATE_READ: LIFE_XSTAT in the low word, the fuse state and the shadow as LIFE_STATE in the high word. -/
def execLcStateRead (s : State) : Out :=
  .next (s.wrapInstr 0x30 .free fun s => s.dbgOut (join64 (s.regNow (pLIFE + 0x100)) (s.regNow (pLIFE + 0x10C))))
/-- LC_STATE_WRITE (R450). -/
def execLcStateWrite (v : Word) (s : State) : Out := .next (s.wrapInstr 0x30 .request fun s => s.lifeXreq v).settleHeld
/-- LC_SESSION (R453). -/
def execLcSession (op : SessionOp) (s : State) : Out := .next (s.wrapInstr 0x31 .session fun s => s.session op).settleHeld

end Sys2Proof.Machine
end

