-- ==== Sys2Proof/Machine/Dispatch.lean ====
section
/-! DEFINITION. exec: one arm per command, each one call of its meaning. -/

namespace Sys2Proof.Machine

def exec (i : Instr) (s : State) : Host.Outcome State Fault Refusal :=
  match i with
  | .rstWholeAssert => Sys2Proof.Machine.execRstWholeAssert s
  | .rstWholeRelease straps trstn wsel => Sys2Proof.Machine.execRstWholeRelease straps trstn wsel s
  | .fuseAck data => Sys2Proof.Machine.execFuseAck data s
  | .bootResponse data err => Sys2Proof.Machine.execBootResponse data err s
  | .rstReq kind => Sys2Proof.Machine.execRstReq kind s
  | .resetCoreRst who => Sys2Proof.Machine.execResetCoreRst who s
  | .drainComplete => Sys2Proof.Machine.execDrainComplete s
  | .drainTimeout => Sys2Proof.Machine.execDrainTimeout s
  | .scrubDone => Sys2Proof.Machine.execScrubDone s
  | .rstHoldRelease => Sys2Proof.Machine.execRstHoldRelease s
  | .resetRelease who => Sys2Proof.Machine.execResetRelease who s
  | .bellPulse load allow upsets => Sys2Proof.Machine.execBellPulse load allow upsets s
  | .substitutedBell allow => Sys2Proof.Machine.execSubstitutedBell allow s
  | .splitPoint => Sys2Proof.Machine.execSplitPoint s
  | .tallyDescRead slot flips => Sys2Proof.Machine.execTallyDescRead slot flips s
  | .tallyApplyStart => Sys2Proof.Machine.execTallyApplyStart s
  | .tallySlotApplyDone => Sys2Proof.Machine.execTallySlotApplyDone s
  | .rasLeak => Sys2Proof.Machine.execRasLeak s
  | .tallyContrib m => Sys2Proof.Machine.execTallyContrib m s
  | .tallyHeldStage => Sys2Proof.Machine.execTallyHeldStage s
  | .rspNotice m => Sys2Proof.Machine.execRspNotice m s
  | .reqRd m => Sys2Proof.Machine.execReqRd m s
  | .reqWr m => Sys2Proof.Machine.execReqWr m s
  | .reqRegrd m => Sys2Proof.Machine.execReqRegrd m s
  | .reqRegwr m => Sys2Proof.Machine.execReqRegwr m s
  | .reqSadd m => Sys2Proof.Machine.execReqSadd m s
  | .ctrlHello h => Sys2Proof.Machine.execCtrlHello h s
  | .ctrlXinv m => Sys2Proof.Machine.execCtrlXinv m s
  | .ctrlXack m => Sys2Proof.Machine.execCtrlXack m s
  | .ctrlHole m => Sys2Proof.Machine.execCtrlHole m s
  | .rspRdata m => Sys2Proof.Machine.execRspRdata m s
  | .rspAck m => Sys2Proof.Machine.execRspAck m s
  | .rspErr m => Sys2Proof.Machine.execRspErr m s
  | .laneUp lane => Sys2Proof.Machine.execLaneUp lane s
  | .laneDown lane => Sys2Proof.Machine.execLaneDown lane s
  | .txCredit lane vc => Sys2Proof.Machine.execTxCredit lane vc s
  | .helloRetry lane => Sys2Proof.Machine.execHelloRetry lane s
  | .flitRxReject lane cause => Sys2Proof.Machine.execFlitRxReject lane cause s
  | .nakRetry lane => Sys2Proof.Machine.execNakRetry lane s
  | .txNak lane seq => Sys2Proof.Machine.execTxNak lane seq s
  | .holeNoticeSend => Sys2Proof.Machine.execHoleNoticeSend s
  | .xinvBcastTimeout => Sys2Proof.Machine.execXinvBcastTimeout s
  | .spxReadData flips => Sys2Proof.Machine.execSpxReadData flips s
  | .spxCorrWriteback => Sys2Proof.Machine.execSpxCorrWriteback s
  | .spx1Rsp data err => Sys2Proof.Machine.execSpx1Rsp data err s
  | .groupPwrAck g => Sys2Proof.Machine.execGroupPwrAck g s
  | .groupOpenDone g => Sys2Proof.Machine.execGroupOpenDone g s
  | .groupCloseDone g => Sys2Proof.Machine.execGroupCloseDone g s
  | .bankPwrAckLoss bank => Sys2Proof.Machine.execBankPwrAckLoss bank s
  | .asyncEntry => Sys2Proof.Machine.execAsyncEntry s
  | .nmiEdge => Sys2Proof.Machine.execNmiEdge s
  | .irqExt line level => Sys2Proof.Machine.execIrqExt line level s
  | .divideComplete => Sys2Proof.Machine.execDivideComplete s
  | .moveUnitPerform flips => Sys2Proof.Machine.execMoveUnitPerform flips s
  | .storeBufferPerform o => Sys2Proof.Machine.execStoreBufferPerform o s
  | .pageWalkDone flips => Sys2Proof.Machine.execPageWalkDone flips s
  | .add o => Sys2Proof.Machine.execAdd o s
  | .sub o => Sys2Proof.Machine.execSub o s
  | .andd o => Sys2Proof.Machine.execAnd o s
  | .orr o => Sys2Proof.Machine.execOr o s
  | .xorr o => Sys2Proof.Machine.execXor o s
  | .andn o => Sys2Proof.Machine.execAndn o s
  | .shl o => Sys2Proof.Machine.execShl o s
  | .shr o => Sys2Proof.Machine.execShr o s
  | .sar o => Sys2Proof.Machine.execSar o s
  | .rol o => Sys2Proof.Machine.execRol o s
  | .ror o => Sys2Proof.Machine.execRor o s
  | .mul o => Sys2Proof.Machine.execMul o s
  | .mulh o => Sys2Proof.Machine.execMulh o s
  | .mulhu o => Sys2Proof.Machine.execMulhu o s
  | .cmp a b => Sys2Proof.Machine.execCmp a b s
  | .tst a b => Sys2Proof.Machine.execTst a b s
  | .ldb o => Sys2Proof.Machine.execLdb o s
  | .ldbs o => Sys2Proof.Machine.execLdbs o s
  | .ldh o => Sys2Proof.Machine.execLdh o s
  | .ldhs o => Sys2Proof.Machine.execLdhs o s
  | .ldw o => Sys2Proof.Machine.execLdw o s
  | .ldws o => Sys2Proof.Machine.execLdws o s
  | .ldd o => Sys2Proof.Machine.execLdd o s
  | .ldf o => Sys2Proof.Machine.execLdf o s
  | .stb o => Sys2Proof.Machine.execStb o s
  | .sth o => Sys2Proof.Machine.execSth o s
  | .stw o => Sys2Proof.Machine.execStw o s
  | .std o => Sys2Proof.Machine.execStd o s
  | .stf o => Sys2Proof.Machine.execStf o s
  | .ldfs o => Sys2Proof.Machine.execLdfs o s
  | .stfs o => Sys2Proof.Machine.execStfs o s
  | .lea o => Sys2Proof.Machine.execLea o s
  | .bCc cc t => Sys2Proof.Machine.execBCc cc t s
  | .jmp a => Sys2Proof.Machine.execJmp a s
  | .call disp => Sys2Proof.Machine.execCall disp s
  | .callr a => Sys2Proof.Machine.execCallr a s
  | .ret => Sys2Proof.Machine.execRet s
  | .brpt a len => Sys2Proof.Machine.execBrpt a len s
  | .nop => Sys2Proof.Machine.execNop s
  | .div x d a b => Sys2Proof.Machine.execDiv x d a b s
  | .divu x d a b => Sys2Proof.Machine.execDivu x d a b s
  | .rem x d a b => Sys2Proof.Machine.execRem x d a b s
  | .remu x d a b => Sys2Proof.Machine.execRemu x d a b s
  | .fadd x d a b => Sys2Proof.Machine.execFadd x d a b s
  | .fsub x d a b => Sys2Proof.Machine.execFsub x d a b s
  | .fmul x d a b => Sys2Proof.Machine.execFmul x d a b s
  | .fdiv x d a b => Sys2Proof.Machine.execFdiv x d a b s
  | .fsqrt x d a => Sys2Proof.Machine.execFsqrt x d a s
  | .fma x d a b => Sys2Proof.Machine.execFma x d a b s
  | .fmin x d a b => Sys2Proof.Machine.execFmin x d a b s
  | .fmax x d a b => Sys2Proof.Machine.execFmax x d a b s
  | .fcmp x a b => Sys2Proof.Machine.execFcmp x a b s
  | .fneg x d a => Sys2Proof.Machine.execFneg x d a s
  | .fabs x d a => Sys2Proof.Machine.execFabs x d a s
  | .fmov x d a => Sys2Proof.Machine.execFmov x d a s
  | .fcvt tz x d a => Sys2Proof.Machine.execFcvt tz x d a s
  | .fcvti tz x d a => Sys2Proof.Machine.execFcvti tz x d a s
  | .icvtf tz x d a => Sys2Proof.Machine.execIcvtf tz x d a s
  | .movfg x d a => Sys2Proof.Machine.execMovfg x d a s
  | .movgf x d a => Sys2Proof.Machine.execMovgf x d a s
  | .mov d a => Sys2Proof.Machine.execMov d a s
  | .movi16 d imm => Sys2Proof.Machine.execMovi16 d imm s
  | .movi32 d imm => Sys2Proof.Machine.execMovi32 d imm s
  | .movi64 d imm => Sys2Proof.Machine.execMovi64 d imm s
  | .movz32 d a => Sys2Proof.Machine.execMovz32 d a s
  | .movs32 d a => Sys2Proof.Machine.execMovs32 d a s
  | .syscall => Sys2Proof.Machine.execSyscall s
  | .fwcall => Sys2Proof.Machine.execFwcall s
  | .brk => Sys2Proof.Machine.execBrk s
  | .eret => Sys2Proof.Machine.execEret s
  | .mfsr d n => Sys2Proof.Machine.execMfsr d n s
  | .mtsr n a => Sys2Proof.Machine.execMtsr n a s
  | .ifence => Sys2Proof.Machine.execIfence s
  | .fence => Sys2Proof.Machine.execFence s
  | .uaopen => Sys2Proof.Machine.execUaopen s
  | .uaclose => Sys2Proof.Machine.execUaclose s
  | .wfi => Sys2Proof.Machine.execWfi s
  | .syncadd a n => Sys2Proof.Machine.execSyncadd a n s
  | .syncset a n => Sys2Proof.Machine.execSyncset a n s
  | .syncget d n => Sys2Proof.Machine.execSyncget d n s
  | .syncwait a n => Sys2Proof.Machine.execSyncwait a n s
  | .syncwaitEnd => Sys2Proof.Machine.execSyncwaitEnd s
  | .syncradd a b n => Sys2Proof.Machine.execSyncradd a b n s
  | .bcopy nt rep => Sys2Proof.Machine.execBcopy nt rep s
  | .bfill nt rep => Sys2Proof.Machine.execBfill nt rep s
  | .movt rep => Sys2Proof.Machine.execMovt rep s
  | .crcstep d a ctl => Sys2Proof.Machine.execCrcstep d a ctl s
  | .crcstepM rep d ctl => Sys2Proof.Machine.execCrcstepM rep d ctl s
  | .parity d a n => Sys2Proof.Machine.execParity d a n s
  | .brev d a n => Sys2Proof.Machine.execBrev d a n s
  | .brevn d a n => Sys2Proof.Machine.execBrevn d a n s
  | .popc d a => Sys2Proof.Machine.execPopc d a s
  | .clz d a => Sys2Proof.Machine.execClz d a s
  | .ctz d a => Sys2Proof.Machine.execCtz d a s
  | .vadd wide sz d b a => Sys2Proof.Machine.execVadd wide sz d b a s
  | .vsub wide sz d b a => Sys2Proof.Machine.execVsub wide sz d b a s
  | .vmul wide sz d b a => Sys2Proof.Machine.execVmul wide sz d b a s
  | .vmin wide x sz d b a => Sys2Proof.Machine.execVmin wide x sz d b a s
  | .vmax wide x sz d b a => Sys2Proof.Machine.execVmax wide x sz d b a s
  | .vcmpeq wide sz d b a => Sys2Proof.Machine.execVcmpeq wide sz d b a s
  | .vcmpgt wide x sz d b a => Sys2Proof.Machine.execVcmpgt wide x sz d b a s
  | .vshl wide sz d b a => Sys2Proof.Machine.execVshl wide sz d b a s
  | .vshr wide x sz d b a => Sys2Proof.Machine.execVshr wide x sz d b a s
  | .vshli wide sz d a n => Sys2Proof.Machine.execVshli wide sz d a n s
  | .vshri wide x sz d a n => Sys2Proof.Machine.execVshri wide x sz d a n s
  | .vdup wide sz d a => Sys2Proof.Machine.execVdup wide sz d a s
  | .vins wide sz d a n => Sys2Proof.Machine.execVins wide sz d a n s
  | .vext wide x sz d a n => Sys2Proof.Machine.execVext wide x sz d a n s
  | .vand wide d b a => Sys2Proof.Machine.execVand wide d b a s
  | .vor wide d b a => Sys2Proof.Machine.execVor wide d b a s
  | .vxor wide d b a => Sys2Proof.Machine.execVxor wide d b a s
  | .vandn wide d b a => Sys2Proof.Machine.execVandn wide d b a s
  | .vmov wide d a => Sys2Proof.Machine.execVmov wide d a s
  | .vbsl wide d b a => Sys2Proof.Machine.execVbsl wide d b a s
  | .vadds wide x sz d b a => Sys2Proof.Machine.execVadds wide x sz d b a s
  | .vsubs wide x sz d b a => Sys2Proof.Machine.execVsubs wide x sz d b a s
  | .vabss wide sz d a => Sys2Proof.Machine.execVabss wide sz d a s
  | .vnegs wide sz d a => Sys2Proof.Machine.execVnegs wide sz d a s
  | .vmulfx wide x sz d b a => Sys2Proof.Machine.execVmulfx wide x sz d b a s
  | .vshrr wide x sz d a n => Sys2Proof.Machine.execVshrr wide x sz d a n s
  | .vshls wide x sz d a n => Sys2Proof.Machine.execVshls wide x sz d a n s
  | .vnars x sz d a => Sys2Proof.Machine.execVnars x sz d a s
  | .vnarrs x sz d a n => Sys2Proof.Machine.execVnarrs x sz d a n s
  | .vwiden x sz d a => Sys2Proof.Machine.execVwiden x sz d a s
  | .vfadd wide sz d b a => Sys2Proof.Machine.execVfadd wide sz d b a s
  | .vfsub wide sz d b a => Sys2Proof.Machine.execVfsub wide sz d b a s
  | .vfmul wide sz d b a => Sys2Proof.Machine.execVfmul wide sz d b a s
  | .vfma wide sz d b a => Sys2Proof.Machine.execVfma wide sz d b a s
  | .vfmin wide sz d b a => Sys2Proof.Machine.execVfmin wide sz d b a s
  | .vfmax wide sz d b a => Sys2Proof.Machine.execVfmax wide sz d b a s
  | .vfcmpeq wide sz d b a => Sys2Proof.Machine.execVfcmpeq wide sz d b a s
  | .vfcmplt wide sz d b a => Sys2Proof.Machine.execVfcmplt wide sz d b a s
  | .vfcmple wide sz d b a => Sys2Proof.Machine.execVfcmple wide sz d b a s
  | .vfneg wide sz d a => Sys2Proof.Machine.execVfneg wide sz d a s
  | .vfabs wide sz d a => Sys2Proof.Machine.execVfabs wide sz d a s
  | .vcvtif wide sz d a => Sys2Proof.Machine.execVcvtif wide sz d a s
  | .vcvtfi tz wide sz d a => Sys2Proof.Machine.execVcvtfi tz wide sz d a s
  | .vfwiden d a => Sys2Proof.Machine.execVfwiden d a s
  | .vfnarrow tz d a => Sys2Proof.Machine.execVfnarrow tz d a s
  | .vcvth tz d a => Sys2Proof.Machine.execVcvth tz d a s
  | .vcvthf d a => Sys2Proof.Machine.execVcvthf d a s
  | .vcvtb tz d b a => Sys2Proof.Machine.execVcvtb tz d b a s
  | .vcvtbf x d a => Sys2Proof.Machine.execVcvtbf x d a s
  | .vld wide o => Sys2Proof.Machine.execVld wide o s
  | .vst wide o => Sys2Proof.Machine.execVst wide o s
  | .vgather wide sz d b a x_s chk => Sys2Proof.Machine.execVgather wide sz d b a x_s chk s
  | .vscatter wide sz d b a x_s chk => Sys2Proof.Machine.execVscatter wide sz d b a x_s chk s
  | .dcleanVa a => Sys2Proof.Machine.execDcleanVa a s
  | .dinvalVa a => Sys2Proof.Machine.execDinvalVa a s
  | .dclinvVa a => Sys2Proof.Machine.execDclinvVa a s
  | .dcleanR => Sys2Proof.Machine.execDcleanR s
  | .dinvalR => Sys2Proof.Machine.execDinvalR s
  | .dclinvR => Sys2Proof.Machine.execDclinvR s
  | .dcleanSw a => Sys2Proof.Machine.execDcleanSw a s
  | .dinvalSw a => Sys2Proof.Machine.execDinvalSw a s
  | .dclinvSw a => Sys2Proof.Machine.execDclinvSw a s
  | .dinvalAll => Sys2Proof.Machine.execDinvalAll s
  | .dpreload a way => Sys2Proof.Machine.execDpreload a way s
  | .iinvalVa a => Sys2Proof.Machine.execIinvalVa a s
  | .iinvalR => Sys2Proof.Machine.execIinvalR s
  | .iinvalSw a => Sys2Proof.Machine.execIinvalSw a s
  | .iinvalAll => Sys2Proof.Machine.execIinvalAll s
  | .ipreload a way => Sys2Proof.Machine.execIpreload a way s
  | .xinv imm d b a => Sys2Proof.Machine.execXinv imm d b a s
  | .tsync => Sys2Proof.Machine.execTsync s
  | .tsyncWaitEnd => Sys2Proof.Machine.execTsyncWaitEnd s
  | .tbegin o => Sys2Proof.Machine.execTbegin o s
  | .tmma o => Sys2Proof.Machine.execTmma o s
  | .tmmaSeg o => Sys2Proof.Machine.execTmmaSeg o s
  | .tclose o => Sys2Proof.Machine.execTclose o s
  | .tconv o => Sys2Proof.Machine.execTconv o s
  | .tload o => Sys2Proof.Machine.execTload o s
  | .tstore o => Sys2Proof.Machine.execTstore o s
  | .tsave o => Sys2Proof.Machine.execTsave o s
  | .trestore o => Sys2Proof.Machine.execTrestore o s
  | .tcrateTake o => Sys2Proof.Machine.execTcrateTake o s
  | .tcrateReload o => Sys2Proof.Machine.execTcrateReload o s
  | .tcrateTakeProceed => Sys2Proof.Machine.execTcrateTakeProceed s
  | .tew o => Sys2Proof.Machine.execTew o s
  | .tmask o => Sys2Proof.Machine.execTmask o s
  | .tileInstrStart err => Sys2Proof.Machine.execTileInstrStart err s
  | .tileBlockEnd => Sys2Proof.Machine.execTileBlockEnd s
  | .tileInstrComplete => Sys2Proof.Machine.execTileInstrComplete s
  | .tsaveDrainDone => Sys2Proof.Machine.execTsaveDrainDone s
  | .pageApplyArm who page => Sys2Proof.Machine.execPageApplyArm who page s
  | .pageApplyCancel who page => Sys2Proof.Machine.execPageApplyCancel who page s
  | .pageLockWrite who page => Sys2Proof.Machine.execPageLockWrite who page s
  | .evtSetWrite who page v => Sys2Proof.Machine.execEvtSetWrite who page v s
  | .evtRawClear who page v => Sys2Proof.Machine.execEvtRawClear who page v s
  | .errInfoClear who page => Sys2Proof.Machine.execErrInfoClear who page s
  | .pairLowRead who page off => Sys2Proof.Machine.execPairLowRead who page off s
  | .pairLowWrite who page off v => Sys2Proof.Machine.execPairLowWrite who page off v s
  | .pairHighWrite who page off v => Sys2Proof.Machine.execPairHighWrite who page off v s
  | .regWrite who page off v => Sys2Proof.Machine.execRegWrite who page off v s
  | .tileTuseWrite who v => Sys2Proof.Machine.execTileTuseWrite who v s
  | .tileTuseOpWrite who v => Sys2Proof.Machine.execTileTuseOpWrite who v s
  | .tileMaskWrite who columns v => Sys2Proof.Machine.execTileMaskWrite who columns v s
  | .tileDeferClear who => Sys2Proof.Machine.execTileDeferClear who s
  | .tileTstatClear who v => Sys2Proof.Machine.execTileTstatClear who v s
  | .convSeedWrite who v => Sys2Proof.Machine.execConvSeedWrite who v s
  | .convCtrlWrite who v => Sys2Proof.Machine.execConvCtrlWrite who v s
  | .coreDetWrite who v => Sys2Proof.Machine.execCoreDetWrite who v s
  | .coreMchkClear who => Sys2Proof.Machine.execCoreMchkClear who s
  | .cacheEnableWrite who v => Sys2Proof.Machine.execCacheEnableWrite who v s
  | .xlatCtrlWrite who v => Sys2Proof.Machine.execXlatCtrlWrite who v s
  | .spxBaseWrite who v => Sys2Proof.Machine.execSpxBaseWrite who v s
  | .spxBankpwrWrite who v => Sys2Proof.Machine.execSpxBankpwrWrite who v s
  | .fabLaneOffWrite who v => Sys2Proof.Machine.execFabLaneOffWrite who v s
  | .fabAbsorbClrWrite who => Sys2Proof.Machine.execFabAbsorbClrWrite who s
  | .pitchStagedAccess who write v => Sys2Proof.Machine.execPitchStagedAccess who write v s
  | .bellSkewClrWrite who => Sys2Proof.Machine.execBellSkewClrWrite who s
  | .syncValWrite who n v => Sys2Proof.Machine.execSyncValWrite who n v s
  | .syncAddWrite who n v => Sys2Proof.Machine.execSyncAddWrite who n v s
  | .weighEnallowWrite who v => Sys2Proof.Machine.execWeighEnallowWrite who v s
  | .rasFenceGo who v => Sys2Proof.Machine.execRasFenceGo who v s
  | .rasFenceReapply who v => Sys2Proof.Machine.execRasFenceReapply who v s
  | .rasRetireGo who v => Sys2Proof.Machine.execRasRetireGo who v s
  | .rasRetireReapply who v => Sys2Proof.Machine.execRasRetireReapply who v s
  | .rasBktWrite who v => Sys2Proof.Machine.execRasBktWrite who v s
  | .rasLpopWrite who v => Sys2Proof.Machine.execRasLpopWrite who v s
  | .rasSummaryClear who v => Sys2Proof.Machine.execRasSummaryClear who v s
  | .lifeXreq who v => Sys2Proof.Machine.execLifeXreq who v s
  | .lifeSessOpen who => Sys2Proof.Machine.execLifeSessOpen who s
  | .challengeReady => Sys2Proof.Machine.execChallengeReady s
  | .lifeSessSubmit who v => Sys2Proof.Machine.execLifeSessSubmit who v s
  | .lifeVerifyDone => Sys2Proof.Machine.execLifeVerifyDone s
  | .challengeExpire => Sys2Proof.Machine.execChallengeExpire s
  | .allowanceExhausted => Sys2Proof.Machine.execAllowanceExhausted s
  | .rampLevelStep => Sys2Proof.Machine.execRampLevelStep s
  | .tempHot code => Sys2Proof.Machine.execTempHot code s
  | .tempCrit code => Sys2Proof.Machine.execTempCrit code s
  | .tempCool code => Sys2Proof.Machine.execTempCool code s
  | .pwrStateReq req => Sys2Proof.Machine.execPwrStateReq req s
  | .pwrStateEnter => Sys2Proof.Machine.execPwrStateEnter s
  | .wakeStart => Sys2Proof.Machine.execWakeStart s
  | .pwrRailOkRise rail => Sys2Proof.Machine.execPwrRailOkRise rail s
  | .wakeComplete => Sys2Proof.Machine.execWakeComplete s
  | .railFail rail => Sys2Proof.Machine.execRailFail rail s
  | .tapIdcode => Sys2Proof.Machine.execTapIdcode s
  | .tapSamplePreload => Sys2Proof.Machine.execTapSamplePreload s
  | .tapExtest => Sys2Proof.Machine.execTapExtest s
  | .tapWrap => Sys2Proof.Machine.execTapWrap s
  | .tapBypass => Sys2Proof.Machine.execTapBypass s
  | .wsBypass => Sys2Proof.Machine.execWsBypass s
  | .wsExtest => Sys2Proof.Machine.execWsExtest s
  | .wsIntest => Sys2Proof.Machine.execWsIntest s
  | .dbgHalt => Sys2Proof.Machine.execDbgHalt s
  | .dbgResume => Sys2Proof.Machine.execDbgResume s
  | .dbgStep => Sys2Proof.Machine.execDbgStep s
  | .dbgAccess t => Sys2Proof.Machine.execDbgAccess t s
  | .scan => Sys2Proof.Machine.execScan s
  | .mbist target => Sys2Proof.Machine.execMbist target s
  | .lcStateRead => Sys2Proof.Machine.execLcStateRead s
  | .lcStateWrite v => Sys2Proof.Machine.execLcStateWrite v s
  | .lcSession op => Sys2Proof.Machine.execLcSession op s
  | .undefinedInstruction => Sys2Proof.Machine.execUndefinedInstruction s
  | .pwrThrottle level => Sys2Proof.Machine.execPwrThrottle level s
  | .overtime => Sys2Proof.Machine.execOvertime s
  | .spx1ReqAccept => Sys2Proof.Machine.execSpx1ReqAccept s
  | .bootReqAccept => Sys2Proof.Machine.execBootReqAccept s
  | .goodFlitExpected lane => Sys2Proof.Machine.execGoodFlitExpected lane s

end Sys2Proof.Machine
end

