-- ==== Sys2Proof/Machine/Step.lean ====
section
/-! DEFINITION. One step: the command at the front of the queue; on an empty queue, one cycle of core_clk. -/

namespace Sys2Proof.Machine

/-- DESIGN CHOICE: with nothing commanded, one cycle passes (R201), and what was held is tried again. -/
def State.idle (s : State) : State := s.idleCycle.settleHeld

/-- STEP: the command at the front is taken, the rest of the queue stays. -/
def step (s : State) : Host.Outcome State Fault Refusal :=
  match s.pending with
  | [] => .next s.idle
  | i :: rest => exec i { s with pending := rest }

/-- The state with the command that a word spells at the front of its queue; unchanged where the word spells none. -/
def State.withFetchWord (s : State) (nbits w : Nat) : State :=
  match decodeTableWord nbits w with
  | none => s
  | some i => { s with pending := i :: s.pending }

end Sys2Proof.Machine
end

