-- ==== Sys2Proof/Safety.lean ====
section
/-! DEFINITION. What claims are made of: what software sees of a state, when an instruction issues, the condition that every state
keeps, safe runs. -/

namespace Sys2Proof.Machine

/-- WHAT SOFTWARE SEES of the pipeline and of storage: the register files, the special registers that hold state (R260), the sync
counters, the bytes of the scratchpad, the operand tiles and the accumulator pool. -/
structure Seen where
  g : Vector DWord 32
  f : Vector DWord 32
  ip : DWord
  flags : DWord
  brs : DWord
  bre : DWord
  brc : DWord
  veidx : DWord
  tid : BitVec 16
  frameS : Frame
  frameM : Frame
  vecs : Vector DWord 6
  sync : Vector Word 64
  spx : Memory
  ops : Memory
  pool : Memory
deriving DecidableEq, Repr

def State.seen (s : State) : Seen :=
  { g := s.cpu.g, f := s.cpu.f, ip := s.cpu.ip, flags := s.cpu.flags, brs := s.cpu.brs, bre := s.cpu.bre, brc := s.cpu.brc
    veidx := s.cpu.veidx, tid := s.cpu.tid, frameS := s.cpu.frameS, frameM := s.cpu.frameM, vecs := s.cpu.vecs
    sync := s.sync, spx := s.spx.mem, ops := s.tile.ops, pool := s.tile.pool }

/-- A value of FLAGS with every reserved bit 0 (R260). -/
abbrev flagsOk (v : DWord) : Prop := v &&& ~~~flagsMask = 0#64

/-- THE CONDITION THAT EVERY STATE KEEPS: the three storages in their canonical form, the reserved bits of FLAGS and of both saved
FLAGS 0, every vector register a multiple of 64 (R246, R260). -/
def Seen.ok (v : Seen) : Prop :=
  v.spx.wf ∧ v.ops.wf ∧ v.pool.wf ∧ flagsOk v.flags ∧ flagsOk v.frameS.xflags ∧ flagsOk v.frameM.xflags
    ∧ ∀ n : Fin 6, v.vecs[n] &&& 0x3F#64 = 0#64

/-! ## What instructions do to it -/

/-- G0 reads as 0 (R258). -/
def Seen.readG (v : Seen) (n : Fin 32) : DWord := if n = 0 then 0#64 else v.g[n]
def Seen.readF (v : Seen) (n : Fin 32) : DWord := v.f[n]
/-- G0 discards writes (R258). -/
def Seen.putG (v : Seen) (n : Fin 32) (x : DWord) : Seen := if n = 0 then v else { v with g := v.g.set n x }
def Seen.putF (v : Seen) (n : Fin 32) (x : DWord) : Seen := { v with f := v.f.set n x }
def Seen.putFlags (v : Seen) (x : DWord) : Seen := { v with flags := x }
/-- The condition flags replaced (R266). -/
def Seen.cond (v : Seen) (k : Cond) : Seen := v.putFlags (setCond v.flags k)
/-- The condition flags replaced where X is 1 (R266). -/
def Seen.condIf (v : Seen) (x : Bool) (k : Cond) : Seen := if x then v.cond k else v
/-- Sticky bits added (R261). -/
def Seen.sticky (v : Seen) (x : Sticky) : Seen := v.putFlags (addSticky v.flags x)
/-- A view read (R289). -/
def Seen.view (v : Seen) (wide : Bool) (n : Fin 32) : VView :=
  if wide then v.readF (qHigh n) ++ v.readF (qLow n) else (v.readF n).setWidth 128
/-- A view written (R289). -/
def Seen.putView (v : Seen) (wide : Bool) (n : Fin 32) (x : VView) : Seen :=
  if wide then (v.putF (qLow n) (x.setWidth 64)).putF (qHigh n) (x.extractLsb' 64 64) else v.putF n (x.setWidth 64)
/-- The second source of an integer operation (R265). -/
def Seen.src (v : Seen) : IntSrc → DWord
  | .reg b => v.readG b
  | .imm8 i => i.signExtend 64
  | .imm32 i => i.signExtend 64
/-- Execution goes on at an address: no block-repeat check (R281). -/
def Seen.goTo (v : Seen) (a : DWord) : Seen := { v with ip := a }
/-- Execution goes on in sequence after `len` bytes, with the block-repeat check (R232, R281). -/
def Seen.next (v : Seen) (len : Nat) : Seen :=
  let nxt := v.ip + w64 len
  if v.brc ≠ 0#64 ∧ nxt = v.bre then
    if 1 < v.brc.toNat then { v with brc := v.brc - 1#64, ip := v.brs } else { v with brc := 0#64, ip := v.bre }
  else { v with ip := nxt }
/-- An entry into level M or S (R287): the frame is written, FLAGS and BRC change, IP goes to the vector. -/
def Seen.entered (v : Seen) (toM : Bool) (vec : Fin 6) (cause xaddr ret : DWord) : Seen :=
  let fr : Frame := ⟨ret, v.flags, cause, xaddr, v.brc⟩
  let v := if toM then { v with frameM := fr } else { v with frameS := fr }
  { v with flags := entryFlags v.flags toM, brc := 0#64, ip := v.vecs[vec] }
/-- A sync counter changed by a value modulo 2^32 (R227). -/
def Seen.addSync (v : Seen) (n : Fin 64) (x : Word) : Seen := { v with sync := v.sync.set n (v.sync[n] + x) }
def Seen.putSync (v : Seen) (n : Fin 64) (x : Word) : Seen := { v with sync := v.sync.set n x }

/-- The state in which an instruction of `len` bytes works: as it is once the bytes have been fetched, its tag in use. -/
def State.arrived (s : State) (len : Nat) : State :=
  let t := (s.fetch len).1
  { t with cpu := { t.cpu with issued := true } }

def XOut.there : XOut → Bool
  | .parts _ => true
  | _ => false

/-- AN INSTRUCTION of `len` bytes that names the registers `gs` and `fs` ISSUES: the core runs, no register that it names is busy,
and its bytes are there (R236, R237). -/
abbrev State.issues (s : State) (len : Nat) (gs fs : List (Fin 32)) : Prop :=
  s.canIssue = true ∧ (∀ n ∈ gs, s.gBusy n = false) ∧ (∀ n ∈ fs, s.fBusy n = false) ∧ (s.fetch len).2.there = true

/-- Nothing is held back that goes on as soon as it can: no message, contribution, lost request, answer to an XINV, load in M1, line of a
retired way, access of the debug port. -/
def State.settled (s : State) : Prop :=
  s.net.held = [] ∧ s.net.lost = [] ∧ s.net.xinvs = [] ∧ s.tally.waiting = [] ∧ s.cpu.m1 = [] ∧ s.caches.leaving = [] ∧ s.dbg.miss = none

/-- The same, and no register write waits for the tile engine. -/
def State.quiet (s : State) : Prop := s.settled ∧ s.tile.heldTuse = [] ∧ s.tile.unanswered = []

/-- A COMMAND COMPLETES and leaves what software sees as `v`. -/
def Does (i : Instr) (s : State) (v : Seen) : Prop := ∃ t, exec i s = .next t ∧ t.seen = v

/-- A command completes with a property of the state that it leaves. -/
def Leaves (i : Instr) (s : State) (p : State → Prop) : Prop := ∃ t, exec i s = .next t ∧ p t

/-- What software sees after the synchronous cause `cause` at an instruction of `len` bytes (R286, R287). -/
def State.trapped (s : State) (len cause : Nat) (detail : Word) (xaddr : DWord) : Seen :=
  let toM := (s.arrived len).causeToM cause
  s.seen.entered toM (if toM then 2 else 0) (xcause false s.pl cause detail) xaddr s.cpu.ip

/-- A SAFE RUN of `n` steps: no step of it faults or is refused. -/
def SafeRun (n : Nat) (s : State) : Prop := ∃ t, Sys2Proof.core.run n s = .next t

end Sys2Proof.Machine
end

