-- ==== Sys2Proof/Certificates/Slice0/Obligations.lean ====
section
/-! DEFINITION. The statements for the provers. -/

open Sys2Proof Sys2Proof.Machine

/-! ## The block -/

/-- A step takes the command at the front of the queue and answers what `exec` answers on the rest of the queue. -/
def Obligations.StepRunsTheFrontCommand : Prop :=
  ∀ (s : State) (c : Instr) (rest : List Instr),
    step { s with pending := c :: rest } = exec c { s with pending := rest }

/-- With no command waiting, one cycle of core_clk passes and what was held is tried again: the model's own choice, log entry 7. -/
def Obligations.EmptyQueuePassesOneCycle : Prop :=
  ∀ s : State, s.pending = [] → step s = .next s.idleCycle.settleHeld

/-- NO COMMAND STOPS THE MODEL: every command completes in every state, and every run is a safe run. -/
def Obligations.NoCommandStops : Prop :=
  (∀ (i : Instr) (s : State), Leaves i s fun _ => True) ∧ ∀ (n : Nat) (s : State), SafeRun n s

/-- What the whole reset leaves: nothing of the register map listed, level M, DET and the user-access window off, the bell UNSYNC, the
masks of the tile engine all 1, every sync counter and every G and F register 0, no tile instruction, tag or command waiting. The values of G
and F are the model's (R417 gives them at the release alone). -/
def Obligations.ResetLeavesTheseValues : Prop :=
  (∀ k : Nat, State.reset.reg k = regInit k) ∧ State.reset.cpu.flags = 0x800#64 ∧ State.reset.bell.unsync = true
    ∧ State.reset.bell.tick = 0 ∧ State.reset.sync = Vector.replicate 64 0#32 ∧ State.reset.tile.queue = []
    ∧ State.reset.net.tags = [] ∧ State.reset.pending = [] ∧ State.reset.tile.maskr = 0xFFFFFFFF#32
    ∧ State.reset.tile.maskc = 0xFFFFFFFFFFFFFFFF#64 ∧ State.reset.cpu.g = Vector.replicate 32 0#64
    ∧ State.reset.cpu.f = Vector.replicate 32 0#64

/-- The condition that every step keeps holds after reset. -/
def Obligations.ResetIsInForm : Prop := State.reset.seen.ok

/-- EVERY STEP KEEPS THE FORM: the scratchpad, the operand tiles and the pool stay in canonical form, the reserved bits of FLAGS and of
both saved FLAGS stay 0, and every vector register stays a multiple of 64. -/
def Obligations.EveryStepKeepsTheForm : Prop :=
  ∀ s t : State, s.seen.ok → step s = .next t → t.seen.ok

/-! ## Integer instructions -/

/-- What software sees after an integer operation with result `r`: G[D], FLAGS where X is 1, IP. -/
def Sys2Proof.Machine.Seen.integer (v : Seen) (o : IntArgs) (r : DWord) (k : Cond) : Seen :=
  ((v.putG o.d r).condIf o.x k).next (srcLen o.b)

/-- The fourteen integer operations: with a and b the sources, the result goes to G[D]; where X is 1, ADD and SUB set C to the carry or
borrow and V to the signed overflow, every other operation clears both, Z and N follow the result. Nothing else that software sees
changes, but IP (and BRC at the end of a repeated block). -/
def Sys2Proof.Machine.IntegerOperations : Prop :=
  ∀ (s : State) (o : IntArgs), s.issues (srcLen o.b) (o.d :: o.a :: srcRegs o.b) [] →
    let v := s.seen
    let a := v.readG o.a
    let b := v.src o.b
    let n := b.toNat % 64
    let plain (i : Instr) (r : DWord) : Prop := Does i s (v.integer o r (condLogic r))
    Does (.add o) s (v.integer o (a + b) (condAdd a b)) ∧ Does (.sub o) s (v.integer o (a - b) (condSub a b))
      ∧ plain (.andd o) (a &&& b) ∧ plain (.orr o) (a ||| b) ∧ plain (.xorr o) (a ^^^ b) ∧ plain (.andn o) (a &&& ~~~b)
      ∧ plain (.shl o) (a <<< n) ∧ plain (.shr o) (a >>> n) ∧ plain (.sar o) (a.sshiftRight n)
      ∧ plain (.rol o) (a.rotateLeft n) ∧ plain (.ror o) (a.rotateRight n) ∧ plain (.mul o) (a * b)
      ∧ plain (.mulh o) (BitVec.ofInt 64 (a.toInt * b.toInt / 2 ^ 64))
      ∧ plain (.mulhu o) (BitVec.ofNat 64 (a.toNat * b.toNat / 2 ^ 64))

/-- CMP and TST change the condition flags and IP alone. -/
def Sys2Proof.Machine.ComparesSetFlagsOnly : Prop :=
  ∀ (s : State) (a : GReg) (b : IntSrc), s.issues (srcLen b) (a :: srcRegs b) [] →
    let v := s.seen
    Does (.cmp a b) s ((v.cond (condSub (v.readG a) (v.src b))).next (srcLen b))
      ∧ Does (.tst a b) s ((v.cond (condLogic (v.readG a &&& v.src b))).next (srcLen b))

/-- The fourteen integer operations, CMP and TST. -/
def Obligations.IntegerOperationsAndCompares : Prop :=
  IntegerOperations ∧ ComparesSetFlagsOnly

/-- Moves, constants and LEA write G[D] and leave FLAGS as they were; the factor of LEA's index is 1 where X is 0, and open where X is 1
(the spec gives LEA no access size). -/
def Obligations.MovesWriteOneRegister : Prop :=
  ∀ (s : State) (d a : GReg),
    let v := s.seen
    (s.issues 3 [d, a] [] → Does (.mov d a) s ((v.putG d (v.readG a)).next 3)
        ∧ Does (.movz32 d a) s ((v.putG d (((v.readG a).setWidth 32).setWidth 64)).next 3)
        ∧ Does (.movs32 d a) s ((v.putG d (((v.readG a).setWidth 32).signExtend 64)).next 3))
      ∧ (∀ i : BitVec 16, s.issues 5 [d] [] → Does (.movi16 d i) s ((v.putG d (i.signExtend 64)).next 5))
      ∧ (∀ i : BitVec 32, s.issues 7 [d] [] → Does (.movi32 d i) s ((v.putG d (i.signExtend 64)).next 7))
      ∧ (∀ i : BitVec 64, s.issues 11 [d] [] → Does (.movi64 d i) s ((v.putG d i).next 11))
      ∧ (∀ o : MemArgs, s.issues (memLen o) [o.d, o.b, o.a] [] →
        ∃ m : DWord, (o.x = false → m = 1) ∧
          Does (.lea o) s ((v.putG o.d (v.readG o.b + v.readG o.a * m + dispVal o.disp)).next (memLen o)))

/-- The bit instructions write G[D] alone: parity of the low w bits, reversal of the low w bits, reversal of the low k bits with the rest
kept, the counts of set bits and of leading and trailing zeros. -/
def Sys2Proof.Machine.BitInstructionsWriteOneRegister : Prop :=
  ∀ (s : State) (d a : GReg),
    let v := s.seen
    let x := v.readG a
    (∀ n : Byte, s.issues 5 [d, a] [] → 1 ≤ n.toNat → n.toNat ≤ 64 →
        Does (.parity d a n) s ((v.putG d (parityOf n.toNat x)).next 5)
          ∧ Does (.brevn d a n) s ((v.putG d (brevnOf n.toNat x)).next 5))
      ∧ (∀ n : Byte, s.issues 5 [d, a] [] → n ∈ [8#8, 16#8, 32#8, 64#8] →
        Does (.brev d a n) s ((v.putG d (brevOf n.toNat x)).next 5))
      ∧ (s.issues 4 [d, a] [] → Does (.popc d a) s ((v.putG d (w64 (popLow x 64))).next 4)
        ∧ Does (.clz d a) s ((v.putG d (w64 (clzLow x 64))).next 4)
        ∧ Does (.ctz d a) s ((v.putG d (w64 (ctzFrom x 64))).next 4))

/-- What the bit functions are: POPC counts the set bits, CLZ and CTZ the zeros above and below the outermost set bit, 64 for zero; BREV of
width w moves bit i to bit w - 1 - i and clears the bits above; BREVN keeps the bits from k up; PARITY is 1 where an odd number of the low w
bits is set. -/
def Obligations.BitFunctionsMeanWhatTheyCount : Prop :=
  ∀ x : DWord,
    popLow x 64 = ((List.range 64).filter x.getLsbD).length
      ∧ (let n := clzLow x 64
         n ≤ 64 ∧ (∀ i, 64 - n ≤ i → x.getLsbD i = false) ∧ (n < 64 → x.getLsbD (63 - n) = true))
      ∧ (let n := ctzFrom x 64
         n ≤ 64 ∧ (∀ i, i < n → x.getLsbD i = false) ∧ (n < 64 → x.getLsbD n = true))
      ∧ (∀ w, w ≤ 64 → ∀ i, (brevOf w x).getLsbD i = (decide (i < w) && x.getLsbD (w - 1 - i)))
      ∧ (∀ k, k ≤ 64 → ∀ i, (brevnOf k x).getLsbD i = if i < k then x.getLsbD (k - 1 - i) else x.getLsbD i)
      ∧ (∀ w, w ≤ 64 → parityOf w x = if ((List.range w).filter x.getLsbD).length % 2 = 1 then 1#64 else 0#64)

/-- CRCSTEP puts the CRC of the state in G[D] over the low bytes of G[A], lowest first, into G[D]. -/
def Sys2Proof.Machine.CrcStepWritesTheStep : Prop :=
  ∀ (s : State) (d a : GReg) (c : Byte), s.issues 5 [d, a] [] → c.toNat < 16 →
    let v := s.seen
    let n := 2 ^ (c.toNat / 4 % 4)
    Does (.crcstep d a c) s
      ((v.putG d (crcStep (crcParam (c.toNat % 4) (s.arrived 5).userCrc) (v.readG d) (leBytes (v.readG a).toNat n))).next 5)

/-- The bit instructions and CRCSTEP on registers. -/
def Obligations.BitAndCrcInstructions : Prop :=
  BitInstructionsWriteOneRegister ∧ CrcStepWritesTheStep

/-- A CRC over bytes taken together is the CRC over the first of them followed by the CRC over the rest, and it stays within its width. -/
def Obligations.CrcStepsCompose : Prop :=
  ∀ (k : CrcParam), (k.w = 8 ∨ k.w = 16 ∨ k.w = 32) → ∀ (st : DWord) (xs ys : List Byte),
    (crcStep k st xs).toNat < 2 ^ k.w ∧ crcStep k st (xs ++ ys) = crcStep k (crcStep k st xs) ys

/-- DIV, DIVU, REM and REMU with a divisor that is not zero go to the divide-and-root unit and commit: it will write the result to G[D],
which is busy until then; with the unit free. -/
def Sys2Proof.Machine.DivisionsGoToTheUnit : Prop :=
  ∀ (s : State) (x : Bool) (d a b : GReg), s.issues 3 [d, a, b] [] → (s.arrived 3).cpu.div = none →
    divByZero x (s.seen.readG b) = false →
    let job (i : Instr) (op : DivOp) : Prop := Leaves i s fun t =>
      t.seen = s.seen.next 3 ∧ t.cpu.div = some ⟨false, d, divResult op x (s.seen.readG a) (s.seen.readG b), 0⟩
    job (.div x d a b) .div ∧ job (.divu x d a b) .divu ∧ job (.rem x d a b) .rem ∧ job (.remu x d a b) .remu

/-- A division whose divisor is zero raises DIVIDE at its own IP, and nothing is written. -/
def Sys2Proof.Machine.DivisionByZeroTraps : Prop :=
  ∀ (s : State) (x : Bool) (d a b : GReg), s.issues 3 [d, a, b] [] → (s.arrived 3).cpu.div = none →
    divByZero x (s.seen.readG b) = true →
    let v := s.trapped 3 cDIVIDE 0#32 0#64
    Does (.div x d a b) s v ∧ Does (.divu x d a b) s v ∧ Does (.rem x d a b) s v ∧ Does (.remu x d a b) s v

/-- The unit's result is written to its register, with its sticky flags, and nothing else that software sees changes. -/
def Sys2Proof.Machine.DivideUnitWritesItsResult : Prop :=
  ∀ (s : State) (j : DivJob), s.cpu.div = some j → Leaves .divideComplete s fun t =>
    t.cpu.div = none ∧ t.seen = if j.fp then (s.seen.sticky j.sticky).putF j.dest j.val else (s.seen.sticky j.sticky).putG j.dest j.val

/-- What the results of divisions are (R269): at 64 bits, and with X = 1 at the low 32 bits of both operands, extended by sign for DIV and REM and by zero for
DIVU and REMU: the quotient rounded toward zero, the remainder with the dividend's sign; the most negative value by -1 gives itself, remainder 0. -/
def Sys2Proof.Machine.DivisionRoundsTowardZero : Prop :=
  ∀ (a b : DWord) (p q : Word), b ≠ 0#64 → q ≠ 0#32 →
    let most : Prop := a = 0x8000000000000000#64 ∧ b = 0xFFFFFFFFFFFFFFFF#64
    let mostW : Prop := p = 0x80000000#32 ∧ q = 0xFFFFFFFF#32
    (¬ most → (divResult .div false a b).toInt = a.toInt.tdiv b.toInt ∧ (divResult .rem false a b).toInt = a.toInt.tmod b.toInt)
      ∧ (most → divResult .div false a b = a ∧ divResult .rem false a b = 0#64)
      ∧ (divResult .divu false a b).toNat = a.toNat / b.toNat ∧ (divResult .remu false a b).toNat = a.toNat % b.toNat
      ∧ (∀ hi lo : Word,
        let a' : DWord := hi ++ p
        let b' : DWord := lo ++ q
        (¬ mostW → (divResult .div true a' b').toInt = p.toInt.tdiv q.toInt ∧ (divResult .rem true a' b').toInt = p.toInt.tmod q.toInt)
          ∧ (mostW → divResult .div true a' b' = p.signExtend 64 ∧ divResult .rem true a' b' = 0#64)
          ∧ (divResult .divu true a' b').toNat = p.toNat / q.toNat ∧ (divResult .remu true a' b').toNat = p.toNat % q.toNat)

/-- The integer divisions: they go to the divide-and-root unit, or trap on a divisor of zero, the unit writes its result, and the result is the rule of R269. -/
def Obligations.Divisions : Prop :=
  DivisionsGoToTheUnit ∧ DivisionByZeroTraps ∧ DivideUnitWritesItsResult ∧ DivisionRoundsTowardZero

/-- Quotient and remainder belong together: dividend = quotient × divisor + remainder modulo 2^64, the remainder is smaller than the divisor
in magnitude and takes the dividend's sign; the unsigned forms likewise. -/
def Obligations.QuotientAndRemainderBelongTogether : Prop :=
  ∀ a b : DWord, b ≠ 0#64 →
    divResult .divu false a b * b + divResult .remu false a b = a ∧ (divResult .remu false a b).toNat < b.toNat
      ∧ divResult .div false a b * b + divResult .rem false a b = a
      ∧ (divResult .rem false a b).toInt.natAbs < b.toInt.natAbs
      ∧ ((divResult .rem false a b).toInt ≠ 0 → ((divResult .rem false a b).toInt < 0 ↔ a.toInt < 0))

/-! ## Branches -/

/-- Branches, jumps, calls and NOP: a taken one goes to its target with no block-repeat check, CALL and CALLR leave the address behind them in
G31 (CALLR reads its target first), a branch that is not taken and NOP go on in sequence. -/
def Obligations.BranchesAndCallsGoWhereTheySay : Prop :=
  ∀ s : State,
    let v := s.seen
    (∀ (cc : Fin 15) (t : BranchDisp), s.issues (branchLen t) [] [] →
        Does (.bCc cc t) s (if condHolds cc.castSucc v.flags then v.goTo (v.ip + branchVal t) else v.next (branchLen t)))
      ∧ (∀ a : GReg, s.issues 3 [a] [] → Does (.jmp a) s (v.goTo (v.readG a)))
      ∧ (∀ d : BitVec 32, s.issues 5 [31] [] → Does (.call d) s ((v.putG 31 (v.ip + 5)).goTo (v.ip + d.signExtend 64)))
      ∧ (∀ a : GReg, s.issues 3 [a, 31] [] → Does (.callr a) s ((v.putG 31 (v.ip + 3)).goTo (v.readG a)))
      ∧ (s.issues 1 [31] [] → Does .ret s (v.goTo (v.readG 31)))
      ∧ (s.issues 1 [] [] → Does .nop s (v.next 1))

/-- BRPT sets BRS to the address behind it, BRE to the end of the block and BRC to G[A]; a count of 0 skips the block; a length of 0 raises UNDEF. -/
def Obligations.BlockRepeatBegins : Prop :=
  ∀ (s : State) (a : GReg) (len : BitVec 16), s.issues 5 [a] [] →
    let v := s.seen
    let bgn := v.ip + 5
    let fin := bgn + len.setWidth 64
    (len ≠ 0#16 → Does (.brpt a len) s { v with brs := bgn, bre := fin, brc := v.readG a, ip := if v.readG a = 0#64 then fin else bgn })
      ∧ (len = 0#16 → Does (.brpt a len) s (s.trapped 5 cUNDEF 0#32 0#64))

/-! ## Scalar floating point -/

/-- What software sees after F[D] is written with a result and its exceptions. -/
def Sys2Proof.Machine.Seen.float (v : Seen) (len : Nat) (d : FReg) (r : DWord × Sticky) : Seen :=
  ((v.putF d r.1).sticky r.2).next len

/-- FADD, FSUB, FMUL, FMIN, FMAX and FMA at the precision of X: F[D] and the sticky flags that arise; FCMP: Z equal, N less, V unordered,
C 0, and INV for a signalling NaN. -/
def Obligations.FloatArithmetic : Prop :=
  ∀ (s : State) (x : Bool) (d a b : FReg),
    let v := s.seen
    let p := Prec.ofX x
    let fa := v.readF a
    let fb := v.readF b
    (s.issues 3 [] [d, a, b] →
        Does (.fadd x d a b) s (v.float 3 d (fpBin FVal.add p fa fb)) ∧ Does (.fsub x d a b) s (v.float 3 d (fpBin FVal.sub p fa fb))
          ∧ Does (.fmul x d a b) s (v.float 3 d (fpBin FVal.mul p fa fb)) ∧ Does (.fmin x d a b) s (v.float 3 d (fpSel fvMin p fa fb))
          ∧ Does (.fmax x d a b) s (v.float 3 d (fpSel fvMax p fa fb))
          ∧ Does (.fma x d a b) s (v.float 3 d (fpFma p (v.readF d) fa fb)))
      ∧ (s.issues 3 [] [a, b] →
        Does (.fcmp x a b) s (((v.cond (condFcmp (fpRead p fa) (fpRead p fb))).sticky
          (if fpSnan p fa || fpSnan p fb then stINV else 0)).next 3))

/-- FNEG and FABS change the sign bit alone and FMOV copies, with no exception; a binary32 form clears bits [63:32]; MOVFG and MOVGF move
bits between the files. -/
def Sys2Proof.Machine.FloatMoves : Prop :=
  ∀ (s : State) (x : Bool) (n m : Fin 32),
    let v := s.seen
    let bits (y : DWord) : DWord := if x then y else (y.setWidth 32).setWidth 64
    let sign : DWord := if x then 0x8000000000000000#64 else 0x80000000#64
    (s.issues 3 [] [n, m] →
        Does (.fneg x n m) s ((v.putF n (bits (v.readF m) ^^^ sign)).next 3)
          ∧ Does (.fabs x n m) s ((v.putF n (bits (v.readF m) &&& ~~~sign)).next 3)
          ∧ Does (.fmov x n m) s ((v.putF n (bits (v.readF m))).next 3))
      ∧ (s.issues 3 [n] [m] → Does (.movfg x n m) s ((v.putG n (bits (v.readF m))).next 3))
      ∧ (s.issues 3 [m] [n] → Does (.movgf x n m) s ((v.putF n (bits (v.readG m))).next 3))

/-- The conversions round to nearest-even, or toward zero under TZ: FCVT between the precisions, FCVTI to a signed 64-bit integer, ICVTF from
one. -/
def Sys2Proof.Machine.FloatConversions : Prop :=
  ∀ (s : State) (tz x : Bool) (n m : Fin 32),
    let v := s.seen
    let len := if tz then 4 else 3
    let r : Rnd := if tz then .tz else .rne
    let p := Prec.ofX x
    (s.issues len [] [n, m] → Does (.fcvt tz x n m) s (v.float len n (fpCvt (Prec.ofX !x) r (v.readF m))))
      ∧ (s.issues len [n] [m] →
        let q := fvToInt 64 stINV r (fpRead p (v.readF m))
        Does (.fcvti tz x n m) s (((v.putG n q.1).sticky q.2).next len))
      ∧ (s.issues len [m] [n] → Does (.icvtf tz x n m) s (v.float len n (fpWrite p r (FVal.ofInt (v.readG m).toInt))))

/-- The scalar floating-point moves and conversions. -/
def Obligations.FloatMovesAndConversions : Prop :=
  FloatMoves ∧ FloatConversions

/-- FDIV and FSQRT go to the divide-and-root unit, with the unit free: it will write F[D], busy until then. -/
def Obligations.FloatDivisionsGoToTheUnit : Prop :=
  ∀ (s : State) (x : Bool) (d a b : FReg), (s.arrived 3).cpu.div = none →
    let v := s.seen
    let p := Prec.ofX x
    (s.issues 3 [] [d, a, b] → Leaves (.fdiv x d a b) s fun t =>
        let r := fpDiv p (v.readF a) (v.readF b)
        t.seen = v.next 3 ∧ t.cpu.div = some ⟨true, d, r.1, r.2⟩)
      ∧ (s.issues 3 [] [d, a] → Leaves (.fsqrt x d a) s fun t =>
        let r := fpSqrt p (v.readF a)
        t.seen = v.next 3 ∧ t.cpu.div = some ⟨true, d, r.1, r.2⟩)

/-- FCVTI and VCVTFI clamp: a NaN gives 0 and an out-of-range value the nearer end of the range, both with the flags `bad` of the form
(FCVTI: INV; VCVTFI: INV and INX); an integer in range is exact and sets nothing. -/
def Obligations.ConversionToIntegerClamps : Prop :=
  ∀ (bad : Sticky) (r : Rnd) (neg : Bool) (m : Nat) (e : Int),
    fvToInt 64 bad r .nan = (0#64, bad)
      ∧ fvToInt 64 bad r (.inf neg) = (if neg then 0x8000000000000000#64 else 0x7FFFFFFFFFFFFFFF#64, bad)
      ∧ ((e : Int) ≥ 0 → (m : Int) * 2 ^ e.toNat < 2 ^ 63 →
          fvToInt 64 bad r (.num neg m e) = (BitVec.ofInt 64 ((if neg then -1 else 1) * (m * 2 ^ e.toNat)), 0))
      ∧ ((e : Int) ≥ 0 → (m : Int) * 2 ^ e.toNat > 2 ^ 63 →
          fvToInt 64 bad r (.num neg m e) = (if neg then 0x8000000000000000#64 else 0x7FFFFFFFFFFFFFFF#64, bad))

/-! ## Vectors -/

/-- A vector instruction of `len` bytes and the views given issues, each view being defined: with WIDE it is one of Q0 to Q15 (R291). -/
def Sys2Proof.Machine.State.vissues (s : State) (len : Nat) (gs : List (Fin 32)) (views : List (Bool × FReg)) : Prop :=
  (∀ x ∈ views, viewOk x.1 x.2 = true) ∧ s.issues len gs (views.flatMap fun x => viewList x.1 x.2)

/-- What software sees after a view is written with a result and its exceptions. -/
def Sys2Proof.Machine.Seen.vector (v : Seen) (len : Nat) (wide : Bool) (d : FReg) (r : VView × Sticky) : Seen :=
  ((v.putView wide d r.1).sticky r.2).next len

/-- The same without exceptions: FLAGS stays as it was. -/
def Sys2Proof.Machine.Seen.packed (v : Seen) (len : Nat) (wide : Bool) (d : FReg) (r : VView) : Seen :=
  (v.putView wide d r).next len

/-- The element-wise integer operations of two sources, FLAGS untouched: sums, differences and products modulo 2^w, the lesser and the
greater, the masks of comparisons, shifts by the count modulo w; where the row has both, X = 1 reads unsigned, and X = 1 of VSHR is
arithmetic. -/
def Obligations.VectorIntegerOperations : Prop :=
  ∀ (s : State) (wide x : Bool) (sz : Fin 4) (d b a : FReg), s.vissues (vLen 4 wide) [] [(wide, d), (wide, b), (wide, a)] →
    let w := vWidth sz
    let gives (i : Instr) (f : Nat → Nat → Nat) : Prop :=
      Does i s (s.seen.packed (vLen 4 wide) wide d (vMap2 (viewBits wide) w f (s.seen.view wide a) (s.seen.view wide b)))
    gives (.vadd wide sz d b a) (fun p q => elNat w ((p : Int) + q)) ∧ gives (.vsub wide sz d b a) (fun p q => elNat w ((p : Int) - q))
      ∧ gives (.vmul wide sz d b a) (fun p q => elNat w ((p : Int) * q))
      ∧ gives (.vmin wide x sz d b a) (fun p q => if elInt w x q < elInt w x p then q else p)
      ∧ gives (.vmax wide x sz d b a) (fun p q => if elInt w x p < elInt w x q then q else p)
      ∧ gives (.vcmpeq wide sz d b a) (fun p q => elMask w (p == q))
      ∧ gives (.vcmpgt wide x sz d b a) (fun p q => elMask w (decide (elInt w x q < elInt w x p)))
      ∧ gives (.vshl wide sz d b a) (fun p q => p * 2 ^ (q % w) % 2 ^ w)
      ∧ gives (.vshr wide x sz d b a) (fun p q => elNat w (elInt w (!x) p / 2 ^ (q % w)))

/-- The shifts by an immediate below the width, VDUP, VINS and VEXT with an element number below the number of elements. -/
def Sys2Proof.Machine.VectorElementMoves : Prop :=
  ∀ (s : State) (wide x : Bool) (sz : Fin 4) (d a : Fin 32) (n : Byte),
    let w := vWidth sz
    let v := s.seen
    let each (f : Nat → Nat) : Seen := v.packed (vLen 5 wide) wide d (vMap1 (viewBits wide) w f (v.view wide a))
    (s.vissues (vLen 5 wide) [] [(wide, d), (wide, a)] → n.toNat < w →
        Does (.vshli wide sz d a n) s (each fun p => p * 2 ^ n.toNat % 2 ^ w)
          ∧ Does (.vshri wide x sz d a n) s (each fun p => elNat w (elInt w (!x) p / 2 ^ n.toNat)))
      ∧ (s.vissues (vLen 4 wide) [a] [(wide, d)] →
        Does (.vdup wide sz d a) s
          (v.packed (vLen 4 wide) wide d (vOf w (List.replicate (viewBits wide / w) ((v.readG a).toNat % 2 ^ w)))))
      ∧ (s.vissues (vLen 5 wide) [a] [(wide, d)] → n.toNat < viewBits wide / w →
        Does (.vins wide sz d a n) s (v.packed (vLen 5 wide) wide d (setElem w n.toNat (v.view wide d) (v.readG a).toNat)))
      ∧ (s.vissues (vLen 5 wide) [d] [(wide, a)] → n.toNat < viewBits wide / w →
        Does (.vext wide x sz d a n) s
          ((v.putG d (BitVec.ofInt 64 (elInt w (!x) ((v.view wide a).toNat / 2 ^ (w * n.toNat) % 2 ^ w)))).next (vLen 5 wide)))

/-- The bit operations copy and combine whole views; FLAGS stays as it was. -/
def Sys2Proof.Machine.VectorBitOperations : Prop :=
  ∀ (s : State) (wide : Bool) (d b a : FReg),
    let v := s.seen
    let va := v.view wide a
    let vb := v.view wide b
    let vd := v.view wide d
    let out (r : VView) : Seen := v.packed (vLen 4 wide) wide d r
    (s.vissues (vLen 4 wide) [] [(wide, d), (wide, b), (wide, a)] →
        Does (.vand wide d b a) s (out (va &&& vb)) ∧ Does (.vor wide d b a) s (out (va ||| vb))
          ∧ Does (.vxor wide d b a) s (out (va ^^^ vb)) ∧ Does (.vandn wide d b a) s (out (va &&& ~~~vb))
          ∧ Does (.vbsl wide d b a) s (out ((vd &&& va) ||| (~~~vd &&& vb))))
      ∧ (s.vissues (vLen 4 wide) [] [(wide, d), (wide, a)] → Does (.vmov wide d a) s (out va))

/-- The immediate shifts, element moves and bit operations of the vector unit. -/
def Obligations.VectorElementsAndBits : Prop :=
  VectorElementMoves ∧ VectorBitOperations

/-- The saturating fixed-point operations, FLAGS untouched: every intermediate value is exact, and the result is held at the nearer end of the
range that X selects. -/
def Obligations.VectorFixedPoint : Prop :=
  ∀ (s : State) (wide x : Bool) (sz : Fin 4) (d b a : FReg) (n : Byte),
    let w := vWidth sz
    let v := s.seen
    let two (f : Nat → Nat → Nat) : Seen := v.packed (vLen 4 wide) wide d (vMap2 (viewBits wide) w f (v.view wide a) (v.view wide b))
    let one (len : Nat) (f : Nat → Nat) : Seen := v.packed len wide d (vMap1 (viewBits wide) w f (v.view wide a))
    (s.vissues (vLen 4 wide) [] [(wide, d), (wide, b), (wide, a)] →
        Does (.vadds wide x sz d b a) s (two fun p q => elSat w x (elInt w x p + elInt w x q))
          ∧ Does (.vsubs wide x sz d b a) s (two fun p q => elSat w x (elInt w x p - elInt w x q))
          ∧ (sz = 1 ∨ sz = 2 → Does (.vmulfx wide x sz d b a) s (two fun p q =>
              elSat w false ((2 * elInt w false p * elInt w false q + if x then 2 ^ (w - 1) else 0) / 2 ^ w))))
      ∧ (s.vissues (vLen 4 wide) [] [(wide, d), (wide, a)] →
        Does (.vabss wide sz d a) s (one (vLen 4 wide) fun p => elSat w false |elInt w false p|)
          ∧ Does (.vnegs wide sz d a) s (one (vLen 4 wide) fun p => elSat w false (-elInt w false p)))
      ∧ (s.vissues (vLen 5 wide) [] [(wide, d), (wide, a)] → 1 ≤ n.toNat → n.toNat ≤ w →
        Does (.vshrr wide x sz d a n) s
          (one (vLen 5 wide) fun p => elNat w ((elInt w x p + 2 ^ (n.toNat - 1)) / 2 ^ n.toNat)))
      ∧ (s.vissues (vLen 5 wide) [] [(wide, d), (wide, a)] → n.toNat < w →
        Does (.vshls wide x sz d a n) s (one (vLen 5 wide) fun p => elSat w x (elInt w x p * 2 ^ n.toNat)))

/-- Narrowing takes the signed elements of a Q view, of twice the width, to a saturated D view, rounded half up where there is a shift;
widening takes the elements of a D view to a Q view. -/
def Sys2Proof.Machine.VectorNarrowsAndWidens : Prop :=
  ∀ (s : State) (x : Bool) (sz : Fin 4) (d a : FReg) (n : Byte), sz ≠ 3 →
    let w := vWidth sz
    let v := s.seen
    let wideElems := vElems 128 (2 * w) (v.view true a)
    (s.vissues 4 [] [(false, d), (true, a)] →
        Does (.vnars x sz d a) s (v.packed 4 false d (vOf w (wideElems.map fun e => elSat w x (elInt (2 * w) false e)))))
      ∧ (s.vissues 5 [] [(false, d), (true, a)] → 1 ≤ n.toNat → n.toNat ≤ w →
        Does (.vnarrs x sz d a n) s (v.packed 5 false d (vOf w (wideElems.map fun e =>
          elSat w x ((elInt (2 * w) false e + 2 ^ (n.toNat - 1)) / 2 ^ n.toNat)))))
      ∧ (s.vissues 4 [] [(true, d), (false, a)] →
        Does (.vwiden x sz d a) s (v.packed 4 true d (vOf (2 * w) ((vElems 64 w (v.view false a)).map fun e =>
          elNat (2 * w) (elInt w x e)))))

/-- The vector floating-point operations at sizes 2 and 3, binary32 and binary64: each element as the scalar instruction, the sticky flags the
union over the elements; comparisons give masks; VFNEG and VFABS change sign bits and no flag. -/
def Obligations.VectorFloat : Prop :=
  ∀ (s : State) (wide : Bool) (sz : Fin 4) (d b a : FReg), 2 ≤ sz.val →
    let w := vWidth sz
    let p := vPrec sz
    let v := s.seen
    let va := v.view wide a
    let vb := v.view wide b
    let two (f : DWord → DWord → DWord × Sticky) : Seen := v.vector (vLen 4 wide) wide d (vfMap2 (viewBits wide) sz f va vb)
    let cmp (sig : Bool) (test : Ordering → Bool) : Seen := v.vector (vLen 4 wide) wide d
      (vCollect w ((vElems (viewBits wide) w va).zipWith (vfCmp w p sig test) (vElems (viewBits wide) w vb)))
    let one (f : Nat → Nat) : Seen := v.packed (vLen 4 wide) wide d (vMap1 (viewBits wide) w f va)
    (s.vissues (vLen 4 wide) [] [(wide, d), (wide, b), (wide, a)] →
        Does (.vfadd wide sz d b a) s (two (fpBin FVal.add p)) ∧ Does (.vfsub wide sz d b a) s (two (fpBin FVal.sub p))
          ∧ Does (.vfmul wide sz d b a) s (two (fpBin FVal.mul p)) ∧ Does (.vfmin wide sz d b a) s (two (fpSel fvMin p))
          ∧ Does (.vfmax wide sz d b a) s (two (fpSel fvMax p))
          ∧ Does (.vfma wide sz d b a) s (v.vector (vLen 4 wide) wide d
              (let es (x : VView) : List DWord := (vElems (viewBits wide) w x).map w64
               vCollect w (((es (v.view wide d)).zip ((es va).zip (es vb))).map fun x =>
                 ((fpFma p x.1 x.2.1 x.2.2).1.toNat, (fpFma p x.1 x.2.1 x.2.2).2))))
          ∧ Does (.vfcmpeq wide sz d b a) s (cmp false (· == .eq)) ∧ Does (.vfcmplt wide sz d b a) s (cmp true (· == .lt))
          ∧ Does (.vfcmple wide sz d b a) s (cmp true (· != .gt)))
      ∧ (s.vissues (vLen 4 wide) [] [(wide, d), (wide, a)] →
        Does (.vfneg wide sz d a) s (one fun e => e ^^^ 2 ^ (w - 1)) ∧ Does (.vfabs wide sz d a) s (one fun e => e % 2 ^ (w - 1)))

/-- The vector conversions round once, to nearest-even or toward zero under TZ: between integers and floating point of one size, between the
precisions, and to and from PF16 and PF8. -/
def Sys2Proof.Machine.VectorConversions : Prop :=
  ∀ (s : State) (tz wide x : Bool) (sz : Fin 4) (d b a : FReg),
    let w := vWidth sz
    let p := vPrec sz
    let v := s.seen
    let r : Rnd := if tz then .tz else .rne
    let len := if tz then 5 else 4
    let narrow (i : Instr) (z : VView × Sticky) : Prop :=
      s.vissues len [] [(false, d), (true, a)] → Does i s (v.vector len false d z)
    let widen (i : Instr) (z : VView × Sticky) : Prop :=
      s.vissues 4 [] [(true, d), (false, a)] → Does i s (v.vector 4 true d z)
    (2 ≤ sz.val → s.vissues (vLen 4 wide) [] [(wide, d), (wide, a)] →
        Does (.vcvtif wide sz d a) s (v.vector (vLen 4 wide) wide d (vfMap1 (viewBits wide) w w (fun e =>
          let z := fpWrite p .rne (FVal.ofInt (elInt w false e)); (z.1.toNat, z.2)) (v.view wide a))))
      ∧ (2 ≤ sz.val → s.vissues (vLen len wide) [] [(wide, d), (wide, a)] →
        Does (.vcvtfi tz wide sz d a) s (v.vector (vLen len wide) wide d (vfMap1 (viewBits wide) w w (fun e =>
          let z := fvToInt w (stINV ||| stINX) r (fpRead p (w64 e)); (z.1.toNat, z.2)) (v.view wide a))))
      ∧ widen (.vfwiden d a) (vfMap1 64 32 64 (fun e => cvtElem (to64 .rne) (dec32 (w32 e))) (v.view false a))
      ∧ narrow (.vfnarrow tz d a) (vfMap1 128 64 32 (fun e => cvtElem (to32 r) (dec64 (w64 e))) (v.view true a))
      ∧ narrow (.vcvth tz d a) (vfMap1 128 32 16 (fun e => cvtElem (toPF16 r) (dec32 (w32 e))) (v.view true a))
      ∧ widen (.vcvthf d a) (vfMap1 64 16 32 (fun e => cvtElem (to32 .rne) (decPF16 (BitVec.ofNat 16 e))) (v.view false a))
      ∧ (s.vissues len [] [(false, d), (true, b), (true, a)] →
        Does (.vcvtb tz d b a) s (v.vector len false d (vCollect 8
          ((vElems 128 32 (v.view true a) ++ vElems 128 32 (v.view true b)).map fun e => cvtElem (toPF8 r) (dec32 (w32 e))))))
      ∧ widen (.vcvtbf x d a) (vCollect 32 ((((vElems 64 8 (v.view false a)).drop (if x then 4 else 0)).take 4).map fun e =>
          cvtElem (to32 .rne) (decPF8 (BitVec.ofNat 8 e))))

/-- The vector instructions that change element widths or number formats. -/
def Obligations.VectorNarrowingAndConversions : Prop :=
  VectorNarrowsAndWidens ∧ VectorConversions

/-- AN UNDEFINED INSTRUCTION raises UNDEF at its own IP with DETAIL and XADDR 0, and so do the forms that these rows leave undefined: a Q view
above Q15, a floating-point operation of size 0 or 1, a shift count, an element number or a bit count out of range. -/
def Obligations.UndefinedFormsRaiseUndef : Prop :=
  ∀ (s : State) (wide : Bool) (sz : Fin 4) (d b a : FReg) (g h : GReg) (n : Byte),
    let trap (i : Instr) (len : Nat) (gs : List (Fin 32)) : Prop :=
      s.issues len gs [] → Does i s (s.trapped len cUNDEF 0#32 0#64)
    trap .undefinedInstruction 1 []
      ∧ (16 ≤ d.val ∨ 16 ≤ b.val ∨ 16 ≤ a.val → trap (.vadd true sz d b a) 5 [] ∧ trap (.vbsl true d b a) 5 [])
      ∧ (sz.val < 2 → trap (.vfadd wide sz d b a) (vLen 4 wide) [] ∧ trap (.vfneg wide sz d a) (vLen 4 wide) [])
      ∧ (vWidth sz ≤ n.toNat → trap (.vshli wide sz d a n) (vLen 5 wide) [])
      ∧ (viewBits wide / vWidth sz ≤ n.toNat → trap (.vins wide sz d g n) (vLen 5 wide) [])
      ∧ (n.toNat = 0 ∨ 64 < n.toNat → trap (.parity g h n) 5 [g, h])
      ∧ (16 ≤ n.toNat → trap (.crcstep g h n) 5 [g, h])

/-! ## Loads and stores -/

/-- The address of a scalar load or store: base + index × m + displacement, m the access size where X is 1 (R267). -/
def Sys2Proof.Machine.Seen.address (v : Seen) (o : MemArgs) (size : Nat) : DWord :=
  v.readG o.b + v.readG o.a * w64 (if o.x then size else 1) + dispVal o.disp

/-- The access of a scalar load (kind 0) or store (kind 1) of `size` bytes. -/
def Sys2Proof.Machine.Seen.scalar (v : Seen) (o : MemArgs) (kind size : Nat) (std : Bool) : Acc :=
  ⟨v.address o size, size, kind, .v, std, o.chk.tlb, false, false, false⟩

/-- The access of VLD (kind 0) or VST (kind 1). -/
def Sys2Proof.Machine.Seen.vectorAcc (v : Seen) (o : VMemArgs) (wide : Bool) (kind : Nat) : Acc :=
  let n := if wide then 16 else 8
  ⟨v.readG o.b + v.readG o.a * w64 (if o.x then n else 1) + o.disp.signExtend 64, n, kind, .v, false, o.chk.tlb, false, false, false⟩

/-- The access of element `k` of a gather (kind 0) or scatter (kind 1): base plus the signed index times 2^sh. -/
def Sys2Proof.Machine.Seen.elementAcc (v : Seen) (wide : Bool) (sz : Fin 4) (b : GReg) (a : FReg) (sh : Byte) (chk : ArrayCheck)
    (kind k : Nat) : Acc :=
  let w := vWidth sz
  let x := elInt w false ((vElems (viewBits wide) w (v.view wide a)).getD k 0)
  ⟨v.readG b + BitVec.ofInt 64 (x * 2 ^ sh.toNat), w / 8, kind, .v, false, chk.tlb, false, false, true⟩

/-- An access goes through at TR: it is translated to the parts given without a fault, and neither a tile instruction nor the store buffer nor
a deferred trap holds it. -/
def Sys2Proof.Machine.State.admits (s : State) (a : Acc) (store : Bool) (ps : List Part) : Prop :=
  let u := (s.access a).1
  (s.access a).2 = .parts ps ∧ u.tileHolds ps store = [] ∧ (u.trapMine && u.waitedForTrap) = false ∧ u.sbBlocks ps = false

/-- A load commits, M1 holding no older one, leaves what software sees as `v`, and waits for its bytes: its job stands last in the list, for the
destination given. Where it has to wait for device accesses its part stands in M1; else one read of the scratchpad is queued for each unit that
the part touches, in the unit's class and with its codes. -/
def Sys2Proof.Machine.Awaits (i : Instr) (s u : State) (v : Seen) (d : LoadDest) (p : Part) (off : Nat) (wt : List Bool) : Prop :=
  Leaves i s fun t => t.seen = v ∧ ∃ job rs, t.cpu.loads = u.cpu.loads ++ [job] ∧ job.dest = d ∧ job.missing = p.len
    ∧ t.spx.reads = u.spx.reads ++ rs ∧ (∀ r ∈ rs, r.piece.job = job.id ∧ r.data = u.unitData r.unit ∧ r.mark = u.mark r.unit)
    ∧ if (p.device && u.cpu.sb.any fun e => olderTag e.tag u.cpu.ptag && e.kind.hasDevice) || (p.strict && u.deviceOut) then
        rs = [] ∧ t.cpu.m1.map (·.part) = [p]
      else t.cpu.m1 = [] ∧ rs.map (·.weight) = wt ∧ rs.map (·.unit) = (List.range wt.length).map (off / 32 + ·)

/-- Every scalar load of the own scratchpad, the build having the Spec 2 scratchpad: it commits at once, and its destination register waits for the
bytes of its units (a G register for the integer forms, signed or not, an F register for LDF and LDFS). -/
def Sys2Proof.Machine.ScalarLoadsReadTheScratchpad : Prop :=
  ∀ (s : State) (o : MemArgs) (p : Part) (off : Nat) (wt : List Bool), p.tgt = .spx off wt →
    let s1 := s.arrived (memLen o)
    let v := s.seen
    let awaits (i : Instr) (gs fs : List (Fin 32)) (size : Nat) (d : LoadDest) : Prop :=
      let a := v.scalar o 0 size false
      let u := (s1.access a).1
      s.issues (memLen o) gs fs → s1.admits a false [p] → u.build.s2 = true → u.cpu.m1 = [] →
        Awaits i s u (v.next (memLen o)) d p off wt
    let g := [o.d, o.b, o.a]
    awaits (.ldb o) g [] 1 (.g o.d false) ∧ awaits (.ldbs o) g [] 1 (.g o.d true) ∧ awaits (.ldh o) g [] 2 (.g o.d false)
      ∧ awaits (.ldhs o) g [] 2 (.g o.d true) ∧ awaits (.ldw o) g [] 4 (.g o.d false) ∧ awaits (.ldws o) g [] 4 (.g o.d true)
      ∧ awaits (.ldd o) g [] 8 (.g o.d false) ∧ awaits (.ldf o) [o.b, o.a] [o.d] 8 (.f o.d)
      ∧ awaits (.ldfs o) [o.b, o.a] [o.d] 4 (.f o.d)

/-- VLD and one element of VGATHER from the own scratchpad: VLD reads its whole view as one access; VGATHER reads the element that VEIDX names,
moves VEIDX on, and goes on in sequence, VEIDX 0 again, after its last element. -/
def Sys2Proof.Machine.VectorLoadsReadTheScratchpad : Prop :=
  ∀ (s : State) (wide : Bool) (p : Part) (off : Nat) (wt : List Bool), p.tgt = .spx off wt →
    let v := s.seen
    (∀ o : VMemArgs,
        let len := if wide then 7 else 6
        let a := v.vectorAcc o wide 0
        let u := ((s.arrived len).access a).1
        s.vissues len [o.b, o.a] [(wide, o.d)] → (s.arrived len).admits a false [p] → u.build.s2 = true →
          u.cpu.m1 = [] → Awaits (.vld wide o) s u (v.next len) (.v wide o.d) p off wt)
      ∧ ∀ (sz : Fin 4) (d : FReg) (b : GReg) (a : FReg) (sh : Byte) (chk : ArrayCheck),
        let len := if wide then 6 else 5
        let k := v.veidx.toNat
        let n := viewBits wide / vWidth sz
        let c := v.elementAcc wide sz b a sh chk 0 k
        let u := ((s.arrived len).access c).1
        s.vissues len [b] [(wide, a)] → viewOk wide d = true → sh.toNat ≤ 3 → (∀ x ∈ viewRegs wide d, x ∉ viewRegs wide a) →
          (s.arrived len).gatherBusy wide d = false → k < n → (s.arrived len).admits c false [p] → u.build.s2 = true →
          u.cpu.m1 = [] →
          Awaits (.vgather wide sz d b a sh chk) s u
            (if k + 1 < n then { v with veidx := w64 (k + 1) } else Seen.next { v with veidx := 0#64 } len)
            (.el wide d (vWidth sz) k) p off wt

/-- The scalar and vector loads from the own scratchpad. -/
def Obligations.LoadsReadTheScratchpad : Prop :=
  ScalarLoadsReadTheScratchpad ∧ VectorLoadsReadTheScratchpad

/-- What software sees once a load's bytes are in its destination. -/
def Sys2Proof.Machine.Seen.loaded (v : Seen) (d : LoadDest) (bs : List Byte) : Seen :=
  match d with
  | .g n sgn => v.putG n (loadVal bs sgn)
  | .f n => v.putF n (w64 (leNat bs))
  | .v wide n => v.putView wide n (BitVec.ofNat 128 (leNat bs))
  | .el wide n w k => v.putView wide n (setElem w k (v.view wide n) (leNat bs))
  | .crc _ _ => v

/-- DATA ARRIVES FROM THE SCRATCHPAD: where the oldest read, of a unit with power, returns it without a wrong bit and holds the last bytes that its load waits for,
the load's bytes, those of older stores over them, go into its destination register: zero- or sign-extended into a G register, zero-extended
into an F register, into a view or into one element of one. The load is gone, and nothing else that software sees changes. -/
def Obligations.ScratchpadDataReachesTheRegister : Prop :=
  ∀ (s : State) (r : SpxRead) (rest : List SpxRead) (job : LoadJob), s.spx.reads = r :: rest →
    s.cpu.loads.find? (fun j => j.id == r.piece.job) = some job → job.missing = r.piece.len → job.bad = false →
    (∀ n c, job.dest ≠ .crc n c) → r.weight = false → r.mark = ⟨r.unit, 0#4, 0#4, 0#288, none⟩ → s.unitDown r.unit = false → r.data.length = 32 →
    let bytes := putBytes job.bytes r.piece.pos ((r.data.drop r.piece.off).take r.piece.len)
    Leaves (.spxReadData 0#288) s fun t =>
      t.spx.reads = rest ∧ t.cpu.loads = s.cpu.loads.filter (fun j => j.id != r.piece.job)
        ∧ t.seen = s.seen.loaded job.dest (job.fwd.foldl (fun b f => putBytes b f.1 f.2) bytes)

/-- A store commits and stands last in the store buffer with its parts and bytes; nothing else that software sees changes, no byte of storage
among it. -/
def Sys2Proof.Machine.Buffered (i : Instr) (s u : State) (v : Seen) (ps : List Part) (bs : List Byte) (nt : Bool) : Prop :=
  Leaves i s fun t => t.seen = v ∧ ∃ e, t.cpu.sb = u.cpu.sb ++ [e] ∧ e.kind = .store (overParts ps bs) nt ∧ e.waiting = false
    ∧ e.tag = u.cpu.ptag

/-- Every scalar store, the store buffer having a free entry: it commits into the store buffer with the low bytes of G[D], or of F[D] for STF and
STFS, lowest first. A store to a register whose write takes effect at once is not buffered: with the store buffer and M1 empty, no device access
outstanding and no wait of the register's own, the register is written as the store commits. -/
def Sys2Proof.Machine.ScalarStoresEnterTheStoreBuffer : Prop :=
  ∀ (s : State) (o : MemArgs) (ps : List Part),
    let s1 := s.arrived (memLen o)
    let v := s.seen
    let buffered (i : Instr) (gs fs : List (Fin 32)) (size : Nat) (std : Bool) (x : DWord) : Prop :=
      let a := v.scalar o 1 size std
      let u := (s1.access a).1
      let bs := leBytes x.toNat size
      s.issues (memLen o) gs fs → s1.admits a true ps → u.storeAtOnce ps bs = none → u.cpu.sb.length < 8 →
        Buffered i s u (v.next (memLen o)) ps bs o.nt
    let written (i : Instr) (gs fs : List (Fin 32)) (size : Nat) (std : Bool) (x : DWord) : Prop :=
      let a := v.scalar o 1 size std
      let u := (s1.access a).1
      ∀ off y, s.issues (memLen o) gs fs → s1.admits a true ps → u.storeAtOnce ps (leBytes x.toNat size) = some (off, y) →
        u.cpu.sb = [] → u.cpu.m1 = [] → u.deviceOut = false → u.writeWaits .local off y = false →
        exec i s = .next ((u.commit (memLen o)).writeReg .local off y)
    let stores (i : Instr) (gs fs : List (Fin 32)) (size : Nat) (std : Bool) (x : DWord) : Prop :=
      buffered i gs fs size std x ∧ written i gs fs size std x
    let g := [o.d, o.b, o.a]
    let x := v.readG o.d
    stores (.stb o) g [] 1 false x ∧ stores (.sth o) g [] 2 false x ∧ stores (.stw o) g [] 4 false x
      ∧ stores (.std o) g [] 8 true x ∧ stores (.stf o) [o.b, o.a] [o.d] 8 false (v.readF o.d)
      ∧ stores (.stfs o) [o.b, o.a] [o.d] 4 false (v.readF o.d)

/-- VST stores its whole view and VSCATTER the element that VEIDX names, each into the store buffer. -/
def Sys2Proof.Machine.VectorStoresEnterTheStoreBuffer : Prop :=
  ∀ (s : State) (wide : Bool) (ps : List Part),
    let v := s.seen
    (∀ o : VMemArgs,
        let len := if wide then 7 else 6
        let a := v.vectorAcc o wide 1
        let u := ((s.arrived len).access a).1
        let bs := leBytes (v.view wide o.d).toNat (if wide then 16 else 8)
        s.vissues len [o.b, o.a] [(wide, o.d)] → (s.arrived len).admits a true ps → u.storeAtOnce ps bs = none →
          u.cpu.sb.length < 8 → Buffered (.vst wide o) s u (v.next len) ps bs false)
      ∧ ∀ (sz : Fin 4) (d : FReg) (b : GReg) (a : FReg) (sh : Byte) (chk : ArrayCheck),
        let len := if wide then 6 else 5
        let k := v.veidx.toNat
        let n := viewBits wide / vWidth sz
        let c := v.elementAcc wide sz b a sh chk 1 k
        let u := ((s.arrived len).access c).1
        let bs := leBytes ((v.view wide d).toNat / 2 ^ (vWidth sz * k)) (vWidth sz / 8)
        s.vissues len [b] [(wide, d), (wide, a)] → sh.toNat ≤ 3 → k < n → (s.arrived len).admits c true ps →
          u.storeAtOnce ps bs = none → u.cpu.sb.length < 8 →
          Buffered (.vscatter wide sz d b a sh chk) s u
            (if k + 1 < n then { v with veidx := w64 (k + 1) } else Seen.next { v with veidx := 0#64 } len) ps bs false

/-- The scalar and vector stores. -/
def Obligations.StoresEnterTheStoreBuffer : Prop :=
  ScalarStoresEnterTheStoreBuffer ∧ VectorStoresEnterTheStoreBuffer

/-- A command performs the head of the store buffer, whose bytes `bs` go to the own scratchpad from `off` on in units of the classes `wt`: the head
leaves the buffer and the bytes stand in the scratchpad; no byte outside the 32-byte units that it touches changes, and where those units hold
no wrong bit, no byte but the stored ones does; the registers, FLAGS, IP, the sync counters and the tile storage stay as they were. -/
def Sys2Proof.Machine.WritesBytes (i : Instr) (s : State) (rest : List SbEntry) (off : Nat) (wt : List Bool) (bs : List Byte)
    (fs : List UnitFlips) : Prop :=
  Leaves i s fun t =>
    t.cpu.sb = rest ∧ { t.seen with spx := s.seen.spx } = s.seen
      ∧ (∀ k, k < bs.length → t.spx.mem.get (off + k) = bs.getD k 0#8)
      ∧ (∀ a, a < 32 * (off / 32) ∨ 32 * (off / 32) + 32 * wt.length ≤ a → t.spx.mem.get a = s.spx.mem.get a)
      ∧ ((∀ w ∈ wt, w = false) → (∀ u, s.mark u = ⟨u, 0#4, 0#4, 0#288, none⟩) → (∀ f ∈ fs, f = 0#288) →
          ∀ a, a < off ∨ off + bs.length ≤ a → t.spx.mem.get a = s.spx.mem.get a)

/-- PERFORMING A STORE OR A FILL, nothing else being held back: the oldest store of the store buffer, or the oldest unit of BFILL, whole within the own
scratchpad of a Spec 2 build, whose units have power, writes its bytes; a conflict of the cycle with a write of D changes none of them. -/
def Obligations.PerformedStoresWriteTheirBytes : Prop :=
  ∀ (s : State) (e : SbEntry) (rest : List SbEntry) (p : Part) (off : Nat) (wt : List Bool) (bs : List Byte) (nt : Bool)
    (fs : List UnitFlips) (conflict : Bool),
    s.cpu.sb = e :: rest → p.tgt = .spx off wt → bs ≠ [] → wt.length = unitsIn off bs.length → s.build.s2 = true →
    (∀ u, off / 32 ≤ u → u < off / 32 + wt.length → s.unitDown u = false) → s.settled →
    (e.kind = .store [(p, bs)] nt → WritesBytes (.storeBufferPerform ⟨fs, conflict⟩) s rest off wt bs fs)
      ∧ (e.kind = .fill [p] bs nt → WritesBytes (.moveUnitPerform fs) s rest off wt bs fs)

/-- THE SEC-DED CODE of the activation class: data bit i stands at the i-th position among 1 to 71 that is no power of two; check bit k is the XOR of the data bits
whose position has bit k set, check bit 7 that of all data bits and the other check bits. A stored 72-bit word reads back its data; with any one of its bits
flipped it reads back its data, corrected; with any two flipped it is found uncorrectable. -/
def Obligations.OneFlippedBitIsCorrectedTwoAreFound : Prop :=
  secded 0 = 0 ∧ ∀ d : Nat, d < 2 ^ 64 →
    let places := (List.range 72).filter fun p => p != 0 && 2 ^ Nat.log2 p != p
    let xorOf (bs : List Bool) : Bool := bs.foldl xor false
    let x := d + 2 ^ 64 * secded d
    (secded d < 256 ∧ (∀ k, k < 7 → (secded d).testBit k = xorOf ((List.range 64).map fun i => d.testBit i && (places.getD i 0).testBit k))
        ∧ (secded d).testBit 7 = xorOf ((List.range 64).map d.testBit ++ (List.range 7).map (secded d).testBit))
      ∧ readWord x = ⟨d, false, false⟩ ∧ (∀ i, i < 72 → readWord (x ^^^ 2 ^ i) = ⟨d, true, false⟩)
      ∧ ∀ i j, i < j → j < 72 → (readWord (x ^^^ 2 ^ i ^^^ 2 ^ j)).bad = true

/-! ## System instructions -/

/-- SYSCALL, FWCALL and BRK take their exception: the return address is their own, DETAIL and XADDR are 0; FWCALL enters M, the others the level
that the delegation register gives. -/
def Sys2Proof.Machine.CallsAndBreakEnterTheirHandler : Prop :=
  ∀ s : State, s.issues 2 [] [] →
    Does .syscall s (s.trapped 2 cSYSCALL 0#32 0#64) ∧ Does .fwcall s (s.trapped 2 cFWCALL 0#32 0#64)
      ∧ Does .brk s (s.trapped 2 cBREAK 0#32 0#64) ∧ (s.arrived 2).causeToM cFWCALL = true

/-- A command completes by entering level M (`m`) or S with the cause `c` and DETAIL and XADDR 0, as R287 says it: the frame of that level holds the
address of the instruction, FLAGS, the cause with the level it arose at, and BRC; FLAGS.PL is the level, IE, UA and BRC are 0; execution goes on
at the level's vector for synchronous causes; the other frame, every register file and all storage stay as they were. -/
def Sys2Proof.Machine.EntersLevel (i : Instr) (s : State) (m : Bool) (c : Nat) : Prop :=
  Leaves i s fun t =>
    let fr : Frame := ⟨s.cpu.ip, s.cpu.flags, w64 (c * 2 ^ 40 + s.pl * 2 ^ 48), 0#64, s.cpu.brc⟩
    t.cpu.frameM = (if m then fr else s.cpu.frameM) ∧ t.cpu.frameS = (if m then s.cpu.frameS else fr)
      ∧ t.cpu.flags = ((s.cpu.flags &&& ~~~0xF00#64) ||| if m then 0x800#64 else 0x400#64)
      ∧ t.cpu.brc = 0#64 ∧ t.cpu.ip = (if m then s.cpu.vecs[2] else s.cpu.vecs[0])
      ∧ { t.seen with frameM := s.cpu.frameM, frameS := s.cpu.frameS, flags := s.cpu.flags, brc := s.cpu.brc, ip := s.cpu.ip } = s.seen

/-- SYSCALL, FWCALL, BRK AND ERET COMPLETE. SYSCALL, cause 0x0A, and BRK, cause 0x0C, enter S where they arise at U or S and CORE_DELEG has their bit set, else M;
FWCALL, cause 0x0B, enters M. ERET, at M or S, no division or root of floating point being in progress, puts IP, all of FLAGS, and BRC back from
the frame of its level, where that frame's PL is not above it; every register, both frames and all storage stay as they were. -/
def Sys2Proof.Machine.CallsAndReturnComplete : Prop :=
  ∀ s : State, s.issues 2 [] [] →
    let deleg := (s.arrived 2).reg (pCORE + 0x188)
    let m (c : Nat) : Bool := s.pl == 2 || !deleg.getLsbD c
    EntersLevel .syscall s (m 0x0A) 0x0A ∧ EntersLevel .brk s (m 0x0C) 0x0C ∧ EntersLevel .fwcall s true 0x0B
      ∧ ∀ fr : Frame, (s.pl = 2 ∧ fr = s.cpu.frameM) ∨ (s.pl = 1 ∧ fr = s.cpu.frameS) → fr.xflags.toNat / 1024 % 4 ≤ s.pl →
        (∀ j ∈ (s.arrived 2).cpu.div, j.fp = false) → Leaves .eret s fun t =>
          t.cpu.ip = fr.xip ∧ t.cpu.flags = fr.xflags ∧ t.cpu.brc = fr.xbrc
            ∧ { t.seen with ip := s.cpu.ip, flags := s.cpu.flags, brc := s.cpu.brc } = s.seen

/-- A special register of the pipeline written, at the level that FLAGS gives: the user mask at U; reserved bits of FLAGS and XFLAGS, the low six bits
of a vector, and the bits of XCAUSE outside its fields are not kept. -/
def Sys2Proof.Machine.Seen.putSr (v : Seen) (r : SpecialReg) (x : DWord) : Seen :=
  let fr (m : Bool) : Frame := if m then v.frameM else v.frameS
  let put (m : Bool) (f : Frame) : Seen := if m then { v with frameM := f } else { v with frameS := f }
  match r with
  | .flags =>
    let m : DWord := if flagPL v.flags = 0#2 then 0x1F000F#64 else 0x1F030F#64
    v.putFlags ((v.flags &&& ~~~m) ||| (x &&& m))
  | .brs => { v with brs := x }
  | .bre => { v with bre := x }
  | .brc => { v with brc := x }
  | .veidx => { v with veidx := x }
  | .tid => { v with tid := x.setWidth 16 }
  | .xip m => put m { fr m with xip := x }
  | .xflags m => put m { fr m with xflags := x &&& 0x1F0F0F#64 }
  | .xcause m => put m { fr m with xcause := x &&& 0x8003FF00FFFFFFFF#64 }
  | .xaddr m => put m { fr m with xaddr := x }
  | .xbrc m => put m { fr m with xbrc := x }
  | .vec n => { v with vecs := v.vecs.set n (x &&& ~~~0x3F#64) }
  | .ip | .tprog | .stamp => v

/-- What a special register reads as, TPROG and STAMP given. -/
def Sys2Proof.Machine.Seen.sr (v : Seen) (tprog stamp : DWord) (r : SpecialReg) : DWord :=
  let fr (m : Bool) : Frame := if m then v.frameM else v.frameS
  match r with
  | .ip => v.ip
  | .flags => v.flags
  | .brs => v.brs
  | .bre => v.bre
  | .brc => v.brc
  | .veidx => v.veidx
  | .tprog => tprog
  | .stamp => stamp
  | .tid => v.tid.setWidth 64
  | .xip m => (fr m).xip
  | .xflags m => (fr m).xflags
  | .xcause m => (fr m).xcause
  | .xaddr m => (fr m).xaddr
  | .xbrc m => (fr m).xbrc
  | .vec n => v.vecs[n]

/-- MFSR COMPLETES for every special register that the table lists, at its level or above: G[D] takes its value, TPROG and STAMP as they stand then; nothing
else changes. MTSR COMPLETES for every one that can be written, a loop register for the next instruction, a vector register once its line has
been fetched. Either waits, changing nothing, for FLAGS while a floating-point division or root is in progress. -/
def Obligations.SpecialRegistersReadAndWrite : Prop :=
  ∀ (s : State) (g : GReg) (n : Byte) (r : SpecialReg), specialReg n = some r → s.issues 5 [g] [] → srLevel r ≤ s.pl →
    let v := s.seen
    let u := s.arrived 5
    let x := v.readG g
    let busy := r = .flags ∧ ∃ j ∈ u.cpu.div, j.fp = true
    (busy → Does (.mfsr g n) s v ∧ Does (.mtsr n g) s v)
      ∧ (¬busy → Does (.mfsr g n) s ((v.putG g (v.sr u.tprog u.stamp r)).next 5))
      ∧ (¬busy → srWritable r = true → (∀ k, r ≠ .vec k) →
          Does (.mtsr n g) s (if r ∈ [.brs, .bre, .brc] then (v.next 5).putSr r x else (v.putSr r x).next 5))
      ∧ (∀ k, r = .vec k → ∀ p ps, (u.fetchLine (x &&& ~~~0x3F#64)).2 = .parts (p :: ps) → Does (.mtsr n g) s ((v.putSr r x).next 5))

/-- A number that the table does not list, and a write of a register that cannot be written, raise UNDEF; a register of a higher level raises PRIV
with its number. -/
def Sys2Proof.Machine.SpecialRegistersAreGuarded : Prop :=
  ∀ (s : State) (g : GReg) (n : Byte), s.issues 5 [g] [] →
    (specialReg n = none → Does (.mfsr g n) s (s.trapped 5 cUNDEF 0#32 0#64) ∧ Does (.mtsr n g) s (s.trapped 5 cUNDEF 0#32 0#64))
      ∧ ∀ r, specialReg n = some r →
        (srWritable r = false → Does (.mtsr n g) s (s.trapped 5 cUNDEF 0#32 0#64))
          ∧ (s.pl < srLevel r → Does (.mfsr g n) s (s.trapped 5 cPRIV (n.setWidth 32) 0#64)
            ∧ (srWritable r = true → Does (.mtsr n g) s (s.trapped 5 cPRIV (n.setWidth 32) 0#64)))

/-- ERET at S or M restores IP, FLAGS and BRC from the frame of the current level; a frame whose PL is above the current level raises PRIV. It waits for a
floating-point division or root in progress, which will write FLAGS. -/
def Sys2Proof.Machine.ReturnRestoresTheFrame : Prop :=
  ∀ s : State, s.issues 2 [] [] → 1 ≤ s.pl →
    let v := s.seen
    let fr := if s.pl = 2 then v.frameM else v.frameS
    Does .eret s (if (s.arrived 2).cpu.div.any (fun j => j.fp) then v else if s.pl < (flagPL fr.xflags).toNat then s.trapped 2 cPRIV 0#32 0#64
      else { v with ip := fr.xip, flags := fr.xflags, brc := fr.xbrc })

/-- SYSCALL, FWCALL, BRK and ERET: they complete, and where ERET traps or waits. -/
def Obligations.HandlersAreEnteredAndLeft : Prop :=
  CallsAndBreakEnterTheirHandler ∧ CallsAndReturnComplete ∧ ReturnRestoresTheFrame

/-- The privileged instructions raise PRIV at U, with DETAIL and XADDR 0, and have no effect. -/
def Sys2Proof.Machine.PrivilegedInstructionsTrapAtUser : Prop :=
  ∀ (s : State) (a : GReg) (imm : Byte), s.pl = 0 →
    let trap (i : Instr) (len : Nat) (gs : List (Fin 32)) : Prop :=
      s.issues len gs [] → Does i s (s.trapped len cPRIV 0#32 0#64)
    trap .eret 2 [] ∧ trap .uaopen 2 [] ∧ trap .uaclose 2 [] ∧ trap .wfi 2 []
      ∧ trap (.dcleanSw a) 4 [a] ∧ trap (.dinvalSw a) 4 [a] ∧ trap (.dclinvSw a) 4 [a] ∧ trap .dinvalAll 4 []
      ∧ trap (.iinvalSw a) 4 [a] ∧ trap .iinvalAll 4 []
      ∧ (imm.toNat < (s.arrived 5).ways false → trap (.dpreload a imm) 5 [a])
      ∧ (imm.toNat < (s.arrived 5).ways true → trap (.ipreload a imm) 5 [a])
      ∧ (imm.toNat < 8 → imm.toNat % 4 = 3 → trap (.xinv imm a a a) 5 [a, a, a])

/-- FENCE takes a place in the store buffer; IFENCE, once every entry line in use has been loaded again, drops what was fetched ahead; UAOPEN and UACLOSE, at S or M, set and clear FLAGS.UA alone; WFI, at
S or M, commits and fetch stops. -/
def Obligations.FencesWindowsAndWait : Prop :=
  ∀ s : State, s.issues 2 [] [] →
    let v := s.seen
    ((s.arrived 2).cpu.sb.length < 8 → Leaves .fence s fun t =>
        t.seen = v.next 2 ∧ ∃ e, t.cpu.sb = (s.arrived 2).cpu.sb ++ [e] ∧ e.kind = .fence)
      ∧ (((s.arrived 2).reloadLines [0, 1, 2, 3, 4, 5]).2 = true →
        Leaves .ifence s fun t => t.seen = v.next 2 ∧ t.cpu.fetched = [] ∧ t.cpu.fromLine = none)
      ∧ (1 ≤ s.pl → Does .uaopen s ((v.putFlags (v.flags ||| 0x200#64)).next 2)
        ∧ Does .uaclose s ((v.putFlags (v.flags &&& ~~~0x200#64)).next 2)
        ∧ Leaves .wfi s fun t => t.seen = v.next 2 ∧ t.cpu.wait = .wfi)

/-! ## Sync counters -/

/-- The sync instructions at a level that the counter's LEVEL lets in: SYNCADD adds modulo 2^32, SYNCSET writes, SYNCGET reads zero-extended, SYNCWAIT
commits where the counter has reached its threshold and else waits, changing nothing; SYNCWAIT_END commits it; SYNCRADD, unchecked, enters
the store buffer. -/
def Obligations.SyncInstructionsUseTheirCounter : Prop :=
  ∀ (s : State) (a b : GReg) (n : Fin 64) (imm : Byte), imm.toNat = n.val →
    let u := s.arrived 5
    let v := s.seen
    let x := (v.readG a).setWidth 32
    (s.issues 5 [a] [] → u.syncLevel n.val ≤ s.pl →
        Does (.syncadd a imm) s ((v.addSync n x).next 5) ∧ Does (.syncset a imm) s ((v.putSync n x).next 5)
          ∧ Does (.syncget a imm) s ((v.putG a (v.sync[n].setWidth 64)).next 5)
          ∧ (x.toNat ≤ v.sync[n].toNat → Does (.syncwait a imm) s (v.next 5))
          ∧ (v.sync[n].toNat < x.toNat → Leaves (.syncwait a imm) s fun t => t.seen = v ∧ t.cpu.wait = .syncwait n.val x))
      ∧ (∀ h : Word, s.cpu.wait = .syncwait n.val h → h.toNat ≤ v.sync[n].toNat → Does .syncwaitEnd s (v.next 5))
      ∧ (s.issues 5 [a, b] [] → u.cpu.sb.length < 8 → Leaves (.syncradd a b imm) s fun t =>
        t.seen = v.next 5 ∧ ∃ e, t.cpu.sb = u.cpu.sb ++ [e] ∧ e.kind = .sadd x (BitVec.ofNat 6 n.val) ((v.readG b).setWidth 32))

/-- A counter number of 64 or more raises UNDEF in every sync instruction, and a counter whose LEVEL is above the current level raises PRIV in the four
that check it. -/
def Sys2Proof.Machine.SyncInstructionsAreGuarded : Prop :=
  ∀ (s : State) (a b : GReg) (imm : Byte),
    let u := s.arrived 5
    let four (cause : Nat) : Prop :=
      Does (.syncadd a imm) s (s.trapped 5 cause 0#32 0#64) ∧ Does (.syncset a imm) s (s.trapped 5 cause 0#32 0#64)
        ∧ Does (.syncget a imm) s (s.trapped 5 cause 0#32 0#64) ∧ Does (.syncwait a imm) s (s.trapped 5 cause 0#32 0#64)
    (s.issues 5 [a] [] → 64 ≤ imm.toNat → four cUNDEF)
      ∧ (s.issues 5 [a] [] → imm.toNat < 64 → s.pl < u.syncLevel imm.toNat → four cPRIV)
      ∧ (s.issues 5 [a, b] [] → 64 ≤ imm.toNat → Does (.syncradd a b imm) s (s.trapped 5 cUNDEF 0#32 0#64))

/-- What the level of a special register, of an instruction and of a sync counter keeps out. -/
def Obligations.GuardedInstructionsTrap : Prop :=
  SpecialRegistersAreGuarded ∧ PrivilegedInstructionsTrapAtUser ∧ SyncInstructionsAreGuarded

/-! ## String and move instructions -/

/-- The unit of a string instruction goes through at TR with its source and destination parts. -/
def Sys2Proof.Machine.State.admitsUnit (s : State) (src dst : List Acc) (ps qs : List Part) : Prop :=
  let a := s.accessAll src
  let b := a.1.accessAll dst
  a.2 = .parts ps ∧ b.2 = .parts qs
    ∧ b.1.tileHolds ps false ++ b.1.tileHolds qs true = [] ∧ (b.1.trapMine && b.1.waitedForTrap) = false

/-- After a unit: under REP the instruction stays while G6 is not 0, else execution goes on in sequence. -/
def Sys2Proof.Machine.Seen.unitDone (v : Seen) (rep : Bool) (len : Nat) : Seen :=
  if rep = true ∧ v.readG 6 ≠ 0#64 then v else v.next len

/-- BCOPY, BFILL and MOVT with G6 = 0 only go on. Otherwise a unit, reaching at most to the next multiple of 64 in G5 (256 for MOVT), commits: its accesses
stand last in the store buffer, G4 (not of BFILL) and G5 move on by its bytes, OFFSET alone of MOVT's G5, and G6 falls by them. -/
def Obligations.StringUnitsCommit : Prop :=
  ∀ (s : State) (rep nt : Bool),
    let v := s.seen
    let len := 2 + (if rep then 1 else 0) + (if nt then 1 else 0)
    let mlen := 2 + if rep then 1 else 0
    let g4 := v.readG 4
    let g5 := v.readG 5
    let g6 := v.readG 6
    let n := min g6.toNat (64 - g5.toNat % 64)
    let m := min g6.toNat (256 - g5.toNat % 256)
    let copied := ((v.putG 4 (g4 + w64 n)).putG 5 (g5 + w64 n)).putG 6 (g6 - w64 n)
    let filled := (v.putG 5 (g5 + w64 n)).putG 6 (g6 - w64 n)
    let moved := ((v.putG 4 (g4 + w64 m)).putG 5 ((g5 &&& ~~~0x1FFFFF#64) ||| w64 ((g5.toNat + m) % 2 ^ 21))).putG 6 (g6 - w64 m)
    (g6 = 0#64 → (s.issues len [4, 5, 6] [] → Does (.bcopy nt rep) s (v.next len))
        ∧ (s.issues len [5, 6, 7] [] → Does (.bfill nt rep) s (v.next len))
        ∧ (s.issues mlen [4, 5, 6] [] → Does (.movt rep) s (v.next mlen)))
      ∧ (g6 ≠ 0#64 → ∀ ps qs : List Part,
        (let src := unitPieces g4 0 (misplaced [g4, g5] n) 2 n
         let dst := unitPieces g5 1 (misplaced [g4, g5] n) 1 n
         let u := ((s.arrived len).accessAll src).1.accessAll dst
         s.issues len [4, 5, 6] [] → (s.arrived len).admitsUnit src dst ps qs → u.1.cpu.sb.length < 8 →
          Leaves (.bcopy nt rep) s fun t =>
            t.seen = copied.unitDone rep len ∧ ∃ e, t.cpu.sb = u.1.cpu.sb ++ [e] ∧ e.kind = .copy ps qs nt [])
        ∧ (let dst := unitPieces g5 1 (misplaced [g5] n) 1 n
           let u := (s.arrived len).accessAll dst
           s.issues len [5, 6, 7] [] → (s.arrived len).admitsUnit [] dst [] qs → u.1.cpu.sb.length < 8 →
            Leaves (.bfill nt rep) s fun t =>
              t.seen = filled.unitDone rep len ∧ ∃ e, t.cpu.sb = u.1.cpu.sb ++ [e] ∧ e.kind = .fill qs (fillBytes g5 (v.readG 7) n) nt)
        ∧ (let src := unitPieces g4 0 (misplaced [g4] m) 5 m
           let u := (s.arrived mlen).accessAll src
           s.issues mlen [4, 5, 6] [] → (s.arrived mlen).admitsUnit src [] ps [] → u.1.cpu.sb.length < 8 →
            (∀ p ∈ ps, p.outside = false) → g5.toNat / 2 ^ 21 % 32 = 0 →
            Leaves (.movt rep) s fun t =>
              t.seen = moved.unitDone rep mlen
                ∧ ∃ e st, t.cpu.sb = u.1.cpu.sb ++ [e] ∧ e.kind = .movt ps g5 st u.1.bell.unsync
                ∧ st = u.1.cpu.movtStamp.getD u.1.stamp))

/-- CRCSTEP.M with G6 = 0 only goes on; otherwise its unit is a load of at most W bytes at G4, here from the own scratchpad, whose data will step the CRC in
G[D]; G4 and G6 move. -/
def Obligations.CrcStepReadsMemory : Prop :=
  ∀ (s : State) (rep : Bool) (d : GReg) (c : Byte), c.toNat < 16 →
    let v := s.seen
    let len := 5 + if rep then 1 else 0
    let n := min (v.readG 6).toNat (2 ^ (c.toNat / 4 % 4))
    s.issues len [4, 6, d] [] →
    (v.readG 6 = 0#64 → Does (.crcstepM rep d c) s (v.next len))
      ∧ ∀ (p : Part) (off : Nat) (wt : List Bool), p.tgt = .spx off wt →
        let a : Acc := ⟨v.readG 4, n, 0, .v, false, false, true, misplaced [v.readG 4] n, false⟩
        let u := ((s.arrived len).access a).1
        v.readG 6 ≠ 0#64 → (s.arrived len).admits a false [p] → u.build.s2 = true → u.cpu.m1 = [] →
          Awaits (.crcstepM rep d c) s u
            (((v.putG 4 (v.readG 4 + w64 n)).putG 6 (v.readG 6 - w64 n)).unitDone rep len) (.crc d (c.toNat % 4)) p off wt

/-! ## Cache maintenance, translation -/

/-- What software sees after a range form: G4 goes to the next line and G6 falls by as much. -/
def Sys2Proof.Machine.Seen.range (v : Seen) : Seen :=
  let n := min (v.readG 6).toNat (64 - (v.readG 4).toNat % 64)
  (v.putG 4 (v.readG 4 + w64 n)).putG 6 (v.readG 6 - w64 n)

/-- A command commits, leaves what software sees as `v`, and an entry of the kind given stands last in the store buffer. -/
def Sys2Proof.Machine.Enters (i : Instr) (s : State) (v : Seen) (k : SbKind) : Prop :=
  Leaves i s fun t => t.seen = v ∧ ∃ e, t.cpu.sb.getLast? = some e ∧ e.kind = k

/-- The L1D forms: a VA or range form whose address passes its checks enters the store buffer for the line there (0 clean, 1 invalidate, 2 both), where there is a
line, a range form moving G4 and G6; a range form of 0 bytes only goes on; the set/way forms, DINVAL.ALL and DPRELOAD, at S or M, enter it for their place,
for all, and for their line and way. -/
def Sys2Proof.Machine.DataCacheFormsEnterTheStoreBuffer : Prop :=
  ∀ (s : State) (a : GReg) (way : Byte),
    let v := s.seen
    let x := v.readG a
    let va (i : Instr) (op kind : Nat) : Prop := ∀ pa mt,
      ((s.arrived 4).checkAt x kind).2 = .inr (pa, mt) →
      let u := ((s.arrived 4).checkAt x kind).1
      (u.lineAt pa = none → Does i s (v.next 4))
        ∧ ∀ l, u.lineAt pa = some l → u.cpu.sb.length < 8 → Enters i s (v.next 4) (.maint op l)
    let range (i : Instr) (op kind : Nat) : Prop :=
      (v.readG 6 = 0#64 → Does i s (v.next 4)) ∧ ∀ pa mt,
      ((s.arrived 4).checkAt (v.readG 4) kind).2 = .inr (pa, mt) →
      let u := ((s.arrived 4).checkAt (v.readG 4) kind).1
      v.readG 6 ≠ 0#64 → (u.lineAt pa = none → Does i s (v.range.next 4))
        ∧ ∀ l, u.lineAt pa = some l → u.cpu.sb.length < 8 → Enters i s (v.range.next 4) (.maint op l)
    let place (op : Nat) : SbKind := .maintSW op (x.toNat % 65536 % (s.arrived 4).sets false) (x.toNat / 65536 % 16)
    (s.issues 4 [a] [] → va (.dcleanVa a) 0 0 ∧ va (.dinvalVa a) 1 1 ∧ va (.dclinvVa a) 2 0
        ∧ (1 ≤ s.pl → (s.arrived 4).cpu.sb.length < 8 → Enters (.dcleanSw a) s (v.next 4) (place 0)
          ∧ Enters (.dinvalSw a) s (v.next 4) (place 1) ∧ Enters (.dclinvSw a) s (v.next 4) (place 2)))
      ∧ (s.issues 4 [4, 6] [] → range .dcleanR 0 0 ∧ range .dinvalR 1 1 ∧ range .dclinvR 2 0)
      ∧ (s.issues 4 [] [] → 1 ≤ s.pl → (s.arrived 4).cpu.sb.length < 8 → Enters .dinvalAll s (v.next 4) .invAll)
      ∧ (s.issues 5 [a] [] → 1 ≤ s.pl → way.toNat < (s.arrived 5).ways false → ∀ pa mt,
        ((s.arrived 5).checkAt x 0).2 = .inr (pa, mt) →
        let u := ((s.arrived 5).checkAt x 0).1
        (u.effType pa mt ≠ 0 ∨ u.cacheOn false = false ∨ u.lineAt pa = none → Does (.dpreload a way) s (v.next 5))
          ∧ ∀ l, u.effType pa mt = 0 → u.cacheOn false = true → u.lineAt pa = some l → u.cpu.sb.length < 8 →
            Enters (.dpreload a way) s (v.next 5) (.preload l way.toNat))

/-- The L1I forms act at once: where one place at most holds the line, IINVAL.VA and IINVAL.R leave none that holds it (IINVAL.R moves G4 and G6, and does
nothing for 0 bytes); IINVAL.SW, at S or M, leaves its place Invalid, IINVAL.ALL every place; IPRELOAD, at S or M, begins the fill of its way, or does nothing
where the address is not cacheable or the way is switched off. -/
def Sys2Proof.Machine.InstructionCacheFormsActAtOnce : Prop :=
  ∀ (s : State) (a : GReg) (way : Byte),
    let v := s.seen
    let x := v.readG a
    let gone (i : Instr) (y : DWord) (w : Seen) : Prop := ∀ pa mt l,
      ((s.arrived 4).checkAt y 2).2 = .inr (pa, mt) →
      let u := ((s.arrived 4).checkAt y 2).1
      u.lineAt pa = some l → ((u.cache true).lines.filter fun c => c.2.line == l).length ≤ 1 →
      Leaves i s fun t => t.seen = w ∧ t.findLine true l = none
    (s.issues 4 [a] [] → gone (.iinvalVa a) x (v.next 4))
      ∧ (s.issues 4 [4, 6] [] → (v.readG 6 = 0#64 → Does .iinvalR s (v.next 4))
        ∧ (v.readG 6 ≠ 0#64 → gone .iinvalR (v.readG 4) (v.range.next 4)))
      ∧ (s.issues 4 [a] [] → 1 ≤ s.pl → Leaves (.iinvalSw a) s fun t =>
        let set := x.toNat % 65536 % (s.arrived 4).sets true
        let w := x.toNat / 65536 % 16
        t.seen = v.next 4 ∧ (w < (s.arrived 4).ways true → (s.arrived 4).wayOff true w = false →
          ∀ c ∈ (t.cache true).lines, c.1 ≠ 16 * set + w))
      ∧ (s.issues 4 [] [] → 1 ≤ s.pl → Leaves .iinvalAll s fun t => t.seen = v.next 4 ∧ (t.cache true).lines = [])
      ∧ (s.issues 5 [a] [] → 1 ≤ s.pl → way.toNat < (s.arrived 5).ways true → ∀ pa mt,
        ((s.arrived 5).checkAt x 2).2 = .inr (pa, mt) →
        let u := ((s.arrived 5).checkAt x 2).1
        (u.effType pa mt ≠ 0 ∨ u.cacheOn true = false ∨ u.lineAt pa = none → Does (.ipreload a way) s (v.next 5))
          ∧ ∀ l, u.effType pa mt = 0 → u.cacheOn true = true → u.lineAt pa = some l →
            (u.wayOff true way.toNat = true → Does (.ipreload a way) s (v.next 5))
              ∧ (u.wayOff true way.toNat = false → u.filling true l = false → u.evicting l = false →
                u.wayHeld true (u.lineSet true l) way.toNat = false → u.freeTag.isSome = true → Leaves (.ipreload a way) s fun t =>
                  t.seen = v.next 5
                    ∧ t = ((u.dropILine l).preloadFill true way.toNat l u.cpu.ptag u.reqTid).commit 5))

/-- The maintenance forms of both caches. -/
def Obligations.CacheFormsAct : Prop :=
  DataCacheFormsEnterTheStoreBuffer ∧ InstructionCacheFormsActAtOnce

/-- XINV, older stores done: no TLB entry that its scope covers stays in the TLBs, and it goes on; with BCAST it then waits for the members that it has asked, if
any. XINV_BCAST_TIMEOUT ends that wait: XLAT_BCAST_STAT.MISSING counts the members that have not answered, and it commits. -/
def Sys2Proof.Machine.XinvRemovesTranslations : Prop :=
  ∀ (s : State) (imm : Byte) (d b a : GReg),
    let v := s.seen
    let u := s.arrived 5
    let i : Inval := ⟨imm.toNat % 4, (v.readG d).setWidth 16, (v.readG a).toNat % 2 ^ 57, (v.readG b).toNat⟩
    let clean (t : State) : Prop := (∀ e ∈ t.xlat.itlb, i.covers e = false) ∧ (∀ e ∈ t.xlat.dtlb, i.covers e = false)
      ∧ (∀ e ∈ t.xlat.ovf, i.covers e = false) ∧ ∀ e ∈ t.xlat.l2, i.covers e.2 = false
    (s.issues 5 [d, b, a] [] → xinvBad imm d b a = false → u.cpu.sb = [] → u.storesOut = false →
        (imm.toNat < 4 → 1 ≤ s.pl → Leaves (.xinv imm d b a) s fun t => t.seen = v.next 5 ∧ clean t)
          ∧ (4 ≤ imm.toNat → s.pl = 2 ∨ (s.pl = 1 ∧ (u.reg 0x3100).getLsbD 3 = true) → (i.scope < 2 ∨ i.len ≠ 0) → Leaves (.xinv imm d b a) s fun t =>
            clean t ∧ (t.seen = v.next 5 ∧ t.xlat.bcast = none ∨ t.seen = v ∧ t.cpu.wait = .xinv ∧ t.xlat.bcast.isSome = true)))
      ∧ ∀ c : Bcast, s.xlat.bcast = some c → Leaves .xinvBcastTimeout s fun t =>
        t.seen = v.next 5 ∧ t.xlat.bcast = none
          ∧ fld (t.reg (pXLAT + 0x11C)) 0 18 = (c.waiting.length + c.failed.length) % 2 ^ 18

/-- A PAGE WALK goes on, its reads of the own scratchpad coming back with bits flipped as the command gives them, and nothing that software sees changes: with
a leaf the walk is over and its entry serves the instruction at TR; with a fault it is over, and the access that asked for it raises TRANSLATION with
the walk's subcause and level when it is made again; a read whose answer has still to come leaves the walk where it stands. -/
def Sys2Proof.Machine.PageWalkEnds : Prop :=
  ∀ (s : State) (w : Walk) (fs : List (Nat × UnitFlips)), s.xlat.walk = some w → Leaves (.pageWalkDone fs) s fun t =>
    t.seen = s.seen ∧
      match (s.walkOn w fs 7).2 with
      | .leaf _ e => t.xlat.walk = none ∧ (w.kind == 2, e) ∈ t.xlat.served
      | .fault sub lvl => t.xlat.walk = none
          ∧ (t.untranslated = false → canonical w.va = true → t.noSpace = false → ∀ bad,
              (t.translate w.va w.kind bad).2 = .fault (xlatDetail sub lvl w.kind) none)
      | .wait w' => t.xlat.walk = some w'

/-- XINV and the end of a page walk. -/
def Obligations.TranslationsComeAndGo : Prop :=
  XinvRemovesTranslations ∧ PageWalkEnds

/-! ## Register accesses -/

/-- A write of an accessor is served now: it reaches the page, it is not a serialising write with stores in the store buffer, and not a
local write of TILE_TUSE or TILE_TUSE_OP with work in the tile engine. -/
def Sys2Proof.Machine.State.serves (s : State) (who : Accessor) (key : Nat) (v : Word) : Prop :=
  s.reaches who (key / 0x1000) = true ∧ s.writeWaits who key v = false

/-- A register holds what its access codes give it after a write of `v` in `s`: RW bits, and RWL bits of a page that is not locked, take v; W1C
bits that v sets fall; every other bit stays; a field whose table refuses the value stays (`legal`). RWB bits go to the staged copy. -/
def Sys2Proof.Machine.Written (s t : State) (key : Nat) (v : Word) : Prop :=
  ∀ r, regSpec key = some r →
    let m := r.rw ||| (if (s.reg (key / 0x1000 * 0x1000 + 0xF00)).getLsbD 0 then 0#32 else r.rwl)
    let x := s.reg key
    let y := s.stagedReg key
    t.reg key = s.legal key x (((x &&& ~~~m) ||| (v &&& m)) &&& ~~~(v &&& r.w1c))
      ∧ (r.rwb ≠ 0#32 → t.stagedReg key = legalStaged key y ((y &&& ~~~r.rwb) ||| (v &&& r.rwb)))

/-- Of the register map only the keys given have changed. -/
def Sys2Proof.Machine.KeepsRegs (s t : State) (ks : List Nat) : Prop := ∀ k, k ∉ ks → t.reg k = s.reg k

/-- The registers whose writes have an effect of their own, pairs apart. -/
def Sys2Proof.Machine.ownWrites : List Nat :=
  [0x1100, 0x1114, 0x2100, 0x3100, 0x310C, 0x4118, 0x411C, 0x4124, 0x4148, 0x5100, 0x6118, 0x7100, 0x711C, 0x8104, 0x9120, 0xC100, 0xC108, 0xD114, 0xD120, 0xD124,
   0xD12C, 0xE108, 0xE110, 0xE11C, 0xF100]

/-- THE COMMON LAYOUT of a page that the accessor reaches, here and below a WFI whose source has come having ended first (R274): APPLY.ARM sets ARM; CANCEL reloads the page's staged copies and clears ARM; LOCK is
written once; EVT_RAW's bits fall where written 1; ERR_INFO loses VALID and OVFL; EVT_SET sets the defined events that it names, an error
event among them being captured with CODE 0xFFFF where nothing was. -/
def Sys2Proof.Machine.CommonPageRegisters : Prop :=
  ∀ (s₀ : State) (who : Accessor) (page : Fin 16),
    let s := s₀.latchWfi
    s.reaches who page.val = true →
    let p := page.val * 0x1000
    exec (.pageApplyArm who page) s₀ = .next (s.setReg (p + 0xF04) 1#32)
      ∧ exec (.pageApplyCancel who page) s₀
        = .next (({ s with staged := s.staged.filter fun c => c.1 / 0x1000 != page.val } : State).setReg (p + 0xF04) 0#32)
      ∧ exec (.pageLockWrite who page) s₀
        = .next (if (s.reg (p + 0xF00)).getLsbD 0 then s else s.setReg (p + 0xF00) 1#32)
      ∧ exec (.errInfoClear who page) s₀ = .next (s.setReg (p + 0x20) (s.reg (p + 0x20) &&& 0x3FFFFFFF#32))
      ∧ ∀ v : Word, exec (.evtRawClear who page v) s₀ = .next (s.setReg (p + 0x10) (s.reg (p + 0x10) &&& ~~~v))
        ∧ Leaves (.evtSetWrite who page v) s₀ fun t =>
          t.reg (p + 0x10) = s.reg (p + 0x10) ||| (v &&& evtMask page.val)
            ∧ (v &&& errMask page.val ≠ 0#32 → (t.reg (p + 0x20)).msb = true
              ∧ ((s.reg (p + 0x20)).msb = false → fld (t.reg (p + 0x20)) 0 16 = 0xFFFF))
            ∧ KeepsRegs s t [p + 0x10, p + 0x20, p + 0x24, p + 0x28, p + 0x2C, p + 0x30]
            ∧ { t with regs := s.regs, fresh := s.fresh } = s

/-- PAIRS AND PLAIN REGISTERS, nothing being held back: reading a pair's low word answers it and latches the high word; writing the low word of a
writable pair loads the accessor's write holding register alone; writing its high word writes both words, the low one from the holding
register where it was written since the pair's last write, else unchanged; a write of a register with no effect of its own writes it. A
write that RWL bits of a locked page refuse raises LOCKED_WRITE. -/
def Sys2Proof.Machine.PairsAndPlainRegisters : Prop :=
  ∀ (s₀ : State) (who : Accessor) (page : Fin 16) (off : BitVec 12) (v : Word),
    let s := s₀.latchWfi
    s.settled →
    let k := regKey page off
    let p := page.val * 0x1000
    (s.reaches who page.val = true → isPairLow k = true →
        (Leaves (.pairLowRead who page off) s₀ fun t =>
          t.busRead = (s.regNow k).setWidth 64 ∧ (t.hold who).rd = s.regNow (k + 4)
            ∧ { t with busRead := s.busRead, localHold := s.localHold, remoteHold := s.remoteHold } = s₀)
        ∧ (pairWritable k = true → Leaves (.pairLowWrite who page off v) s₀ fun t =>
          (t.hold who).wr = v ∧ k ∈ (t.hold who).written ∧ { t with localHold := s.localHold, remoteHold := s.remoteHold } = s))
      ∧ (s.serves who k v → 4 ≤ k → isPairLow k = false → isPairLow (k - 4) = true → pairWritable (k - 4) = true →
        k - 4 ∉ [0x4128, 0x5108, 0x3104] → Leaves (.pairHighWrite who page off v) s₀ fun t =>
          Written s t k v ∧ Written s t (k - 4) (if k - 4 ∈ (s.hold who).written then (s.hold who).wr else s.pairLow (k - 4))
            ∧ KeepsRegs s t [k, k - 4, p + 0x10]
            ∧ { t with regs := s.regs, staged := s.staged, localHold := s.localHold, remoteHold := s.remoteHold } = s)
      ∧ ∀ r, regSpec k = some r → s.serves who k v → isPairLow k = false → isPairLow (k - 4) = false → k ∉ ownWrites →
        off ∉ [0x010#12, 0x01C#12, 0x020#12, 0xF00#12, 0xF04#12] → Leaves (.regWrite who page off v) s₀ fun t =>
          Written s t k v ∧ KeepsRegs s t [k, p + 0x10] ∧ { t with regs := s.regs, staged := s.staged } = s
            ∧ t.reg (p + 0x10) = if r.rwl ≠ 0#32 ∧ (s.reg (p + 0xF00)).getLsbD 0 = true then s.reg (p + 0x10) ||| 0x80000000#32
              else s.reg (p + 0x10)

/-- Reads and writes of the registers that pages share and of plain registers and pairs. -/
def Obligations.CommonAndPlainRegisters : Prop :=
  CommonPageRegisters ∧ PairsAndPlainRegisters

/-- A page write ordered behind the queued tile instructions: at once with none queued, else kept with the number of those queued. -/
def Sys2Proof.Machine.Ordered (i : Instr) (s₀ t : State) (w : LateWrite) : Prop :=
  let s := s₀.latchWfi
  exec i s₀ = .next (if s.tile.queue = [] then t else { s with tile := { s.tile with late := s.tile.late ++ [(s.tile.queue.length, w, none)] } })

/-- THE TILE AND CONV PAGES: TILE_TUSE, the engine idle, ends the live names that it clears, with their poison, and sets none; TILE_TUSE_OP is
written; with the engine busy both, from elsewhere, are kept; TILE_MASKR, TILE_MASKC, CONV_SEED (which seeds every lane) and CONV_CTRL.RBITS
of 1 to 16 come behind the queued instructions; TILE_DEFER.PEND falls; TILE_TSTAT's flags and TILE_FAULTPOS.VALID fall. -/
def Sys2Proof.Machine.TileAndConversionPages : Prop :=
  ∀ (s₀ : State) (who : Accessor) (v : Word) (x : DWord),
    let s := s₀.latchWfi
   
    (s.reaches who 4 = true → s.tileBusy = false →
        (Leaves (.tileTuseWrite who v) s₀ fun t =>
          let kept (ns : List (Option NameInfo)) (ns' : List (Option NameInfo)) : Prop :=
            ∀ n, n < 32 → ns'.getD n none = if v.getLsbD n then ns.getD n none else none
          kept s.tile.issue.names t.tile.issue.names ∧ kept s.tile.engine.names t.tile.engine.names
            ∧ (∀ n, n < 32 → (t.tile.poison.getLsbD n = true ↔
                s.tile.poison.getLsbD n = true ∧ (v.getLsbD n = true ∨ (s.tile.engine.names.getD n none) = none)))
            ∧ { t with tile := { t.tile with
                  issue := { t.tile.issue with names := s.tile.issue.names }
                  engine := { t.tile.engine with names := s.tile.engine.names }
                  poison := s.tile.poison } } = s)
          ∧ exec (.tileTuseOpWrite who v) s₀ = .next { s with tile := { s.tile with tuseOp := v.setWidth 8 } })
      ∧ (s.reaches .remote 4 = true → s.tileBusy = true →
        exec (.tileTuseWrite .remote v) s₀ = .next { s with tile := { s.tile with heldTuse := s.tile.heldTuse ++ [(0x118, v, none)] } }
          ∧ exec (.tileTuseOpWrite .remote v) s₀
            = .next { s with tile := { s.tile with heldTuse := s.tile.heldTuse ++ [(0x11C, v, none)] } })
      ∧ (s.reaches who 4 = true →
        Ordered (.tileMaskWrite who false x) s₀ { s with tile := { s.tile with maskr := lo32 x } } (.maskr (lo32 x))
          ∧ (Leaves (.tileMaskWrite who true x) s₀ fun t => (s.tile.queue = [] → t.tile.maskc = x)
            ∧ (s.tile.queue ≠ [] → t.tile.late = s.tile.late ++ [(s.tile.queue.length, .maskc x, none)])
            ∧ { t with tile := s.tile, localHold := s.localHold, remoteHold := s.remoteHold } = s)
          ∧ exec (.tileDeferClear who) s₀ = .next (s.setReg 0x4148 (s.reg 0x4148 &&& 0x3FFFFFFF#32))
          ∧ Leaves (.tileTstatClear who v) s₀ fun t =>
            t.reg 0x4104 = s.reg 0x4104 &&& ~~~(v &&& 0x7F#32) ∧ KeepsRegs s t [0x4104, 0x410C] ∧ { t with regs := s.regs } = s
              ∧ t.reg 0x410C = if v.msb then s.reg 0x410C &&& 0x7FFFFFFF#32 else s.reg 0x410C)
      ∧ (s.reaches who 5 = true →
        (Leaves (.convSeedWrite who x) s₀ fun t => (s.tile.queue = [] → t.tile.seed = x ∧ t.tile.lanes = rngSeed (lo32 x))
            ∧ (s.tile.queue ≠ [] → t.tile.late = s.tile.late ++ [(s.tile.queue.length, .seed x, none)])
            ∧ { t with tile := s.tile, localHold := s.localHold, remoteHold := s.remoteHold } = s)
          ∧ (1 ≤ v.toNat % 32 → v.toNat % 32 ≤ 16 →
            Ordered (.convCtrlWrite who v) s₀ { s with tile := { s.tile with rbits := v.setWidth 5 } } (.rbits (v.setWidth 5))))

/-- THE CORE, CACHE, XLAT AND SPX PAGES: CORE_CTRL and CACHE_CTRL are written, and what was fetched ahead and the loop buffer are dropped; CORE_MCHK loses
VALID and OVFL; XLAT_CTRL, the base and the limit of the address-space table are written, and the loop buffer is dropped; the pair SPX_BASE is written; in a Spec 2 build SPX_BANKPWR takes the bits of the groups in service, and such a group that is OFF or ON
begins to open or close as its bit says. -/
def Sys2Proof.Machine.CoreCacheTranslationAndScratchpadPages : Prop :=
  ∀ (s₀ : State) (who : Accessor) (v : Word) (x : DWord),
    let s := s₀.latchWfi
   
    (s.serves who 0x1100 v → Leaves (.coreDetWrite who v) s₀ fun t =>
        Written s t 0x1100 v ∧ t.cpu.fetched = [] ∧ t.cpu.loop = none ∧ KeepsRegs s t [0x1100]
          ∧ { t with regs := s.regs, staged := s.staged, cpu := { t.cpu with fetched := s.cpu.fetched, loop := s.cpu.loop } } = s)
      ∧ (s.reaches who 1 = true → exec (.coreMchkClear who) s₀ = .next (s.setReg 0x1114 (s.reg 0x1114 &&& 0x3FFFFFFF#32)))
      ∧ (s.serves who 0x2100 v → Leaves (.cacheEnableWrite who v) s₀ fun t =>
        Written s t 0x2100 v ∧ t.cpu.fetched = [] ∧ t.cpu.loop = none ∧ KeepsRegs s t [0x2100]
          ∧ { t with regs := s.regs, staged := s.staged, cpu := { t.cpu with fetched := s.cpu.fetched, loop := s.cpu.loop } } = s)
      ∧ (s.serves who 0x3100 v → Leaves (.xlatCtrlWrite who v) s₀ fun t =>
        Written s t 0x3100 v ∧ t.cpu.loop = none ∧ KeepsRegs s t [0x3100, 0x3010]
          ∧ { t with regs := s.regs, staged := s.staged, cpu := { t.cpu with loop := s.cpu.loop } } = s)
      ∧ (s.serves who 0x310C v → s.settled → Leaves (.regWrite who 3 0x10C v) s₀ fun t =>
        Written s t 0x310C v ∧ t.cpu.loop = none ∧ KeepsRegs s t [0x310C, 0x3010]
          ∧ { t with regs := s.regs, staged := s.staged, cpu := { t.cpu with loop := s.cpu.loop } } = s)
      ∧ (s.serves who 0x3108 v → s.settled → Leaves (.pairHighWrite who 3 0x108 v) s₀ fun t =>
        Written s t 0x3108 v ∧ Written s t 0x3104 (if 0x3104 ∈ (s.hold who).written then (s.hold who).wr else s.pairLow 0x3104)
          ∧ t.cpu.loop = none ∧ KeepsRegs s t [0x3104, 0x3108, 0x3010]
          ∧ { t with regs := s.regs, staged := s.staged, localHold := s.localHold, remoteHold := s.remoteHold
                     cpu := { t.cpu with loop := s.cpu.loop } } = s)
      ∧ (s.serves who 0x6108 (hi32 x) → Leaves (.spxBaseWrite who x) s₀ fun t =>
        Written s t 0x6104 (lo32 x) ∧ Written s t 0x6108 (hi32 x) ∧ KeepsRegs s t [0x6104, 0x6108, 0x6010]
          ∧ { t with regs := s.regs, staged := s.staged, localHold := s.localHold, remoteHold := s.remoteHold } = s)
      ∧ (s.reaches who 6 = true → s.build.s2 = true → Leaves (.spxBankpwrWrite who v) s₀ fun t =>
        (∀ g : Fin 16, t.reg 0x6118 = v &&& w32 s.serviceMask ∧ t.spx.groups[g] =
            if s.inService g.val = false then s.spx.groups[g]
            else match s.spx.groups[g], v.getLsbD g.val with
              | .off, true => .opening
              | .on, false => .closing
              | st, _ => st)
          ∧ KeepsRegs s t [0x6118] ∧ { t with regs := s.regs, spx := { t.spx with groups := s.spx.groups } } = s)

/-- Register writes with an effect: the tile, conversion, core, cache, translation and scratchpad pages. -/
def Obligations.TileCoreAndScratchpadPages : Prop :=
  TileAndConversionPages ∧ CoreCacheTranslationAndScratchpadPages

/-- THE FAB, PITCH, BELL, SYNC AND WEIGH PAGES: FAB_CTRL.LANE_OFF, unlocked, takes the lanes it names out of service; FAB_ABSORB_CLR frees every absorbed
tag; PITCH_STAGED answers the staged entry that PITCH_SEL selects; a write of it, within its table, replaces that entry; either way INDEX goes
on where AUTOINC is set; BELL_SKEW_CLR clears MAXAHEAD; SYNC_VALn sets a counter, SYNC_ADDn adds to it; WEIGH_CTRL is written. -/
def Sys2Proof.Machine.FabricPitchBellSyncAndPowerPages : Prop :=
  ∀ (s₀ : State) (who : Accessor) (v : Word) (n : Fin 64),
    let s := s₀.latchWfi
   
    (s.reaches who 7 = true → s.quiet → (s.reg 0x7F00).getLsbD 0 = false →
        Leaves (.fabLaneOffWrite who v) s₀ fun t => t.net.laneOff = v.setWidth 2
          ∧ ∀ l : Fin 2, v.getLsbD l.val = true → t.net.lanes[l].retired = true ∧ (s.net.lanes[l].retired = false → t.net.lanes[l].en = false))
      ∧ (s.reaches who 7 = true → exec (.fabAbsorbClrWrite who) s₀
        = .next { s with net := { s.net with tags := s.net.tags.filter fun t => !t.absorbed } })
      ∧ (s.reaches who 8 = true →
        let i := fld (s.reg 0x8100) 0 11
        let die := (s.reg 0x8100).getLsbD 31
        let goesOn (t : State) : Prop := KeepsRegs s t [0x8100] ∧ t.reg 0x8100 =
          if (s.reg 0x8100).getLsbD 30 then setFld (s.reg 0x8100) 0 11 ((i + 1) % if die then 128 else 2048) else s.reg 0x8100
        (Leaves (.pitchStagedAccess who false v) s₀ fun t => goesOn t ∧ { t with regs := s.regs, busRead := s.busRead } = s₀
            ∧ t.busRead = ((if die then s.pitch.stagedDie.get i else s.pitch.stagedCore.get i) : Word).setWidth 64)
          ∧ Leaves (.pitchStagedAccess who true v) s₀ fun t => goesOn t ∧ { t with regs := s.regs, pitch := s.pitch } = s
            ∧ t.pitch.core = s.pitch.core ∧ t.pitch.die = s.pitch.die
            ∧ (∀ j, t.pitch.stagedDie.get j = if die = true ∧ j = i ∧ i < 128 then v &&& 0x8000007F#32 else s.pitch.stagedDie.get j)
            ∧ ∀ j, t.pitch.stagedCore.get j = if die = false ∧ j = i then v &&& 0xC00007FF#32 else s.pitch.stagedCore.get j)
      ∧ (s.reaches who 9 = true → exec (.bellSkewClrWrite who) s₀ = .next (s.setReg 0x911C (s.reg 0x911C &&& 0xFFFF#32)))
      ∧ (s.reaches who 0xB = true → Does (.syncValWrite who n v) s₀ (s.seen.putSync n v) ∧ Does (.syncAddWrite who n v) s₀ (s.seen.addSync n v))
      ∧ (s.reaches who 0xC = true → Leaves (.weighEnallowWrite who v) s₀ fun t => Written s t 0xC100 v
        ∧ { t with regs := s.regs, staged := s.staged, pwr := s.pwr } = s
        ∧ { t.pwr with exhausted := s.pwr.exhausted, level := s.pwr.level, since := s.pwr.since } = s.pwr
        ∧ t.pwr.level = (if s.enRamp then s.pwr.level else s.target)
        ∧ (t.pwr.exhausted = true ↔ s.pwr.exhausted = true ∨ ((t.reg 0xC100).getLsbD 0 = true ∧ s.pwr.unsampled = false ∧ s.spent = true)))

/-- THE RAS PAGE, nothing being held back: FENCE.GO fences a running core with its reason, and its entry of the ledger is made where a slot is free; with
REAPPLY, no entry; RETIRE.GO retires a channel of the build, with its entry, with REAPPLY without; RAS_BKT, unlocked, sets a bucket's LEVEL, after a leak
that is due, and retires nothing; RAS_LPOP consumes the oldest entries; RAS_SUMMARY's bits fall where written 1. -/
def Sys2Proof.Machine.ReliabilityPage : Prop :=
  ∀ (s₀ : State) (who : Accessor) (v : Word),
    let s := s₀.latchWfi
    s.reaches who 0xD = true →
    let ch := fld v 0 8
    (s.quiet → s.rst.phase = .run → s.ras.fence = none →
        let fenced (t : State) (re : Bool) : Prop := t.ras.fence = some (fenceReason ((v ||| 0x100#32) &&& ~~~0x200#32 ||| if re then 0x200#32 else 0#32))
          ∧ t.rst.phase = .drain ∧ t.rst.fenceDrain = true ∧ t.tile.queue = [] ∧ t.cpu.div = none
        (Leaves (.rasFenceGo who v) s₀ fun t => fenced t false ∧ (s.ras.ledger.length < 16 →
            ∃ e, t.ras.ledger = s.ras.ledger ++ [e] ∧ e.type = 2#8 ∧ e.lseq = s.ras.nextLseq ∧ e.code = (fenceReason (v &&& 0xFF#32)).setWidth 32))
          ∧ Leaves (.rasFenceReapply who v) s₀ fun t => fenced t true ∧ t.ras.ledger = s.ras.ledger ∧ t.ras.nextLseq = s.ras.nextLseq)
      ∧ (s.quiet → s.hasChannel ch = true → s.retired ch = false →
        (Leaves (.rasRetireGo who v) s₀ fun t => t.ras.retired = s.ras.retired ||| (1#256 <<< ch) ∧ (s.ras.ledger.length < 16 →
            ∃ e rest, t.ras.ledger = s.ras.ledger ++ e :: rest ∧ e.type = 1#8 ∧ e.channel = BitVec.ofNat 8 ch ∧ e.lseq = s.ras.nextLseq))
          ∧ Leaves (.rasRetireReapply who v) s₀ fun t => t.ras.retired = s.ras.retired ||| (1#256 <<< ch) ∧ t.ras.ledger = s.ras.ledger)
      ∧ ((s.reg 0xDF00).getLsbD 0 = false → s.hasChannel (fld (s.reg 0xD11C) 0 8) = true → Leaves (.rasBktWrite who v) s₀ fun t =>
        (∀ c, t.level c = if c = fld (s.reg 0xD11C) 0 8 then ch else s.leak.level c)
          ∧ { t with ras := { t.ras with levels := s.leak.ras.levels } } = s.leak)
      ∧ (exec (.rasLpopWrite who v) s₀ =
        let n := min (v.toNat % 32) s.ras.ledger.length
        .next { s with ras := { s.ras with ledger := s.ras.ledger.drop n, oldest := (s.ras.oldest + n) % 16 } })
      ∧ Leaves (.rasSummaryClear who v) s₀ fun t => Written s t 0xD10C v ∧ KeepsRegs s t [0xD10C] ∧ { t with regs := s.regs, staged := s.staged } = s

/-- Register writes with an effect: the fabric, pitch, bell, sync, power and reliability pages. -/
def Obligations.FabricPowerAndReliabilityPages : Prop :=
  FabricPitchBellSyncAndPowerPages ∧ ReliabilityPage

/-! ## Messages that arrive -/

/-- The state once the flits of a message have been taken, and the message's content as a D2 message would carry it. -/
def Sys2Proof.Machine.State.took (s : State) (m : InMsg) : State := s.tookFlits m.lane m.vc m.flits
def Sys2Proof.Machine.State.content (s : State) (m : InMsg) : InMsg := (s.took m).fromLink m

/-- A message of this class and opcode arrives on an open lane, within the credits of its channel, is not malformed, and is accepted by its destination
(R373, R376, R388). -/
def Sys2Proof.Machine.State.gets (s : State) (cls : BitVec 2) (opc : BitVec 6) (m : InMsg) : Prop :=
  s.laneOpen m.lane = true ∧ s.bufferFits m = true ∧ m.cls = cls ∧ m.opc = opc ∧ (s.took m).malformed m = false ∧ (s.took m).accepts (s.content m) = true

/-- The body of a response to a message (R371): opcode 1 RDATA, 2 ACK, 3 ERR. -/
def Sys2Proof.Machine.State.response (s : State) (opc : Nat) (q : InMsg) (addr : Nat) (data : List Byte) : Body :=
  ⟨1, BitVec.ofNat 6 opc, data.length, q.tid, s.stamp, BitVec.ofNat 56 addr, q.tag, data⟩

/-- A request is served now: the core runs and is not fenced, and nothing is held. -/
def Sys2Proof.Machine.State.servesNow (s : State) : Prop := s.quiet ∧ s.ras.fence = none ∧ s.rst.phase = .run

/-- A request has been served: its flits leave the inbound buffer, and what lost its lane meanwhile completes (R375, R376). -/
def Sys2Proof.Machine.State.served (s : State) (q : InMsg) : State := (s.freeMsg q).settleLost

/-- REQUESTS, the core running and nothing held: RD answers RDATA with the scratchpad's bytes (here of activation-class units without a wrong bit);
WR writes its bytes and answers ACK, a refused range being answered ERR; REGRD answers what the register reads; REGWR writes the register
before its ACK, one that takes effect behind queued tile instructions being answered then; SADD adds to a counter whose REMOTE bit and TID let it in and answers ACK, and is denied otherwise, leaving the counter. -/
def Obligations.RequestsAreServedAndAnswered : Prop :=
  ∀ (s : State) (m : InMsg),
    let u := s.took m
    let q := s.content m
    let a := q.addr.toNat
    let n := q.len.toNat
    let key := a % 2 ^ 16
    s.servesNow →
      (s.gets 0 1 m → u.rangeCheck ⟨.fabric q.tid, .d, 0⟩ a n = none → s.build.s2 = true → (∀ w ∈ s.classes a n, w = false) →
        (∀ k, s.mark k = ⟨k, 0#4, 0#4, 0#288, none⟩) → Leaves (.reqRd m) s fun t =>
          ∃ r : State, r.seen = s.seen ∧ t = (r.answer (u.response 1 q 0 (s.spx.mem.read a n)) q.src q.su).served q)
      ∧ (s.gets 0 2 m → u.rangeCheck ⟨.fabric q.tid, .d, 1⟩ a n = none → Leaves (.reqWr m) s fun t =>
          ∃ r : State, t = (r.answer (u.response 2 q 0 []) q.src q.su).served q ∧ { r.seen with spx := s.seen.spx } = s.seen
            ∧ (∀ k, k < n → r.spx.mem.get (a + k) = q.data.getD k 0#8)
            ∧ ∀ b, b < 32 * (a / 32) ∨ 32 * ((a + n + 31) / 32) ≤ b → r.spx.mem.get b = s.spx.mem.get b)
      ∧ (∀ off sub, s.gets 0 2 m → u.rangeCheck ⟨.fabric q.tid, .d, 1⟩ a n = some (off, sub) → Leaves (.reqWr m) s fun t =>
          t.seen = s.seen ∧ ∃ r : State, t = (r.answer (u.response 3 q (fabricCode sub) []) q.src q.su).served q)
      ∧ (s.gets 0 3 m → n = 4 → key % 4 = 0 → q.tid = 0#16 → exec (.reqRegrd m) s =
          let r := u.readReg .remote key
          .next ((r.1.answer (r.1.response 1 q 0 (leBytes r.2.toNat 4)) q.src q.su).served q))
      ∧ (s.gets 0 4 m → n = 4 → key % 4 = 0 → q.tid = 0#16 → u.writeWaits .remote key (w32 (leNat q.data)) = false →
          let r := u.writeReg .remote key (w32 (leNat q.data)) (some q)
          let behind := ((key = 0x4118 ∨ key = 0x411C) ∧ s.tileBusy = true)
            ∨ (lateKey key (w32 (leNat q.data)) = true ∧ s.tile.queue ≠ [])
          (behind → exec (.reqRegwr m) s = .next (r.served q))
            ∧ (¬behind → exec (.reqRegwr m) s = .next ((r.answer (r.response 2 q 0 []) q.src q.su).served q)))
      ∧ (s.gets 0 5 m →
          let c : Fin 64 := Fin.ofNat 64 a
          let cfg := s.reg (0xB200 + 4 * c.val)
          if cfg.getLsbD 14 = true ∧ (cfg.getLsbD 15 = true ∨ fld cfg 16 16 = q.tid.toNat) then
            Leaves (.reqSadd m) s fun t => t.seen = s.seen.addSync c (w32 (leNat q.data))
              ∧ ∃ r : State, t = (r.answer (u.response 2 q 0 []) q.src q.su).served q
          else Leaves (.reqSadd m) s fun t => t.seen = s.seen ∧ ∃ r : State, t = (r.answer (u.response 3 q 2 []) q.src q.su).served q)

/-- What software sees once a load that was answered by an error has written its destination: zero. -/
def Sys2Proof.Machine.Seen.loadFailed (v : Seen) : LoadDest → Seen
  | .g n _ => v.putG n 0#64
  | .f n => v.putF n 0#64
  | .v wide n => v.putView wide n 0#128
  | .el wide n w k => v.putView wide n (setElem w k (v.view wide n) 0)
  | .crc n _ => v.putG n 0#64

/-- ANSWERS free the tag that they name, nothing being held: RDATA of a load's length writes the load's destination, with the bytes of older stores over it;
ACK of a store changes nothing that software sees; ERR of a load is a machine check of kind 2 and writes zero. An answer of an absorbed tag is
counted as late and frees it. -/
def Sys2Proof.Machine.AnswersCompleteTheirAccess : Prop :=
  ∀ (s : State) (m : InMsg) (e : TagEntry), s.settled → s.net.tags.find? (fun t => (s.took m).fromTarget t (s.content m)) = some e →
    let q := s.content m
    let freed (t : State) : Prop := t.net.tags = s.net.tags.filter fun x => x.tag != e.tag
    (∀ p job, e.absorbed = false → e.use = .load p → s.cpu.loads.find? (fun j => j.id == p.job) = some job → job.missing = p.len →
        job.bad = false → (∀ n c, job.dest ≠ .crc n c) →
        (s.gets 1 1 m → q.data.length = p.off + p.len → Leaves (.rspRdata m) s fun t =>
          let bytes := putBytes job.bytes p.pos ((q.data.drop p.off).take p.len)
          freed t ∧ t.seen = s.seen.loaded job.dest (job.fwd.foldl (fun b f => putBytes b f.1 f.2) bytes)
            ∧ t.cpu.loads = s.cpu.loads.filter fun j => j.id != p.job)
        ∧ (s.gets 1 3 m → Leaves (.rspErr m) s fun t => freed t ∧ t.seen = s.seen.loadFailed job.dest ∧ t.mchkOut = true
            ∧ t.cpu.loads = s.cpu.loads.filter fun j => j.id != p.job))
      ∧ (e.absorbed = false → e.use = .store → s.gets 1 2 m → Leaves (.rspAck m) s fun t =>
          freed t ∧ t.seen = s.seen ∧ t.mchkOut = s.mchkOut)
      ∧ (e.absorbed = true →
          let late (i : Instr) : Prop := Leaves i s fun t => freed t ∧ t.seen = s.seen ∧ t.reg 0x712C = s.reg 0x712C + 1#32
          (s.gets 1 1 m → late (.rspRdata m)) ∧ (s.gets 1 2 m → late (.rspAck m)) ∧ (s.gets 1 3 m → late (.rspErr m)))

/-- A TALLY message as the Tally takes it (R215). -/
def Sys2Proof.Machine.tallyMsg (q : InMsg) : TallyMsg :=
  ⟨q.src, q.su, q.tid, BitVec.ofNat 6 (q.addr.toNat / 2 ^ 26), BitVec.ofNat 21 q.addr.toNat, q.stamp, q.data⟩

/-- A contribution has been staged: its bytes stand behind those staged before it in its row of the arena, the row records its source and its
bytes so far, and nothing that software sees but the scratchpad has changed. -/
def Sys2Proof.Machine.Staged (s t : State) (c : TallyMsg) (row : Option Nat) (d : TallyDesc) : Prop :=
  let b := bufOf (stampTick c.stamp)
  let k := row.getD ((s.slot c.slot.toNat).rows b).length
  let off := d.rowAt b k + 64 + c.offset.toNat
  { t.seen with spx := s.seen.spx } = s.seen ∧ (∀ j, j < c.data.length → t.spx.mem.get (off + j) = c.data.getD j 0#8)
    ∧ ∃ r, ((t.slot c.slot.toNat).rows b)[k]? = some r ∧ r.src = c.src ∧ r.staged = c.offset.toNat + c.data.length

/-- The arena lets a contribution in: neither its row's header nor its bytes meet a refusal of the scratchpad port. -/
def Sys2Proof.Machine.State.arenaOpen (s : State) (c : TallyMsg) (row : Option Nat) (d : TallyDesc) : Prop :=
  let b := bufOf (stampTick c.stamp)
  let off := d.rowAt b (row.getD ((s.slot c.slot.toNat).rows b).length)
  (s.slot c.slot.toNat).desc = some d ∧ c.slot.toNat < s.tally.slots.length ∧ s.rangeCheck ⟨.internal, .d, 1⟩ off 64 = none
    ∧ s.rangeCheck ⟨.internal, .d, 1⟩ (off + 64 + c.offset.toNat) c.data.length = none

/-- NOTICES, CONTRIBUTIONS, CONTROL MESSAGES of a running core that is not fenced: a NOTICE is raised and counted; a contribution that its tests let in is
staged, its bytes standing in its row of the arena, one that they refuse is counted, one that has to wait waits; XINV removes the entries that it
covers and empties the loop buffer, and is answered XACK once the accesses that committed before it are done; XACK of the last member ends the broadcast, one that nobody expects is counted; HOLE takes
its flits alone. A message that the core does not accept raises MISROUTE. -/
def Sys2Proof.Machine.NoticesContributionsAndControl : Prop :=
  ∀ (s : State) (m : InMsg), s.ras.fence = none → s.rst.phase = .run →
    let u := s.took m
    let q := s.content m
    let c := tallyMsg q
    (s.gets 1 4 m → Leaves (.rspNotice m) s fun t =>
        t.seen = s.seen ∧ t.reg 0xA128 = s.reg 0xA128 + 1#32 ∧ (t.reg 0xA010).getLsbD 5 = true)
      ∧ (s.gets 2 1 m → s.tally.waiting = [] →
        (∀ h, u.judge c false = .wait h → Leaves (.tallyContrib m) s fun t => t.seen = s.seen ∧ t.tally.waiting = [(c, h)])
        ∧ (∀ k, u.judge c false = .reject k → Leaves (.tallyContrib m) s fun t => t.seen = s.seen ∧ t.tally = s.tally
            ∧ let cnt := if k = 1 then 0xA120 else 0xA124
              t.reg cnt = s.reg cnt + 1#32)
        ∧ ∀ row held d, u.judge c false = .stage row held → u.arenaOpen c row d →
            Leaves (.tallyContrib m) s fun t => Staged s t c row d)
      ∧ (s.gets 3 2 m → q.su = false → u.inBcastGroup q.src = true →
        let i : Inval := ⟨q.addr.toNat % 4, q.tid, leNat (q.data.take 8) % 2 ^ 57, leNat (q.data.drop 8)⟩
        Leaves (.ctrlXinv m) s fun t => t.seen = s.seen ∧ (∀ e ∈ t.xlat.itlb, i.covers e = false) ∧ (∀ e ∈ t.xlat.dtlb, i.covers e = false)
          ∧ (∀ e ∈ t.xlat.ovf, i.covers e = false) ∧ (∀ e ∈ t.xlat.l2, i.covers e.2 = false)
          ∧ t.cpu.loop = none
          ∧ let b := if s.cpu.midUnits then s.cpu.ptag + 1 else s.cpu.ptag
            (s.doneBefore b = false → t.net.xinvs = s.net.xinvs ++ [(q, b)])
              ∧ (s.doneBefore b = true → ∃ r : State, t = r.answer ⟨3, 3, 0, q.tid, s.stamp, 0, q.tag, []⟩ q.src q.su))
      ∧ (s.gets 3 3 m →
        let due (b : Bcast) : Prop := q.tag.toNat = fld (s.reg 0x311C) 24 8 ∧ q.su = false ∧ q.src ∈ b.waiting
        (∀ b, s.xlat.bcast = some b → due b → Leaves (.ctrlXack m) s fun t =>
            let rest := b.waiting.filter fun i => i != q.src
            (rest = [] → t.xlat.bcast = none ∧ t.seen = s.seen.next 5)
              ∧ (rest ≠ [] → t.seen = s.seen ∧ ∃ f, t.xlat.bcast = some ⟨rest, f⟩))
          ∧ ((∀ b, s.xlat.bcast = some b → ¬ due b) → Leaves (.ctrlXack m) s fun t =>
            t.seen = s.seen ∧ t.xlat = s.xlat ∧ t.reg 0x3130 = s.reg 0x3130 + 1#32 ∧ (t.reg 0x3010).getLsbD 2 = true))
      ∧ (s.gets 3 4 m → exec (.ctrlHole m) s = .next (u.freeMsg q))
      ∧ (s.laneOpen m.lane = true → s.bufferFits m = true → m.cls = 3#2 → m.opc = 4#6 → u.malformed m = false → u.accepts q = false →
        Leaves (.ctrlHole m) s fun t => t.seen = s.seen ∧ (t.reg 0x7010).getLsbD 4 = true)

/-- Arriving answers, notices, contributions and control messages. -/
def Obligations.AnswersAndMessagesTakeEffect : Prop :=
  AnswersCompleteTheirAccess ∧ NoticesContributionsAndControl

/-! ## Lanes -/

/-- A lane's signals count: it is up and enabled, and the part is neither in SLEEP nor OFF. -/
def Sys2Proof.Machine.State.live (s : State) (n : Fin 2) : Prop :=
  s.net.lanes[n].up = true ∧ s.net.lanes[n].en = true ∧ s.pwr.state.toNat < 3

/-- A command leaves a lane as `l`, and what software sees as it was. -/
def Sys2Proof.Machine.LeavesLane (i : Instr) (s : State) (n : Fin 2) (l : Lane) (p : State → Prop) : Prop :=
  Leaves i s fun t => t.net.lanes[n] = l ∧ t.seen = s.seen ∧ p t

/-- A lane after one more flit on a channel: a credit less, one number on, the flit kept for replay. -/
def Sys2Proof.Machine.Lane.after (l : Lane) (c : Fin 4) (f : SentFlit) : Lane :=
  { l with credits := l.credits.set c (l.credits[c] - 1), txSeq := l.txSeq + 1, sent := keep128 (l.sent ++ [f]) }

/-- LANES, nothing being held back: one that comes up starts anew, enabled unless retired, returns its credits and keeps what waits to be sent; one that goes down
starts anew, its unresolved messages going out on the other behind what has begun there and before any new message; a credit
counts, a CTRL credit before HELLO lets HELLO go, a credit for the one message that waits lets its next flit go; HELLO is repeated while none has come;
the first HELLO gives the link the lower of both highest versions and the common features of that version, or fails; a flit that is discarded is
counted, the first raising a replay request, repeated until the flit expected comes; a replay asked for of a kept number is noted and counted, of a
number no longer kept it retires the lane; a fenced core sends its HOLE notice once. (Where an event is counted on the lane's channel: below the
channel's threshold.) -/
def Obligations.LanesFollowTheirSignals : Prop :=
  ∀ (s : State) (n o : Fin 2), o ≠ n →
    let l := s.net.lanes[n]
    let low : Prop := s.level n.val + 1 < s.thresh
    (s.settled → l.up = false → s.rst.wholeLow = false → s.pwr.state.toNat < 3 →
        exec (.laneUp n) s = .next (s.setLane n { Lane.init with
          up := true, en := !l.retired, retired := l.retired, rxCredit := Vector.replicate 4 16, txq := l.txq.map fun x => (x.1, 0) }))
      ∧ (s.settled → l.up = true → l.retired = false → s.net.lanes[o].active = true → s.net.lanes[o].credits = Vector.replicate 4 0 →
        LeavesLane (.laneDown n) s n { Lane.init with en := l.en } fun t =>
          t.net.lanes[o] = { s.net.lanes[o] with txq :=
            (s.net.lanes[o].txq.filter fun x => x.2 != 0) ++ l.unresolved.map (fun m => (m, 0)) ++ s.net.lanes[o].txq.filter fun x => x.2 == 0 })
      ∧ (s.live n → ∀ vc : Fin 4,
        (l.txq = [] → (vc = 3 → l.helloSent = true) →
            LeavesLane (.txCredit n vc) s n { l with credits := l.credits.set vc (l.credits[vc] + 1) } fun _ => True)
          ∧ (l.txq = [] → vc = 3 → l.helloSent = false →
            LeavesLane (.txCredit n vc) s n
              { (Lane.after { l with credits := l.credits.set vc (l.credits[vc] + 1) } 3 ⟨l.txSeq, none, 0⟩) with helloSent := true } fun _ => True)
          ∧ ∀ m k, l.txq = [(m, k)] → chan m.cls = vc → l.credits = Vector.replicate 4 0 → (vc = 3 → l.helloSent = true) → l.active = true →
            k < m.flits → LeavesLane (.txCredit n vc) s n
              { l with txq := if k + 1 < m.flits then [(m, k + 1)] else [], txSeq := l.txSeq + 1
                       sent := keep128 (l.sent ++ [⟨l.txSeq, some m, k⟩]) } fun _ => True)
      ∧ (s.live n → l.helloSent = true → l.peer = none → 0 < l.credits[(3 : Fin 4)] →
        LeavesLane (.helloRetry n) s n (l.after 3 ⟨l.txSeq, none, 0⟩) fun _ => True)
      ∧ (∀ h : Hello, h.lane = n → s.laneOpen n = true → h.flits = 1 → h.ver = 0#8 → h.vc = 3 → l.peer = none → l.txq = [] →
        s.net.lanes[o].active = false →
        let took := { l with rxSeq := l.rxSeq + 1#8, rxCredit := l.rxCredit.set 3 (l.rxCredit[(3 : Fin 4)] + 1), peer := some (h.maxver, h.minver, h.features, h.pos) }
        let v := min 2 h.maxver.toNat
        (max 1 h.minver.toNat ≤ v → LeavesLane (.ctrlHello h) s n { took with neg := true } fun t =>
            t.net.link = some ⟨BitVec.ofNat 8 v, h.features &&& (if v = 1 then 0x3#32 else 0x1F#32), h.maxver, h.minver, h.features⟩
              ∧ (t.reg 0x7010).getLsbD 0 = true)
          ∧ (v < max 1 h.minver.toNat → LeavesLane (.ctrlHello h) s n took fun t =>
            t.net.link = s.net.link ∧ (t.reg 0x7010).getLsbD 5 = true))
      ∧ (s.live n → low →
        (l.rxBad = false → ∀ f ∈ [FlitFault.badCrc, .badSeq],
            LeavesLane (.flitRxReject n f) s n { l with rxBad := true, rxNak := some l.rxSeq } fun t => t.reg 0x7128 = s.reg 0x7128 + 1#32)
          ∧ (LeavesLane (.flitRxReject n .noCredit) s n l fun t => t.reg 0x7128 = s.reg 0x7128 + 1#32)
          ∧ (l.rxBad = true → LeavesLane (.nakRetry n) s n { l with rxNak := some l.rxSeq } fun _ => True)
          ∧ ∀ q, s.settled → (∃ f ∈ l.sent, f.seq = q) → (l.nakSeq = some q → l.nakCount < 8) →
            LeavesLane (.txNak n q) s n { l with nakSeq := some q, nakCount := if l.nakSeq = some q then l.nakCount + 1 else 1 } fun t =>
              t.reg (0x7120 + 4 * n.val) = s.reg (0x7120 + 4 * n.val) + 1#32)
      ∧ (s.live n → l.rxBad = true → exec (.goodFlitExpected n) s = .next (s.setLane n { l with rxBad := false, rxNak := none }))
      ∧ (s.live n → s.settled → ∀ q, (∀ f ∈ l.sent, f.seq ≠ q) → Leaves (.txNak n q) s fun t => t.net.lanes[n].retired = true)
      ∧ ∀ r, s.ras.fence = some r → s.net.holeDue = true → l.active = true → 0 < l.credits[(3 : Fin 4)] → Leaves .holeNoticeSend s fun t =>
        t.net.holeDue = false ∧ t.seen = s.seen ∧ ∃ u : State, t =
          u.postOther ⟨3, 4, 0, 0, s.stamp, BitVec.ofNat 56 (r.toNat * 2 ^ 24 + s.physWord.toNat), 0, []⟩ (s.reg 0x7114)

/-! ## The scratchpad's groups, S1, BOOT -/

/-- What a load's bytes do when the last of them arrive: the load is gone and its destination written. -/
def Sys2Proof.Machine.Arrived (s t : State) (p : Piece) (bs : List Byte) : Prop :=
  ∀ job, s.cpu.loads.find? (fun j => j.id == p.job) = some job → job.missing = p.len → job.bad = false → (∀ n c, job.dest ≠ .crc n c) →
    t.cpu.loads = s.cpu.loads.filter (fun j => j.id != p.job)
      ∧ t.seen = s.seen.loaded job.dest
        (job.fwd.foldl (fun b f => putBytes b f.1 f.2) (putBytes job.bytes p.pos ((bs.drop p.off).take p.len)))

/-- A unit corrected by a read, its group having power, is written back: no wrong bit stays in it (here of the activation class, its words correctable), and its bytes are
those that it reads as; no other unit changes. An S1 or BOOT request that is offered is accepted while fewer than 16, or four, are outstanding; a scrub
then offers its next write; an answer goes to the load that asked; the header's fourth word ends the image header's reading. -/
def Sys2Proof.Machine.WriteBacksAndHandshakes : Prop :=
  ∀ s : State,
    (∀ u rest, s.spx.corr = u :: rest → s.weightClass u = false → s.unitDown u = false →
        (decodeUnit false (s.mark u) (s.unitData u) (s.mark u).flips).bad = 0#4 → Leaves .spxCorrWriteback s fun t =>
          t.spx.corr = rest.filter (· != u) ∧ (t.mark u).flips = 0#288
            ∧ t.unitData u = (decodeUnit false (s.mark u) (s.unitData u) (s.mark u).flips).data
            ∧ (∀ a, a < 32 * u ∨ 32 * u + 32 ≤ a → t.spx.mem.get a = s.spx.mem.get a) ∧ { t.seen with spx := s.seen.spx } = s.seen)
      ∧ (∀ q rest, s.spx.s1offered = q :: rest → s.spx.s1out.length < 16 →
        let u : State := { s with spx := { s.spx with s1offered := rest, s1out := s.spx.s1out ++ [q] } }
        let k := s.rst.scrubAt
        exec .spx1ReqAccept s = .next (if s.rst.phase = .scrub ∧ k < s.build.capacity / 64 then
          { u with rst := { s.rst with scrubAt := k + 1 }, spx := { u.spx with s1offered := rest ++ [scrubReq k] } } else u))
      ∧ (∀ q rest p data, s.spx.s1out = q :: rest → q.we = false → q.piece = some p → Leaves (.spx1Rsp data false) s fun t =>
        t.spx.s1out = rest ∧ Arrived s t p (leBytes data.toNat 64))
      ∧ (∀ q rest data err, s.spx.s1out = q :: rest → q.we = true →
        exec (.spx1Rsp data err) s = .next { s with spx := { s.spx with s1out := rest } })
      ∧ (∀ q rest, s.boot.offered = q :: rest → s.porter = true → s.boot.out.length < 4 →
        exec .bootReqAccept s = .next { s with boot := { s.boot with offered := rest, out := s.boot.out ++ [q] } })
      ∧ (∀ q rest p data, s.boot.out = q :: rest → q.header = none → q.debug = false → q.fetch = false → q.walk = none → q.we = false → q.piece = some p →
        Leaves (.bootResponse data false) s fun t => t.boot.out = rest ∧ Arrived s t p (leBytes data.toNat 8))
      ∧ ∀ q rest data err n, s.boot.out = q :: rest → q.header = some n →
        (n ≠ 3 → exec (.bootResponse data err) s = .next { s with boot :=
            { s.boot with out := rest, header := s.boot.header ++ [data], bad := s.boot.bad || err } })
          ∧ (n = 3 → Leaves (.bootResponse data err) s fun t =>
            let h := s.boot.header ++ [data]
            let c := headerCheck h (s.boot.bad || err)
            let entry := leNat (((h.flatMap fun d => leBytes d.toNat 8).drop 8).take 4)
            t.rst.booting = false ∧ (c = 0 → t.rst.phase = s.rst.phase ∧ t.seen = { s.seen with ip := 0xFC000000000000#64 + w64 entry })
              ∧ (c ≠ 0 → t.rst.phase = .bootfail ∧ t.seen = s.seen))

/-- GROUPS of a Spec 2 build: the acknowledge of an opening group begins its zero-fill; at the fill's end the group is zero and ON (no release being
kept); a closing group with nothing outstanding goes OFF, its contents lost; a bank that loses its power takes an ON or CLOSING group OFF with its
contents, and is retired. A group goes on to follow its bit of SPX_BANKPWR. -/
def Sys2Proof.Machine.GroupsOpenAndClose : Prop :=
  ∀ (s : State) (g : Fin 16), s.build.s2 = true →
    let n := s.build.groupBytes
    let zero (t : State) : Prop := ∀ a, t.spx.mem.get a = if g.val * n ≤ a ∧ a < g.val * n + n then 0#8 else s.spx.mem.get a
    let want : Bool := (s.reg 0x6118).getLsbD g.val
    let shut : GroupState := if s.inService g.val && want then .opening else .off
    (s.spx.groups[g] = .opening → exec (.groupPwrAck g) s = .next { s with spx := { s.spx with filling := s.spx.filling ||| (1#16 <<< g.val) } })
      ∧ (s.spx.groups[g] = .opening → s.spx.filling.getLsbD g.val = true → s.rst.releaseKept = false → Leaves (.groupOpenDone g) s fun t =>
        zero t ∧ { t.seen with spx := s.seen.spx } = s.seen ∧ t.spx.groups[g] = if s.inService g.val && !want then .closing else .on)
      ∧ (s.spx.groups[g] = .closing → s.groupBusy g.val = false → Leaves (.groupCloseDone g) s fun t =>
        zero t ∧ { t.seen with spx := s.seen.spx } = s.seen ∧ t.spx.groups[g] = shut)
      ∧ ∀ b : Fin 128, b.val < s.build.nBanks → b.val / 8 = g.val → s.spx.groups[g] = .on ∨ s.spx.groups[g] = .closing → s.spx.reads = [] →
        Leaves (.bankPwrAckLoss b) s fun t =>
          zero t ∧ { t.seen with spx := s.seen.spx } = s.seen ∧ t.spx.groups[g] = .off ∧ t.retired (0x80 + b.val) = true

/-- Corrected write-backs, the handshakes of the memory ports, the power of bank groups. -/
def Obligations.WriteBacksHandshakesAndGroups : Prop :=
  WriteBacksAndHandshakes ∧ GroupsOpenAndClose

/-! ## Time and the Tally -/

/-- THE BELL, the clock running: a pulse makes the tick the loaded one, or the next; C and the overtime start at 0; UNSYNC falls with a load; a substituted bell is the
next tick and sets UNSYNC; SPLIT and APPLY_AT are reached in turn (the core serving, the other one behind, neither ramp nor allowance in force), the
split hook adding to its counter; overtime begins at the last cycle of a bell. -/
def Obligations.BellsAndTheirOffsets : Prop :=
  ∀ s : State, s.clockOn = true →
    let plain : Prop := s.bell.ot = 0 ∧ s.enRamp = false ∧ s.enAllow = false
    (∀ load allow upsets, Leaves (.bellPulse load allow upsets) s fun t =>
        t.bell.tick = load.getD (s.bell.tick + 1#40) ∧ t.bell.c = 0 ∧ t.bell.ot = 0
          ∧ t.bell.unsync = (s.bell.unsync && load.isNone) ∧ { t.seen with sync := s.seen.sync } = s.seen)
      ∧ (∀ allow, Leaves (.substitutedBell allow) s fun t => t.bell.tick = s.bell.tick + 1#40 ∧ t.bell.c = 0 ∧ t.bell.ot = 0
        ∧ t.bell.unsync = true)
      ∧ (s.serving = true → plain → s.bell.splitDone = false → s.bell.applyDone = true → s.bell.c < s.split → s.split < s.period →
        Leaves .splitPoint s fun t => t.bell.c = s.split ∧ t.bell.tick = s.bell.tick ∧ t.bell.splitDone = true
          ∧ t.seen = if (s.reg 0x9100).getLsbD 30 then s.seen.addSync (ctr (fld (s.reg 0x9100) 24 6)) 1#32 else s.seen)
      ∧ (plain → s.bell.splitDone = true → s.bell.applyDone = true → 0 < s.period → s.bell.c ≤ s.period - 1 → Leaves .overtime s fun t =>
        t.bell.c = s.period - 1 ∧ t.bell.ot = 1 ∧ t.bell.tick = s.bell.tick)
      ∧ (s.serving = true → plain → s.bell.splitDone = true → s.bell.applyDone = false → s.bell.unsync = false → s.tally.apply = none → s.bell.c < s.applyAt →
        s.applyAt < s.period → Leaves .tallyApplyStart s fun t =>
          let tick := s.bell.tick - 1#40
          t.bell.c = s.applyAt ∧ t.bell.tick = s.bell.tick ∧ t.bell.applyDone = true ∧ t.seen = s.seen
            ∧ (s.armedSlots tick = [] → t.tally = s.tally)
            ∧ ∀ n ns d, s.armedSlots tick = n :: ns → (s.slot n).desc = some d →
              let rows := completeRows d ((s.slot n).rows (bufOf tick))
              d.expect ≤ rows.length → t.tally.apply = some ⟨tick, ⟨n, d, sortRows rows⟩, ns, d.cycles rows.length⟩)
      ∧ (s.ras.leakDue = true → (s.ras.levels.map Prod.fst).Nodup → Leaves .rasLeak s fun t =>
        t.reg 0xD108 = 0#32 ∧ (∀ ch, t.level ch = if s.retired ch then s.level ch else s.level ch - 1) ∧ t.seen = s.seen)

/-- THE TALLY: the descriptor of the lowest newly armed slot (of an activation-class unit without a wrong bit), if legal and within the scratchpad, is kept; if illegal the slot is
refused; the last slot's apply, here one row that replaces, puts the row's vector into DEST (pairs of F32C in R77's form), empties the buffer and adds to the done counter; a held
contribution is staged once its tests let it, refused if they refuse it. -/
def Obligations.TallySlotsAndApplies : Prop :=
  ∀ s : State,
    (∀ n : Fin 64, s.serving = true → s.nextUnread = some n.val → s.tally.waiting = [] → s.build.s2 = true →
        let base := (s.reg64 0xA104).toNat + 32 * n.val
        base % 32 = 0 → s.rangeCheck ⟨.internal, .d, 0⟩ base 32 = none → s.weightClass (base / 32) = false →
        s.mark (base / 32) = ⟨base / 32, 0#4, 0#4, 0#288, none⟩ → Leaves (.tallyDescRead n 0#288) s fun t => t.seen = s.seen
          ∧ (t.slot n.val).unread = false
          ∧ (∀ d, parseDesc (s.spx.mem.read base 32) = some d → s.descRanges d = true → (t.slot n.val).desc = some d)
          ∧ (parseDesc (s.spx.mem.read base 32) = none → (t.slot n.val).desc = none ∧ (t.reg 0xA010).getLsbD 4 = true))
      ∧ (∀ a row k, s.tally.apply = some a → a.todo = [] → a.cur.rows = [(k, row)] → a.cur.desc.replace = true → s.tally.waiting = [] →
        s.build.s2 = true → s.tally.due = none → (∀ u, s.mark u = ⟨u, 0#4, 0#4, 0#288, none⟩) → (∀ u, s.weightClass u = false) → (∀ u, s.unitDown u = false) →
        let d := a.cur.desc
        let src := d.rowAt (bufOf a.tick) k + 64
        Leaves .tallySlotApplyDone s fun t => t.tally.apply = none
          ∧ (d.fmt ≠ 0xA → ∀ j, j < d.total → t.spx.mem.get (d.dest + j) = s.spx.mem.get (src + j))
          ∧ (d.fmt = 0xA → ∀ k, k < d.count → t.spx.mem.read (d.dest + 8 * k) 8
              = leBytes (pairOf (leNat (s.spx.mem.read (src + 8 * k) 8))).canon.num 8)
          ∧ { t.seen with spx := s.seen.spx } = if d.doneEn then s.seen.addSync (ctr d.done) 1#32 else s.seen)
      ∧ ∀ m h, s.tally.waiting = [(m, h)] → s.ras.fence = none → s.resetting = false →
        (∀ h', s.judge m h = .wait h' → exec .tallyHeldStage s = .next { s with tally := { s.tally with waiting := [(m, h || h')] } })
          ∧ (∀ k, s.judge m h = .reject k → Leaves .tallyHeldStage s fun t => t.tally.waiting = [] ∧ t.seen = s.seen)
          ∧ ∀ row held d, s.judge m h = .stage row held → s.arenaOpen m row d → Leaves .tallyHeldStage s fun t =>
            t.tally.waiting = [] ∧ Staged s t m row d

/-! ## Resets -/

/-- A requested reset of a kind has entered its drain: the work in progress is gone, the sync counters and the Tally are cleared, the operand tiles, the
pool and the pipeline's registers are as they were (R425, R426). -/
def Sys2Proof.Machine.Draining (s t : State) (kind : Nat) : Prop :=
  t.rst.phase = .drain ∧ t.rst.kind = kind ∧ t.rst.fenceDrain = false ∧ t.tile.queue = [] ∧ t.cpu.div = none ∧ t.tally = Tally.init
    ∧ t.seen = { s.seen with sync := Vector.replicate 64 0#32 } ∧ t.pwr.level = 0 ∧ t.bell.tick = s.bell.tick

/-- The core has started at an address (R417): level M, every G register, BRC, VEIDX and vector 0, nothing cached or translated. -/
def Sys2Proof.Machine.Started (t : State) (ip : DWord) : Prop :=
  t.cpu.ip = ip ∧ t.cpu.flags = 0x800#64 ∧ t.cpu.g = Vector.replicate 32 0#64 ∧ t.cpu.brc = 0#64 ∧ t.cpu.veidx = 0#64
    ∧ t.cpu.vecs = Vector.replicate 6 0#64 ∧ t.cpu.sb = [] ∧ t.caches = Caches.init ∧ t.xlat = Xlat.init ∧ (t.reg 0xF010).getLsbD 0 = true

/-- RESETS, nothing being held: the whole reset leaves the reset state, but for the inputs of the debug ports, which its release gives with the straps; fuse words fill in order, the first giving the life-cycle
state, the last sending the core to BAD, to the image header (a porter), or to WAIT; a request, from the port or by CORE_RST, of a running core enters its
drain; the drain ends with every access done, or at its limit with every tag absorbed, in the scrub where one is wanted, else held, or BAD after a
fence; the scrub, its last write taken, leaves tile storage, F registers and every group in service and ON zero; a release, both rails good, starts the core at
RESET_START. -/
def Obligations.ResetsRunTheirPhases : Prop :=
  ∀ s : State,
    (exec .rstWholeAssert s = .next { State.reset with
        build := s.build, fresh := s.fresh, pending := s.pending, dbg := { Debug.init with trstn := s.dbg.trstn, wsel := s.dbg.wsel } })
      ∧ (s.rst.wholeLow = true → ∀ straps trstn wsel, exec (.rstWholeRelease straps trstn wsel) s
        = .next { s with straps := straps, rst := { s.rst with wholeLow := false }
                         dbg := { s.dbg with trstn := trstn, wsel := wsel } })
      ∧ (s.rst.phase = .fuse → s.rst.wholeLow = false → s.rst.fuseIdx < 16 → ∀ v, Leaves (.fuseAck v) s fun t =>
        t.rst.fuseIdx = s.rst.fuseIdx + 1 ∧ t.life.fuses = s.life.fuses.set s.rst.fuseIdx v
          ∧ (t.life.shadow = if s.rst.fuseIdx = 0 then (decodeFuse0 v).1 else s.life.shadow)
          ∧ t.rst.phase = if s.rst.fuseIdx < 15 then .fuse else if t.fuseBad then .bad else if s.porter then
              (if s.ras.fence.isSome then .bad else .run) else .wait)
      ∧ (s.quiet → s.rst.wholeLow = false → s.rst.phase = .run → s.pwr.state.toNat < 2 →
        (∀ k : BitVec 2, k ≠ 3#2 → Leaves (.rstReq k) s fun t => Draining s t k.toNat)
          ∧ ∀ who, s.reaches who 0xF = true → Leaves (.resetCoreRst who) s fun t => Draining s t 0)
      ∧ (s.quiet → s.rst.phase = .drain →
        let next : Phase := if s.rst.scrubWanted then .scrub else if s.rst.fenceDrain then .bad else .held
        (s.accessesDone = true → Leaves .drainComplete s fun t =>
            t.rst.phase = next ∧ t.net.tags = s.net.tags ∧ t.cpu.sb = [] ∧ t.cpu.loads = [] ∧ t.seen = s.seen)
          ∧ Leaves .drainTimeout s fun t => t.rst.phase = next ∧ t.net.tags = s.net.tags.map (fun e => { e with absorbed := true })
            ∧ t.rst.absorbed = s.openTags.length ∧ t.cpu.sb = [] ∧ t.cpu.loads = [] ∧ t.seen = s.seen)
      ∧ (s.quiet → s.rst.phase = .scrub → (s.scrubOut = false → exec .scrubDone s = .next s) ∧ (s.scrubOut = true → Leaves .scrubDone s fun t =>
        t.rst.phase = (if s.rst.fenceDrain then .bad else .held) ∧ t.tile.ops = [] ∧ t.tile.pool = [] ∧ t.cpu.f = Vector.replicate 32 0#64
          ∧ t.cpu.g = s.cpu.g
          ∧ ∀ g : Fin 16, s.build.s2 = true → s.inService g.val = true → s.spx.groups[g] = .on →
            ∀ a, g.val * s.build.groupBytes ≤ a → a < g.val * s.build.groupBytes + s.build.groupBytes → t.spx.mem.get a = 0#8))
      ∧ (s.quiet → s.rst.phase = .held → s.pwr.railOk ≠ 3#2 ∨ s.life.taint = true → exec .rstHoldRelease s = .next s)
      ∧ (s.quiet → s.rst.phase = .held → s.pwr.railOk = 3#2 → s.life.taint = false → s.ras.fence = none → Leaves .rstHoldRelease s fun t =>
        t.rst.phase = .run ∧ Started t (s.reg64 0xF10C) ∧ t.rst.last = (if s.rst.wake then 4 else s.rst.kind + 1) ∧ t.life.shadow = s.life.granted.getD s.life.shadow ∧ t.life.granted = none
          ∧ (s.rst.kind = 2 → t.pitch.die = s.pitch.stagedDie) ∧ (s.rst.kind ≠ 2 → t.pitch = s.pitch)
          ∧ (s.rst.sleep = false ∨ s.rst.scrubDone = true → t.cpu.f = s.cpu.f ∧ t.tile.ops = s.tile.ops ∧ t.tile.pool = s.tile.pool))
      ∧ (∀ who, s.reaches who 0xF = true → s.rst.phase = .wait → s.rst.wholeLow = false → s.life.taint = false → s.ras.fence = none →
        (s.groupsOn = true → s.pwr.railOk = 3#2 → Leaves (.resetRelease who) s fun t =>
            t.rst.phase = .run ∧ Started t (s.reg64 0xF10C) ∧ t.pitch.die = s.pitch.stagedDie)
          ∧ (s.groupsOn = false ∨ s.pwr.railOk ≠ 3#2 →
            exec (.resetRelease who) s = .next { s.latchWfi with rst := { s.rst with releaseKept := true } }))

/-! ## Power -/

/-- THE WEIGHBRIDGE AND POWER STATES, the clock running and nothing held: E at the allowance exhausts it, T being 0 from then on; L moves by one step toward T in the
first cycle in which it may (no allowance in force);
temp_code is taken, HOT and TEMP_CRIT being raised where it newly reaches their codes, the hold lasting until it is below both; the throttle is
taken; a request is taken, IDLE and NAP changing at once, but IDLE being reached with rail 1 good; a state is entered where nothing stands against it; a wake from IDLE or NAP begins on a request or a
source and ends in RUN; a rail that falls while it is needed is a machine check and a core reset. -/
def Obligations.PowerFollowsItsInputs : Prop :=
  ∀ s : State, s.clockOn = true → s.quiet →
    (s.enAllow = true → s.pwr.unsampled = false → s.spent = true → s.pwr.exhausted = false → Leaves .allowanceExhausted s fun t =>
        t.pwr = { s.pwr with exhausted := true } ∧ (t.reg 0xC010).getLsbD 0 = true ∧ t.reg 0xC128 = s.reg 0xC128 + 1#32 ∧ t.target = 0
          ∧ { t with regs := s.regs, pwr := s.pwr } = s)
      ∧ (s.enRamp = true → s.enAllow = false → s.bell.splitDone = true → s.bell.applyDone = true → s.bell.c ≤ s.period - 1 →
        s.pwr.level ≠ s.target → (s.pwr.level < s.target → s.staggerPoint ≤ s.bell.c) →
        let a := s.age + max 1 (s.rampStep - s.pwr.since)
        a ≤ s.period - 1 + 1024 → Leaves .rampLevelStep s fun t => t.age = a ∧ t.bell.tick = s.bell.tick ∧ t.seen = s.seen
          ∧ t.pwr.level = (if s.target < s.pwr.level then s.pwr.level - 1 else s.pwr.level + 1) ∧ t.pwr.since = 0)
      ∧ (∀ code : Byte, ∀ i ∈ [Instr.tempHot code, .tempCrit code, .tempCool code], Leaves i s fun t =>
        let hot := fld (s.reg 0xC108) 0 8
        let crit := fld (s.reg 0xC108) 8 8
        let newHot : Prop := hot ≤ code.toNat ∧ s.pwr.hotSeen = false
        let newCrit : Prop := crit ≤ code.toNat ∧ s.pwr.critSeen = false
        t.pwr.temp = code ∧ (t.pwr.hotSeen = true ↔ hot ≤ code.toNat) ∧ (t.pwr.critSeen = true ↔ crit ≤ code.toNat)
          ∧ (t.pwr.tempHold = true ↔ crit ≤ code.toNat ∨ (s.pwr.tempHold = true ∧ min hot crit ≤ code.toNat))
          ∧ ((t.reg 0xC010).getLsbD 1 = true ↔ (s.reg 0xC010).getLsbD 1 = true ∨ newHot)
          ∧ ((t.reg 0xC010).getLsbD 2 = true ↔ (s.reg 0xC010).getLsbD 2 = true ∨ newCrit)
          ∧ { t with regs := s.regs, pwr := s.pwr } = s)
      ∧ (∀ level, exec (.pwrThrottle level) s = .next { s with pwr := { s.pwr with throttle := level } })
      ∧ (∀ req, (s.pwr.state = 0#3 → exec (.pwrStateReq req) s = .next { s with pwr := { s.pwr with req := req } })
        ∧ (s.pwr.waking = none →
          (s.pwr.state = 1#3 → req = 2#3 → exec (.pwrStateReq req) s
              = .next { s with pwr := { s.pwr with req := req, state := 2#3, railEn := 1#2 } })
            ∧ (s.pwr.state = 2#3 → req = 1#3 → exec (.pwrStateReq req) s
              = .next { s with pwr := { s.pwr with req := req, state := if s.pwr.railOk.getLsbD 1 then 1#3 else 2#3, railEn := 3#2 } })
            ∧ (s.pwr.state = 2#3 → req = 2#3 → exec (.pwrStateReq req) s = .next { s with pwr := { s.pwr with req := req, railEn := 1#2 } })))
      ∧ (s.pwr.state = 0#3 → s.canRest = true →
        (s.pwr.req = 1#3 → exec .pwrStateEnter s = .next { s with pwr := { s.pwr with state := 1#3 } })
          ∧ (s.pwr.req = 2#3 → exec .pwrStateEnter s = .next { s with pwr := { s.pwr with state := 2#3, railEn := 1#2 } })
          ∧ (s.canSleep = true → s.pwr.req = 3#3 ∨ s.pwr.req = 4#3 → Leaves .pwrStateEnter s fun t =>
            t.pwr.state = s.pwr.req ∧ t.pwr.railEn = 0#2 ∧ t.spx.mem = [] ∧ (∀ g : Fin 16, t.spx.groups[g] = .off)
              ∧ { t with spx := s.spx, net := s.net, pwr := s.pwr } = s))
      ∧ (reqState s.pwr.req = 0 ∨ s.wakeSource = true → s.pwr.waking = none →
        (s.pwr.state = 1#3 → exec .wakeStart s = .next { s with pwr := { s.pwr with waking := some 0 } })
          ∧ (s.pwr.state = 2#3 → exec .wakeStart s = .next { s with pwr := { s.pwr with
            waking := some 0, railEn := 3#2, railUp := if s.pwr.railOk.getLsbD 1 then some 0 else none } }))
      ∧ (∀ rail : Fin 2, s.rst.railWait = none → s.rst.releaseKept = false → exec (.pwrRailOkRise rail) s = .next { s with pwr := { s.pwr with
          railOk := s.pwr.railOk ||| (1#2 <<< rail.val)
          state := if s.pwr.state = 2#3 ∧ s.pwr.waking = none ∧ s.pwr.req = 1#3 ∧ (s.pwr.railOk.getLsbD 1 = true ∨ rail = 1) then 1#3 else s.pwr.state
          railUp := if rail = 1 ∧ s.pwr.waking.isSome ∧ s.pwr.railUp.isNone then some 0 else s.pwr.railUp } })
      ∧ (s.pwr.waking.isSome = true → s.pwr.state = 1#3 ∨ (s.pwr.state = 2#3 ∧ s.pwr.railUp.isSome = true ∧ s.pwr.railOk.getLsbD 1 = true) →
        Leaves .wakeComplete s fun t => t.pwr.state = 0#3 ∧ t.pwr.waking = none)
      ∧ (∀ rail : Fin 2, s.rst.phase = .run → s.pwr.state.toNat < 2 → Leaves (.railFail rail) s fun t =>
        t.pwr.railOk = s.pwr.railOk &&& ~~~(1#2 <<< rail.val) ∧ t.mchkOut = true ∧ Draining s t 0)

/-! ## Life cycle -/

/-- A request of a transition is refused with a result: LIFE_XSTAT.RESULT and XFAIL (R450). -/
def Sys2Proof.Machine.Refused (s t : State) (result : Nat) : Prop :=
  fld (t.reg 0xE10C) 0 8 = result ∧ (t.reg 0xE010).getLsbD 2 = true ∧ t.seen = s.seen ∧ t.rst = s.rst ∧ t.life.granted = s.life.granted
    ∧ t.life.shadow = s.life.shadow

/-- A transition is granted: it is recorded, GRANT raised, and a running core begins a core reset that scrubs (R451). -/
def Sys2Proof.Machine.Granted (s t : State) (target : Nat) : Prop :=
  t.life.granted = some (BitVec.ofNat 3 target) ∧ t.life.shadow = s.life.shadow ∧ t.reg 0xE10C = w32 (2 ^ 31 + target * 2 ^ 8 + 1)
    ∧ t.rst.scrubWanted = true ∧ Draining s t 0

/-- What a write of LIFE_XREQ does outside a verification, the core running (R450, R453): a wrong confirmation, a transition that the table lacks, a lockout refuse it;
RETURNED waits for its session; any other is granted. -/
def Sys2Proof.Machine.Requested (s t : State) (v : Word) : Prop :=
  let target := v.toNat % 8
  let ok : Prop := transitionOk s.life.shadow.toNat target = true ∧ s.life.granted = none
  (v.toNat / 2 ^ 16 ≠ 0x4C43 → Refused s t 3)
    ∧ (v.toNat / 2 ^ 16 = 0x4C43 → ¬ ok → Refused s t 2)
    ∧ (v.toNat / 2 ^ 16 = 0x4C43 → ok → target = 3 → s.life.lockout = true → Refused s t 6)
    ∧ (v.toNat / 2 ^ 16 = 0x4C43 → ok → target = 3 → s.life.lockout = false → t.life = { s.life with xreq := v } ∧ t.seen = s.seen ∧ t.rst = s.rst)
    ∧ (v.toNat / 2 ^ 16 = 0x4C43 → ok → target ≠ 3 → Granted s t target)

/-- What a SUBMIT with a confirmed request for RETURNED does in PRODUCTION (R453, R454): with a challenge the verification begins, without one it fails. -/
def Sys2Proof.Machine.Submitted (s t : State) : Prop :=
  (s.life.chal.isSome = true → t.life = { s.life with verifying := true, xreq := 0#32 } ∧ t.seen = s.seen ∧ t.rst = s.rst)
    ∧ (s.life.chal = none → Refused s t 4 ∧ t.life.fails = min 8 (s.life.fails + 1))

/-- A new challenge fills: it is open, the old one gone. -/
def Sys2Proof.Machine.Opened (s t : State) : Prop :=
  ∃ ws, ws.length = 8 ∧ t.life = { s.life with opening := some ws, chal := none } ∧ t.seen = s.seen

/-- THE LIFE CYCLE, the core running and nothing held: a transition request, a session's OPEN (in PRODUCTION, no lockout), its challenge coming ready or expiring, its
SUBMIT, and the verification's end: a good signature grants RETURNED, a bad one counts a failure, the eighth of which locks the session out. -/
def Obligations.LifeCycleRequestsAndSessions : Prop :=
  ∀ s : State, s.quiet → s.rst.wholeLow = false → s.rst.phase = .run → s.pwr.state.toNat < 2 →
    (∀ who v, s.reaches who 0xE = true → s.life.verifying = false →
        (Leaves (.lifeXreq who v) s fun t => Requested s t v)
          ∧ (s.life.lockout = false → s.life.shadow = 2#3 → Leaves (.lifeSessOpen who) s fun t => Opened s t)
          ∧ (s.life.lockout = false → s.life.shadow = 2#3 → s.life.granted = none → v.toNat / 2 ^ 16 = 0x4C43 → v.toNat % 8 = 3 →
            Leaves (.lifeSessSubmit who v) s fun t => Submitted s t))
      ∧ (∀ ws, s.life.opening = some ws → exec .challengeReady s = .next { s with life := { s.life with chal := some ws, opening := none } })
      ∧ (s.life.verifying = false → exec .challengeExpire s = .next { s with life := { s.life with chal := none, opening := none } })
      ∧ (∀ c, s.life.verifying = true → s.life.chal = some c →
        let phys := s.physWord ||| (if s.porter then 0x40000#32 else 0#32)
        (Config.signatureGood c phys s.life.resp = true → Leaves .lifeVerifyDone s fun t => Granted s t 3)
          ∧ (Config.signatureGood c phys s.life.resp = false → Leaves .lifeVerifyDone s fun t =>
            Refused s t 5 ∧ t.life.verifying = false ∧ t.life.chal = none ∧ t.life.fails = min 8 (s.life.fails + 1)
              ∧ (t.life.lockout = true ↔ s.life.lockout = true ∨ 7 ≤ s.life.fails)))

/-! ## Debug ports, asynchronous entries -/

/-- A debug instruction that is not permitted: the bypass is loaded, DENIED is raised, nothing else happens. -/
def Sys2Proof.Machine.Denied (s t : State) : Prop :=
  (t.reg 0xE010).getLsbD 4 = true ∧ t.seen = s.seen ∧ t.cpu = s.cpu ∧ t.life = s.life ∧ t.dbg.out = s.dbg.out

/-- THE DEBUG PORTS of a powered part, the TAP with dbg_trst_n high, the wrapper where it is selected (R16), else nothing happening; by the permission of the life-cycle state and LIFE_DBGOFF: an instruction that is permitted is loaded and acts, one that is not is refused.
A halt saves IP in LIFE_DBGPC; resume and step go on there; a halted core's G, F and special registers are read and written, the scratchpad at any
time; SCAN and the tests of the pool and operand tiles set TAINT; LIFE_XREQ and the session are reached as through the LIFE page. -/
def Obligations.DebugInstructions : Prop :=
  ∀ s : State, s.pwr.state.toNat < 3 →
    let loaded (i : Instr) (c : DbgClass) (wir : Byte) (p : State → Prop) : Prop :=
      (s.wrapped = true → (s.dbgAllows c = true → Leaves i s fun t => t.dbg.wir = wir ∧ p t)
          ∧ (s.dbgAllows c = false → s.settled → Leaves i s fun t => Denied s t ∧ t.dbg.wir = 0#8))
        ∧ (s.wrapped = false → s.settled → exec i s = .next s)
    let tap (i : Instr) (code : BitVec 5) : Prop :=
      (s.dbg.trstn = true → (s.dbgAllows (tapClass code) = true → Leaves i s fun t => t.dbg.tap = code ∧ t.seen = s.seen
            ∧ { t with dbg := s.dbg, fresh := s.fresh } = s ∧ (code = 1#5 → t.dbg.out = 0x39A11001#64))
          ∧ (s.dbgAllows (tapClass code) = false → Leaves i s fun t => Denied s t ∧ t.dbg.tap = 0x1F#5))
        ∧ (s.dbg.trstn = false → exec i s = .next s)
    let same (t : State) : Prop := { t with dbg := s.dbg, fresh := s.fresh } = s
    tap .tapIdcode 0x01 ∧ tap .tapSamplePreload 0x02 ∧ tap .tapExtest 0x03 ∧ tap .tapWrap 0x08 ∧ tap .tapBypass 0x1F
      ∧ loaded .wsBypass .free 0x00 same ∧ loaded .wsExtest .boundary 0x01 same ∧ loaded .wsIntest .control 0x02 same
      ∧ (s.cpu.halted = false → s.canSample = true → s.cpu.mchkDue = false → s.repDelays = false → loaded .dbgHalt .control 0x10 fun t =>
        t.cpu.halted = true ∧ t.cpu.fetched = [] ∧ t.reg64 0xE120 = s.cpu.ip ∧ t.seen = s.seen)
      ∧ (s.cpu.halted = true →
        (loaded .dbgResume .control 0x10 fun t => t.cpu.halted = false ∧ t.seen = { s.seen with ip := s.reg64 0xE120 })
          ∧ loaded .dbgStep .control 0x10 fun t => t.cpu.stepping = true ∧ t.seen = { s.seen with ip := s.reg64 0xE120 })
      ∧ (s.quiet →
        (s.cpu.halted = true → ∀ (n : Fin 32) (v : DWord),
            (loaded (.dbgAccess (.gRead n)) .access 0x11 fun t => t.dbg.out = s.seen.readG n ∧ t.seen = s.seen)
              ∧ (loaded (.dbgAccess (.gWrite n v)) .access 0x11 fun t => t.seen = s.seen.putG n v)
              ∧ (loaded (.dbgAccess (.fRead n)) .access 0x11 fun t => t.dbg.out = s.seen.readF n ∧ t.seen = s.seen)
              ∧ (loaded (.dbgAccess (.fWrite n v)) .access 0x11 fun t => t.seen = s.seen.putF n v)
              ∧ ∀ (k : Byte) (r : SpecialReg), specialReg k = some r →
                loaded (.dbgAccess (.srRead k)) .access 0x11 fun t => t.dbg.out = s.readSr r ∧ t.seen = s.seen)
          ∧ ∀ (pa : BitVec 56) (off : Nat) (wt : List Bool), s.physTarget pa.toNat = .spx off wt → dbgAligned pa.toNat = true →
            (s.rangeCheck ⟨.core 2 [0#16], .v, 0⟩ off 8 = none → s.build.s2 = true → (∀ w ∈ s.classes off 8, w = false) →
              (∀ k, s.mark k = ⟨k, 0#4, 0#4, 0#288, none⟩) → loaded (.dbgAccess (.memRead pa)) .access 0x11 fun t =>
                t.dbg.out = w64 (leNat (s.spx.mem.read off 8)) ∧ t.seen = s.seen)
              ∧ ∀ v : DWord, s.rangeCheck ⟨.core 2 [0#16], .v, 1⟩ off 8 = none → loaded (.dbgAccess (.memWrite pa v)) .access 0x11 fun t =>
                { t.seen with spx := s.seen.spx } = s.seen ∧ ∀ k, k < 8 → t.spx.mem.get (off + k) = (leBytes v.toNat 8).getD k 0#8)
      ∧ loaded .scan .internal 0x20 (fun t => t.life.taint = true ∧ t.spx = s.spx ∧ t.tile = s.tile)
      ∧ (∀ g : MbistTarget, loaded (.mbist g) .internal 0x21 fun t => t.cpu = s.cpu ∧ t.spx = s.spx
        ∧ t.life.taint = (s.life.taint || g == .pool || g == .operandTiles) ∧ (g ≠ .pool → t.tile.pool = s.tile.pool)
        ∧ (g ≠ .operandTiles → t.tile.ops = s.tile.ops))
      ∧ (loaded .lcStateRead .free 0x30 fun t => t.dbg.out = join64 (s.regNow 0xE100) (s.regNow 0xE10C) ∧ same t)
      ∧ (s.quiet → s.wrapped = true → s.life.verifying = false → s.rst.wholeLow = false → s.rst.phase = .run → s.pwr.state.toNat < 2 → ∀ v,
        (s.dbgAllows .request = true → Leaves (.lcStateWrite v) s fun t => Requested s t v)
          ∧ (s.dbgAllows .request = false → Leaves (.lcStateWrite v) s fun t => Denied s t))
      ∧ (s.quiet → s.life.verifying = false → s.life.lockout = false → s.life.shadow = 2#3 → s.life.granted = none →
        (loaded (.lcSession .open) .session 0x31 fun t => Opened s t)
          ∧ (∀ n, loaded (.lcSession (.readChal n)) .session 0x31 fun t => t.dbg.out = (s.regNow (0xE140 + 4 * n.val)).setWidth 64 ∧ same t)
          ∧ (∀ (n : Fin 16) v, loaded (.lcSession (.writeResp n v)) .session 0x31 fun t =>
            t.life = { s.life with resp := s.life.resp.set n.val v } ∧ t.seen = s.seen)
          ∧ ∀ v : Word, v.toNat / 2 ^ 16 = 0x4C43 → v.toNat % 8 = 3 → loaded (.lcSession (.submit v)) .session 0x31 fun t => Submitted s t)

/-- ASYNCHRONOUS SOURCES: irq_nmi is latched, irq_ext lines are as sampled, and a WFI whose source has come has ended; a core that can sample takes the highest source that is due: a machine check (vector VEC_M_MCHK, even within
REP), then a halt, NMI, and with IE the highest enabled external line, else the page events; the frame holds IP as the return address. -/
def Obligations.AsynchronousSources : Prop :=
  ∀ s : State,
    (s.clockOn = true → exec .nmiEdge s = .next { s with cpu := { s.cpu with nmi := true } })
      ∧ (∀ (line : Fin 8) (level : Bool), Leaves (.irqExt line level) s fun t =>
        (∀ i, i < 8 → t.cpu.ext.getLsbD i = if i = line.val then level else s.cpu.ext.getLsbD i)
          ∧ { t with cpu := { t.cpu with ext := s.cpu.ext, wait := s.cpu.wait } } = s
          ∧ t.cpu.wait = if s.cpu.wait = .wfi ∧ flagIE s.cpu.flags = false ∧ t.irqReady = true then .none else s.cpu.wait)
      ∧ (s.canSample = true →
        let entered (toM : Bool) (vec : Fin 6) (cause : Nat) (detail : Word) (xaddr : DWord) : Prop :=
          Does .asyncEntry s (s.seen.entered toM vec (xcause true s.pl cause detail) xaddr s.cpu.ip)
        let line (n : Nat) : Prop :=
          if (s.reg 0x1188).getLsbD (16 + n) = true ∧ s.pl ≤ 1 then entered false 1 (0x48 + n) 0#32 0#64 else entered true 3 (0x48 + n) 0#32 0#64
        (s.cpu.mchkDue = true → entered true 5 0x40 (w32 (fld (s.reg 0x1114) 16 8)) (s.reg64 0x102C))
          ∧ (s.cpu.mchkDue = false → s.repDelays = true → exec .asyncEntry s = .next s)
          ∧ (s.cpu.mchkDue = false → s.repDelays = false →
            (s.cpu.haltDue = true → Leaves .asyncEntry s fun t => t.cpu.halted = true ∧ t.reg64 0xE120 = s.cpu.ip ∧ t.seen = s.seen)
              ∧ (s.cpu.haltDue = false →
                (s.cpu.nmi = true → entered true 4 0x41 0#32 0#64)
                  ∧ (s.cpu.nmi = false → flagIE s.cpu.flags = true →
                    (∀ n, s.topExt = some n → line n)
                      ∧ (s.topExt = none → s.pageIrq = true →
                        if (s.reg 0x1188).getLsbD 24 = true ∧ s.pl ≤ 1 then entered false 1 0x50 (w32 s.pageIrqs) 0#64
                        else entered true 3 0x50 (w32 s.pageIrqs) 0#64)))))

/-! ## Tile instructions at issue -/

/-- A tile instruction commits and stands last in the queue as `e`; `w` is the state once its checks are done. The issue view moves on, no other
part of the tile engine does, and software sees only IP move on (R103, R182). -/
def Sys2Proof.Machine.Queued (i : Instr) (s w : State) (e : TileEntry) : Prop :=
  Leaves i s fun t => t.seen = s.seen.next 8
    ∧ t.tile = { w.tile with queue := w.tile.queue ++ [e], nextItag := w.tile.nextItag + 1, nextSeq := w.tile.nextSeq + 1,
                                 issue := viewStep w.tile.issue e }

/-- No older store of the store buffer has still to write what an instruction reads, or a register that queued instructions use (R106, R118). -/
def Sys2Proof.Machine.State.freeFor (w : State) (e : TileEntry) : Prop :=
  w.trHolds (e.reads (((w.tile.issue.name (ctlCd e.ctl)).map fun i => i.shape).getD .s32x32)) = false

/-- The instruction joins the queue where its ranges pass their checks; `mk` is the entry that it makes of their bases. -/
def Sys2Proof.Machine.JoinsQueue (i : Instr) (s : State) (gs : List (Fin 32)) (ranges : List TRange) (mk : State → List RBase → TileEntry) : Prop :=
  let c := (s.arrived 8).checkRanges .m ranges
  ∀ bs, s.issues 8 gs [] → c.2 = .ok bs → c.1.freeFor (mk c.1 bs) → Queued i s c.1 (mk c.1 bs)

/-- TILE INSTRUCTIONS JOIN THE QUEUE, the queue having room, tile instructions being enabled at the level, the specifier in order: each with its issue tag, control word,
TRAPINV, level and TID, and with what it captures: the place and stride of a preload, KB, the scratchpad form of its streams (elements in
one range, scale bytes in the next), masks, the crate. -/
def Sys2Proof.Machine.TileInstructionsJoinTheQueue : Prop :=
  ∀ (s : State) (o : TileArgs),
    let u := s.arrived 8
    let v := s.seen
    let c := o.ctl
    let va := v.readG (tOpa o)
    let kb := (v.readG (tKcnt o)).toNat % 65536
    let d := streamDesc va (v.readG (nextReg (tOpa o)))
    let db := streamDesc (v.readG (tOpb o)) (v.readG (nextReg (tOpb o)))
    let live (n : Nat) : Prop := (u.tile.issue.name n).isSome = true
    let me := [s.cpu.tid]
    s.tileFull = false → u.tileOn = true → o.spec.msb = false →
      (fld c 5 27 = 0 → live (ctlCd c) → JoinsQueue (.tclose o) s [] [] fun w _ => w.newEntry .tclose c)
        ∧ (fld c 14 18 = 0 → tewOp c ≤ 6 → live (ctlCd c) → tewOp c = 4 ∨ (live (ctlCs c) ∧ tewMismatch u.tile.issue c = false) →
          JoinsQueue (.tew o) s [] [] fun w _ => w.newEntry .tew c)
        ∧ (fld c 2 30 = 0 → JoinsQueue (.tmask o) s ((if c.getLsbD 0 then [tOpa o] else []) ++ if c.getLsbD 1 then [tOpb o] else []) [] fun w _ =>
          { w.newEntry .tmask c with maskr := lo32 va, maskc := v.readG (tOpb o) })
        ∧ (tbeginBad c = false →
          let init := fld c 11 2
          let stride := if init = 3 then (v.readG (tOpb o)).toNat % 2 ^ 24 else 0
          (init ≠ 0 → va.toNat % 4 = 0 ∧ stride % 4 = 0) →
            JoinsQueue (.tbegin o) s ((if init = 0 then [] else [tOpa o]) ++ if init = 3 then [tOpb o] else [])
              (if init = 0 then [] else [⟨0, me, preloadPieces c va.toNat stride⟩]) fun w bs =>
                { w.newEntry .tbegin c with a := ⟨offOf (nthBase bs 0) va.toNat, 0, 0, 0⟩, aux := stride })
        ∧ (fld c 5 27 = 0 → pairOdd (tOpa o) = false → fld c 3 2 + kb ≤ 4 → va.toNat % 32 = 0 →
          (JoinsQueue (.tload o) s [tKcnt o, tOpa o, nextReg (tOpa o)] (d.ranges 0 me 32 kb) fun w bs =>
              { w.newEntry .tload c with kb := kb, a := d.form (nthBase bs 0) (nthBase bs 1) })
            ∧ JoinsQueue (.tstore o) s [tKcnt o, tOpa o, nextReg (tOpa o)] (d.ranges 1 me 32 kb) fun w bs =>
              { w.newEntry .tstore c with kb := kb, a := d.form (nthBase bs 0) (nthBase bs 1) })
        ∧ (∀ info, u.tile.issue.name (ctlCd c) = some info → shapeBad c info.shape = false → u.tmmaBad o = false →
          let sa := c.getLsbD 23
          let sb := c.getLsbD 19
          let gs := if sa then [tOpa o, nextReg (tOpa o)] else []
          (sa = true → va.toNat % 32 = 0) →
            ((sb = true → pairOdd (tOpb o) = false ∧ (v.readG (tOpb o)).toNat % 32 = 0) → (sa = true ∧ sb = true) ∨ fld c 10 2 + kb ≤ 4 →
              JoinsQueue (.tmma o) s ([tKcnt o] ++ gs ++ if sb then [tOpb o, nextReg (tOpb o)] else [])
                ((if sa then d.ranges 0 me info.shape.rows kb else []) ++ if sb then db.ranges 0 me info.shape.cols kb else []) fun w bs =>
                  { w.newEntry .tmma c with
                    kb := kb
                    a := if sa then d.form (nthBase bs 0) (nthBase bs 1) else Stream.zero
                    b := if sb then db.form (nthBase bs (if sa then 2 else 0)) (nthBase bs (if sa then 3 else 1)) else Stream.zero })
              ∧ ∀ cr, u.tile.issue.crate = some cr → u.build.s2 = true → sb = true → fld c 16 3 = 0 → c.getLsbD 14 = false →
                sa = true ∨ fld c 10 2 + kb ≤ 4 → (∀ g ∈ cr.segs, g.bgn.toNat % 32 = 0) →
                let kboff := (v.readG (tOpb o)).toNat % 65536
                JoinsQueue (.tmmaSeg o) s ([tKcnt o, tOpb o] ++ gs)
                  ((if sa then d.ranges 0 me info.shape.rows kb else [])
                    ++ cr.segs.flatMap fun g => (g.desc kboff).ranges 0 (u.tenantTids g.btid) info.shape.cols kb) fun w bs =>
                    { w.newEntry .tmmaSeg c with
                      kb := kb, aux := kboff, crate := some cr
                      a := if sa then d.form (nthBase bs 0) (nthBase bs 1) else Stream.zero
                      bs := formsOf (cr.segs.map fun g => g.desc kboff) (bs.drop (if sa then 2 else 0)) })

/-- What a TCONV captures: the form of its output, and from its record, if it needs one, the places and the values. -/
def Sys2Proof.Machine.State.convEntry (w : State) (c : Word) (d : StreamDesc) (rec? : Option (Nat × List Byte)) (bs : List RBase) : TileEntry :=
  { w.newEntry .tconv c with
    a := if c.getLsbD 16 then Stream.zero else if isBx c then d.form (nthBase bs 0) (nthBase bs 1) else ⟨offOf (nthBase bs 0) d.ebase, 0, d.ls, 0⟩
    conv := rec?.map fun r => convRec r.2 r.1 bs }

/-- TCONV JOINS THE QUEUE, its encoding in order and its tile live, fitting its destination: without a record it captures its output; with one, at a multiple
of 64, whose 64 bytes read without an error, also what the record gives, cause 6 being raised where the record is not in order. -/
def Sys2Proof.Machine.ConversionsJoinTheQueue : Prop :=
  ∀ (s : State) (o : TileArgs) (info : NameInfo),
    let u := s.arrived 8
    let v := s.seen
    let c := o.ctl
    let d := streamDesc (v.readG (tOpa o)) (v.readG (nextReg (tOpa o)))
    let gs := if c.getLsbD 16 then [] else [tOpa o, nextReg (tOpa o)]
    let inOrder (bs : List Byte) : Prop := ∀ x ∈ convAligned c d bs, x.2.2 = true
    s.tileFull = false → u.tileOn = true → o.spec.msb = false → tconvBad o = false → u.tile.issue.name (ctlCd c) = some info →
      fitBad c info.shape = false →
        (needsRecord c = false → inOrder [] →
            JoinsQueue (.tconv o) s gs (u.convRanges c info.shape d []) fun w bs => w.convEntry c d none bs)
          ∧ (needsRecord c = true → s.issues 8 (gs ++ [tOpb o]) [] → ∀ off,
            let va := v.readG (tOpb o)
            let a := u.checkRanges .v [⟨0, [s.cpu.tid], [(va.toNat, 64)]⟩]
            let r := a.1.spxRead 2 [] off 64
            a.2 = .ok [some (va.toNat, off)] → va.toNat % 64 = 0 → a.1.tileBlocks false off 64 = [] → a.1.sbStores [(off, 64)] = false → r.2.2 = [] →
              (recordBad c r.2.1 = true → Does (.tconv o) s (s.trapped 8 cTILESTATE 6#32 0#64))
                ∧ ∀ bs,
                  let q := r.1.checkRanges .m (r.1.convRanges c info.shape d r.2.1)
                  let e := q.1.convEntry c d (some (off, r.2.1)) bs
                  recordBad c r.2.1 = false → inOrder r.2.1 → q.2 = .ok bs → q.1.trHolds (e.reads info.shape) = false → Queued (.tconv o) s q.1 e)

/-- The tile instructions that join the queue, TCONV among them. -/
def Obligations.TileAndConversionInstructionsQueue : Prop :=
  TileInstructionsJoinTheQueue ∧ ConversionsJoinTheQueue

/-- What stops a tile instruction, each raising its exception with no effect: bit 31 of its specifier, or a reserved bit of its control word, UNDEF; an
enable that is 0 at the level, TILE_UNAVAILABLE; a name that is not live, TILE_STATE cause 1, or 2 where a larger tile covers it; tiles of TEW that
differ, cause 3; more blocks than an operand tile has from KOFF on, cause 4; no crate, cause 9; a level of TRESTORE above the current one, UNDEF. -/
def Obligations.TileInstructionsAreGuarded : Prop :=
  ∀ (s : State) (o : TileArgs) (err : TileErr), s.tileFull = false → (∀ gs, s.issues 8 gs []) →
    let u := s.arrived 8
    let c := o.ctl
    let trap (i : Instr) (cause : Nat) (detail : Word) : Prop := Does i s (s.trapped 8 cause detail 0#64)
    let dead : Word := if u.tile.issue.covered (ctlCd c) then 2#32 else 1#32
    (o.spec.msb = true → ∀ i ∈ [Instr.tbegin o, .tmma o, .tmmaSeg o, .tclose o, .tconv o, .tload o, .tstore o, .tsave ⟨o, err⟩, .trestore o,
        .tcrateTake o, .tcrateReload o, .tew o, .tmask o], trap i cUNDEF 0#32)
      ∧ (c &&& 0xFFFFFFE0#32 ≠ 0#32 → trap (.tclose o) cUNDEF 0#32 ∧ trap (.tload o) cUNDEF 0#32 ∧ trap (.tstore o) cUNDEF 0#32)
      ∧ (c &&& 0xFFFFC000#32 ≠ 0#32 ∨ 6 < tewOp c → trap (.tew o) cUNDEF 0#32)
      ∧ (c &&& 0xFFFFFFFC#32 ≠ 0#32 → trap (.tmask o) cUNDEF 0#32 ∧ trap (.trestore o) cUNDEF 0#32)
      ∧ (c &&& 0xFFFFFFF8#32 ≠ 0#32 → trap (.tsave ⟨o, err⟩) cUNDEF 0#32)
      ∧ (c &&& 0xFFFF00C8#32 ≠ 0#32 → trap (.tcrateTake o) cUNDEF 0#32 ∧ trap (.tcrateReload o) cUNDEF 0#32)
      ∧ (u.pl < fld c 0 2 → trap (.trestore o) cUNDEF 0#32)
      ∧ (c &&& 0x000003E0#32 ≠ 0#32 → trap (.tmma o) cUNDEF 0#32 ∧ trap (.tmmaSeg o) cUNDEF 0#32)
      ∧ (s.issues 2 [] [] → (s.arrived 2).tileOn = false → Does .tsync s (s.trapped 2 cTILEUNAV 0#32 0#64))
      ∧ (o.spec.msb = false →
        (u.tileOn = false →
            (fld c 5 27 = 0 → trap (.tclose o) cTILEUNAV 0#32
              ∧ (pairOdd (tOpa o) = false → trap (.tload o) cTILEUNAV 0#32 ∧ trap (.tstore o) cTILEUNAV 0#32))
              ∧ (fld c 2 30 = 0 → trap (.tmask o) cTILEUNAV 0#32) ∧ (tbeginBad c = false → trap (.tbegin o) cTILEUNAV 0#32)
              ∧ (tconvBad o = false → trap (.tconv o) cTILEUNAV 0#32))
          ∧ (u.tileOn = true →
            (fld c 5 27 = 0 → pairOdd (tOpa o) = false → 4 < fld c 3 2 + u.tileKb o → trap (.tload o) cTILESTATE 4#32 ∧ trap (.tstore o) cTILESTATE 4#32)
              ∧ (u.tile.issue.name (ctlCd c) = none → (fld c 5 27 = 0 → trap (.tclose o) cTILESTATE dead)
                ∧ (tconvBad o = false → trap (.tconv o) cTILESTATE dead))
              ∧ (fld c 14 18 = 0 → tewOp c ≤ 6 → tewOp c ≠ 4 → (u.tile.issue.name (ctlCd c)).isSome = true → (u.tile.issue.name (ctlCs c)).isSome = true →
                tewMismatch u.tile.issue c = true → trap (.tew o) cTILESTATE 3#32)
              ∧ (u.tmmaBad o = false → ∀ info, u.tile.issue.name (ctlCd c) = some info → shapeBad c info.shape = false →
                (c.getLsbD 19 = false → 4 < fld c 10 2 + u.tileKb o → trap (.tmma o) cTILESTATE 4#32)
                  ∧ (c.getLsbD 23 = false → c.getLsbD 19 = true → u.build.s2 = true → fld c 16 3 = 0 → c.getLsbD 14 = false →
                    fld c 10 2 + u.tileKb o ≤ 4 → u.tile.issue.crate = none → trap (.tmmaSeg o) cTILESTATE 9#32))))

/-- TRESTORE has read an image again whose control area `x` and queue image `q` are in order: the engine view `v` with its crate, the entries `es`; `z` is
the state afterwards. -/
def Sys2Proof.Machine.State.rereads (w z : State) (priv : BitVec 2) (x q : List Byte) (v : TileView) (es : List TileEntry) : Prop :=
  let raws := (List.range (recNum x 0x38 4 / 2 ^ 20 % 64)).map (rawEntry q)
  firstBad 0 (imageView x) raws = none ∧ ∃ y y' : State,
    (match (imageView x).crate with
      | none => y = w.atLevel priv ∧ v = imageView x
      | some cr => ∃ a, (w.atLevel priv).rebuildCrate cr 0 0 = (y, .ok a) ∧ a.bad = [] ∧ v = { imageView x with crate := some (a.crate cr) })
    ∧ y.rebuild priv 0 v raws = (y', .ok es) ∧ z = y'.setFlags w.cpu.flags ∧ ∀ e ∈ es, e.badUnit = none

/-- TSAVE AND TRESTORE JOIN THE QUEUE. TSAVE, none being queued or under way and its image a multiple of 256 that can be written: the engine begins to drain, and its entry
ends every name for younger instructions. TRESTORE, the queue empty: an image whose control area is out of order raises cause 11; one
whose entries, records and crates are read again without an error, and whose tile areas pass their checks, is taken: its entries wait behind it, and
younger instructions see the view after them. -/
def Obligations.ImagesJoinTheQueue : Prop :=
  ∀ (s : State) (o : TileArgs) (err : TileErr),
    let u := s.arrived 8
    let c := o.ctl
    let va := s.seen.readG (tOpa o)
    s.tileFull = false → u.tileOn = true → o.spec.msb = false → (tOpb o).val = 0 → (tKcnt o).val = 0 →
      (fld c 3 29 = 0 → u.saving = false →
          (c.getLsbD 2 = true → s.issues 8 [] [] → u.sbLate = false → Leaves (.tsave ⟨o, err⟩) s fun t => t.seen = s.seen.next 8 ∧ t.tile.draining = true
            ∧ t.tile.queue = u.tile.queue ++ [{ u.newEntry .tsave c with meets := err }] ∧ t.tile.issue = TileView.init)
          ∧ (c.getLsbD 2 = false → s.issues 8 [tOpa o] [] → va.toNat % 256 = 0 → ∀ b,
            let q := u.checkRanges .m [⟨1, [s.cpu.tid], contiguous va.toNat imageBytes⟩]
            q.2 = .ok [b] → q.1.sbLate = false → Leaves (.tsave ⟨o, err⟩) s fun t => t.seen = s.seen.next 8 ∧ t.tile.draining = true
              ∧ t.tile.queue = q.1.tile.queue ++ [{ q.1.newEntry .tsave c with image := offOf b va.toNat, meets := err }] ∧ t.tile.issue = TileView.init))
        ∧ (fld c 2 30 = 0 → fld c 0 2 ≤ u.pl → fld c 0 2 ≠ 3 → s.issues 8 [tOpa o] [] → u.tileQuiet = true → ∀ b,
          let q := u.checkRanges .m [⟨0, [s.cpu.tid], contiguous va.toNat 1280⟩]
          let r := q.1.spxRead 1 [] (offOf b va.toNat) 1280
          let x := r.2.1.take 256
          q.2 = .ok [b] → q.1.sbStores [(offOf b va.toNat, 1280)] = false → r.2.2 = [] →
            (controlOk x (r.2.1.drop 256) = false → Does (.trestore o) s (s.trapped 8 cTILESTATE 11#32 0#64))
              ∧ (controlOk x (r.2.1.drop 256) = true → ∀ z v es bs, r.1.rereads z (c.setWidth 2) x (r.2.1.drop 256) v es →
                let areas := imageAreas x
                let a := z.checkRanges .m (areas.map fun (a : Nat × Nat × Nat) => ⟨0, [s.cpu.tid], contiguous (va.toNat + a.2.1) a.2.2⟩)
                let e := { a.1.newEntry .trestore c with priv := c.setWidth 2, rows := areaRows va.toNat areas bs }
                let es' := es.zipIdx.map fun y => { y.1 with seq := a.1.tile.nextSeq + 1 + y.2, wins := a.1.winList }
                a.2 = .ok bs → a.1.trHolds (e.reads .s32x32) = false → Leaves (.trestore o) s fun t =>
                  t.seen = s.seen.next 8 ∧ t.tile.queue = [e] ∧ t.tile.nextItag = a.1.tile.nextItag + 1
                    ∧ t.tile.issue = es'.foldl viewStep v ∧ t.tile.restored = some ⟨v, x, es'⟩))

/-! ## TCRATE, TSYNC -/

/-- The crate list header has been read in order: from the address in G[OPA], a multiple of 32, at an offset, its HEAD writable where a TAKE will write it, without an
error, with ring base, size and head. -/
def Sys2Proof.Machine.State.hasHeader (s w : State) (va : DWord) (tid : BitVec 16) (take : Bool) (h : CrateHdr) : Prop :=
  let q := s.checkRanges .v (⟨0, [tid], [(va.toNat, 32)]⟩ :: if take then [⟨1, [tid], [(va.toNat + 0xC, 4)]⟩] else [])
  let r := q.1.spxRead 2 [] h.off 32
  va.toNat % 32 = 0 ∧ (∃ bs, q.2 = .ok (some (va.toNat, h.off) :: bs)) ∧ q.1.sbStores [(h.off, 32)] = false
    ∧ q.1.tileBlocks false h.off 32 = [] ∧ r.1 = w ∧ r.2.2 = [] ∧ recNum r.2.1 0x10 16 = 0
    ∧ h = ⟨va.toNat, h.off, recNum r.2.1 0 8, recNum r.2.1 8 4, recNum r.2.1 0xC 4⟩ ∧ sizeOk h.size = true ∧ h.head < h.size

/-- The rows of a crate have been scanned from row 0 on, and its segments' B records read. -/
def Sys2Proof.Machine.State.hasCrate (s w : State) (h : CrateHdr) (take : Bool) (first kstart kb n reason : Nat) (r : CrateScan) : Prop :=
  let a := s.scanRows h take first kstart kb 0 ⟨[], [], reason, []⟩ n
  ∃ x y, a.2 = .done x ∧ a.1.readBrecs x.segs = (w, .done y) ∧ r = { x with segs := y.segs, bad := x.bad ++ y.bad }

/-- The entry that a crate makes: its rows' places, the rows of its segments as the row mask that it will set, its reference, the first unit that
was read with an error. -/
def Sys2Proof.Machine.State.entryOf (w : State) (c : Word) (h : CrateHdr) (bad : List Nat) (first kstart kb : Nat) (r : CrateScan) : TileEntry :=
  { w.newEntry .tcrate c with kb := kb, aux := kstart, rows := r.rows.map fun x => (x.a, x.sc), maskr := crateMask r.segs
                              crate := some ⟨r.segs, h.off, first, r.rows.length⟩, badUnit := (bad ++ r.bad).head? }

/-- A TAKE whose wait has ended with its counter at `count`, in the state `w`, takes its rows: from HEAD on as long as they are valid and their segments are
at most eight. It subtracts their number from the counter, writes HEAD past them and their VALID bytes 0, puts FIRST, REASON, SEGS and ROWS into
G[OPB], and joins the queue. -/
def Sys2Proof.Machine.TakesRows (i : Instr) (s w : State) (x : TakeWait) (count : Nat) : Prop :=
  ∀ z r,
    let v := s.seen
    let c := x.args.ctl
    let h := x.hdr
    let n := ctr (fld c 8 6)
    let cap := if c.getLsbD 14 then 16 else 32
    let k := r.rows.length
    let e := z.entryOf c h x.bad h.head 0 x.kb r
    ({ w with cpu := { w.cpu with wait := .take { x with count := some count } } } : State).hasCrate z h true h.head 0 x.kb (min cap count)
        (if cap ≤ count then 1 else 2) r →
      z.cpu.sb.length < 8 → z.trHolds (r.rows.flatMap fun y => [(y.a, 32 * x.kb), (y.sc, x.kb)]) = false → Leaves i s fun t =>
        t.seen = (((v.putSync n (v.sync[n] - w32 k)).putG (tOpb x.args)
            (w64 (h.head * 2 ^ 32 + r.reason * 2 ^ 12 + r.segs.length * 2 ^ 8 + k))).next 8)
          ∧ t.tile = { z.tile with queue := z.tile.queue ++ [e], nextItag := z.tile.nextItag + 1, nextSeq := z.tile.nextSeq + 1,
                                   issue := viewStep z.tile.issue e }
          ∧ t.cpu.wait = .none
          ∧ ∃ b, t.cpu.sb = z.cpu.sb ++ [b] ∧ b.kind = .store
              ((z.spxPart (h.off + 0xC) 4, leBytes ((h.head + k) % h.size) 4)
                :: r.rows.map fun y => (z.spxPart (y.slotOff + 0x1C) 1, [0#8])) false

/-- CRATES: a TAKE whose counter is below the cap before the deadline waits, its header kept; one whose wait is over takes its rows; a RELOAD takes the rows
that G[OPB] gives again, changing nothing in memory. TCRATE_TAKE_PROCEED, the core running and no table walk under way: a waiting TAKE whose counter has
reached the cap, or C the deadline, or whose counter has been read, takes its rows with the header that it has read; where no deadline ends the wait
within this bell it goes on waiting. -/
def Sys2Proof.Machine.CratesAreTaken : Prop :=
  ∀ (s : State) (o : TileArgs),
    let u := s.arrived 8
    let v := s.seen
    let c := o.ctl
    let va := v.readG (tOpa o)
    let kb := (v.readG (tKcnt o)).toNat % 65536
    (s.tileFull = false → u.tileOn = true → o.spec.msb = false → tcrateBad c = false → fld c 4 2 + kb ≤ 4 → s.issues 8 [tKcnt o, tOpa o, tOpb o] [] →
        ∀ w h,
          (c.getLsbD 15 = false → u.hasHeader w va s.cpu.tid true h →
            (w.takeReady c = false → Leaves (.tcrateTake o) s fun t => t.seen = v ∧ t.cpu.wait = .take ⟨o, h, [], kb, none⟩ ∧ t.tile = w.tile)
              ∧ (w.takeReady c = true → TakesRows (.tcrateTake o) s w ⟨o, h, [], kb, none⟩ v.sync[ctr (fld c 8 6)].toNat))
            ∧ (c.getLsbD 15 = true → u.hasHeader w va s.cpu.tid false h → ∀ z r,
              let g := (v.readG (tOpb o)).toNat
              let first := g / 2 ^ 32 % 65536
              w.hasCrate z h false first (g / 2 ^ 48) kb (min 32 (g % 64)) 0 r →
                z.trHolds (r.rows.flatMap fun y => [(y.a, 32 * kb), (y.sc, kb)]) = false →
                Queued (.tcrateReload o) s z (z.entryOf c h [] (first % h.size) (g / 2 ^ 48) kb r)))
      ∧ (∀ x, s.cpu.wait = .take x → s.coreRuns = true → s.xlat.walk = none →
        let n := v.sync[ctr (fld x.args.ctl 8 6)].toNat
        let deadline := fld (s.reg 0x5110) 0 24
        (∀ m, x.count = some m → TakesRows .tcrateTakeProceed s s x m)
          ∧ (x.count = none → s.takeReady x.args.ctl = true → TakesRows .tcrateTakeProceed s s x n)
          ∧ (x.count = none → s.takeReady x.args.ctl = false → ¬(s.bell.c < deadline ∧ deadline < s.period) → exec .tcrateTakeProceed s = .next s))

/-- TSYNC commits with the engine idle, unless it delivers the deferred trap of the running code; otherwise it waits, and ends so once the engine is idle. -/
def Sys2Proof.Machine.TsyncWaitsForTheEngine : Prop :=
  ∀ s : State,
    let u := s.arrived 2
    let v := s.seen
    let ends (i : Instr) (u : State) : Prop :=
      (u.trapMine = false → Does i s (v.next 2))
        ∧ (u.trapMine = true → Leaves i s fun t =>
          let d := u.reg 0x4148
          t.seen = v.entered (u.causeToM cTILEDEFER) (if u.causeToM cTILEDEFER then 2 else 0)
              (xcause false s.pl cTILEDEFER (w32 (fld d 0 8 + fld d 16 5 * 256))) 0#64 s.cpu.ip
            ∧ t.reg 0x4148 = d &&& 0x3FFFFFFF#32)
    (s.issues 2 [] [] → u.tileOn = true →
        (u.tileQuiet = true → ends .tsync u) ∧ (u.tileQuiet = false → Leaves .tsync s fun t => t.seen = v ∧ t.cpu.wait = .tsync))
      ∧ (s.cpu.wait = .tsync → s.tileQuiet = true → ends .tsyncWaitEnd s)

/-- TCRATE in both forms, its wait, TSYNC and its wait. -/
def Obligations.CratesAndTsync : Prop :=
  CratesAreTaken ∧ TsyncWaitsForTheEngine

/-! ## The tile engine -/

/-- For an entry of the queue every byte of the scratchpad reads as it is stored: its group powered, no wrong bit, every unit in the immediate class as the
entry found it. -/
def Sys2Proof.Machine.State.spxClean (s : State) (e : TileEntry) : Prop :=
  s.build.s2 = true ∧ ∀ k, s.mark k = ⟨k, 0#4, 0#4, 0#288, none⟩ ∧ classIn e.wins k = false ∧ s.unitDown k = false

/-- The element block and scale byte of lane `l`, K-block `k`: streamed from the scratchpad, or from operand tile `n` at K-block `koff` + `k`, with
sixteen lanes in the upper half where `up` is set. -/
def Sys2Proof.Machine.State.operand (s : State) (streamed : Bool) (code : Nat) (f : Stream) (n koff : Nat) (up : Bool) (l k : Nat) : List Int × Byte :=
  if streamed then
    (bxElems code (s.spx.mem.read (f.off + l * f.ls + k * f.ks) 32), s.spx.mem.get (f.soff + (l * f.ls + k * f.ks) / 32))
  else
    let l := if up then l + 16 else l
    let t := (n + l / 32) % 8
    (bxElems code (s.tile.ops.read (opBlock t (l % 32) (koff + k)) 32), s.tile.ops.get (opScale t (l % 32) (koff + k)))

/-- Element (row, col) of a chain of tile `cd`. -/
def Sys2Proof.Machine.State.tileElement (s : State) (cd : Nat) (i : NameInfo) (chain row col : Nat) : Nat :=
  leNat (s.tile.pool.read (4096 * cd + (chain * i.shape.rows * i.shape.cols + row * i.shape.cols + col) * i.fmt.bytes) i.fmt.bytes)

/-- A GROUP'S CONTRIBUTIONS ARE ADDED AT ITS BLOCK END, in K order: for the running TMMA, or the current pass of the running TMMA.SEG, every fed element of every chain takes
the contribution of each of the group's K-blocks that belongs to its chain; elements not fed, everything outside the tile and the operands stay;
KDONE and PASS move on; the array has been busy 16 cycles, 32 for 32×64. -/
def Obligations.BlockEndAddsItsGroup : Prop :=
  ∀ (s : State) (e : TileEntry) (q : List TileEntry) (i : NameInfo),
    let c := e.ctl
    let cd := ctlCd c
    let n := min i.shape.chains (e.kb - e.kdone)
    let fed (r j : Nat) : Bool := (!c.getLsbD 13 || (s.tile.maskr.getLsbD r && s.tile.maskc.getLsbD j)) && e.passMask.getLsbD r
    let a := s.operand (c.getLsbD 23) (fld c 28 4) e.a (fld c 20 3) (fld c 10 2) (c.getLsbD 15)
    let b := s.operand (c.getLsbD 19) (fld c 24 4) e.bStream (fld c 16 3) (fld c 10 2) (c.getLsbD 14)
    s.tile.queue = e :: q → s.tile.busy = true → e.op = .tmma ∨ e.op = .tmmaSeg → e.allAdded = false → s.act ≠ 0 → (s.tile.draining && s.tile.stopped) = false →
      s.tile.engine.name cd = some i → s.spxClean e → Leaves .tileBlockEnd s fun t =>
        (∃ e', t.tile.queue = e' :: q ∧ e'.kdone = (e.advance n).kdone ∧ e'.pass = (e.advance n).pass ∧ e'.itag = e.itag ∧ e'.ctl = c)
          ∧ t.reg64 0x4130 = s.reg64 0x4130 + (if i.shape = .s32x64 then 32#64 else 16#64)
          ∧ (∀ ch r j, ch < i.chains → r < i.shape.rows → j < i.shape.cols →
            t.tileElement cd i ch r j
              = if fed r j then
                  ((List.range n).filter fun k => i.chains == 1 || (e.kdone + k) % i.shape.chains == ch).foldl
                    (fun x k =>
                      let xa := a r (e.kdone + k)
                      let xb := b j (e.kdone + k)
                      (stepElem i ((s.reg 0x4100).getLsbD 11) xa.2 xb.2 xa.1 xb.1 x).1)
                    (s.tileElement cd i ch r j)
                else s.tileElement cd i ch r j)
          ∧ (∀ x, x < 4096 * cd ∨ 4096 * cd + footprint i.shape i.fmt ≤ x → t.tile.pool.get x = s.tile.pool.get x)
          ∧ { t.seen with pool := s.seen.pool } = s.seen

/-- TILE_INSTR_START: the oldest instruction starts when the engine is free and does not drain, a TSAVE apart, whose drain starts it. Without an error of storage
only its entry changes, which holds what its accesses meet; with one, of any kind, it starts too, and software sees nothing of it yet. With no instruction queued, one running or the engine draining, nothing
starts. -/
def Sys2Proof.Machine.TileInstructionStarts : Prop :=
  ∀ (s : State) (err : TileErr),
    (∀ (e : TileEntry) (q : List TileEntry), s.tile.queue = e :: q → s.tile.busy = false → s.tile.draining = false → e.op ≠ .tsave →
        (err.flips = [] → err.pool = none → err.opTile = none →
            exec (.tileInstrStart err) s = .next { s with tile := { s.tile with busy := true, queue := { e with meets := err } :: q } })
          ∧ Leaves (.tileInstrStart err) s fun t => t.tile.busy = true ∧ t.seen = s.seen ∧ t.tile.engine = s.tile.engine
            ∧ ∃ f, t.tile.queue = { e with flags := f, meets := err } :: q)
      ∧ (s.tile.queue = [] ∨ s.tile.busy = true ∨ s.tile.draining = true ∨ (∃ e, s.tile.queue.head? = some e ∧ e.op = .tsave) →
        exec (.tileInstrStart err) s = .next s)

/-- The instruction at the head, all its blocks added, completes: it leaves the
queue, the engine view moves on as the issue view did, and its effects are there: TBEGIN without a preload leaves every element 0, TLOAD copies its blocks
and scale bytes into its operand tile, TSTORE copies them out, TMASK sets the masks that it names, TEW ZERO clears the tile. -/
def Sys2Proof.Machine.TileInstructionsComplete : Prop :=
  ∀ (s : State) (e : TileEntry) (q : List TileEntry), s.tile.queue = e :: q → s.settled →
    let c := e.ctl
    let cd := ctlCd c
    let t := fld c 0 3
    let koff := fld c 3 2
    let ends (ok : State → Prop) : Prop := Leaves .tileInstrComplete s fun z =>
      z.tile.queue = q ∧ z.tile.busy = false ∧ z.tile.engine = viewStep s.tile.engine e ∧ ok z
    s.tile.busy = true → e.allAdded = true → s.tile.heldTuse = [] → s.tile.late = [] →
      (e.op ≠ .tsave → e.op ≠ .trestore → ends fun _ => True)
          ∧ (e.op = .tbegin → fld c 11 2 = 0 → ends fun z =>
            (∀ ch r j, ch < (beginInfo c).chains → r < (beginInfo c).shape.rows → j < (beginInfo c).shape.cols → z.tileElement cd (beginInfo c) ch r j = 0)
              ∧ z.tile.poison.getLsbD cd = false ∧ { z.seen with pool := s.seen.pool } = s.seen)
          ∧ (e.op = .tmask → ends fun z => z.tile.maskr = (if c.getLsbD 0 then e.maskr else s.tile.maskr)
            ∧ z.tile.maskc = (if c.getLsbD 1 then e.maskc else s.tile.maskc) ∧ z.seen = s.seen)
          ∧ (e.op = .tload → s.spxClean e → koff + e.kb ≤ 4 → ends fun z =>
            (∀ l k, l < 32 → k < e.kb →
                z.tile.ops.read (opBlock t l (koff + k)) 32 = s.spx.mem.read (e.a.off + l * e.a.ls + k * e.a.ks) 32
                  ∧ z.tile.ops.get (opScale t l (koff + k)) = s.spx.mem.get (e.a.soff + (l * e.a.ls + k * e.a.ks) / 32))
              ∧ (∀ l k, l < 32 → k < 4 → (k < koff ∨ koff + e.kb ≤ k) →
                z.tile.ops.read (opBlock t l k) 32 = s.tile.ops.read (opBlock t l k) 32)
              ∧ { z.seen with ops := s.seen.ops } = s.seen)
          ∧ (∀ i, e.op = .tew → s.tile.engine.name cd = some i → tewOp c = 4 → ends fun z =>
            (∀ ch r j, ch < i.chains → r < i.shape.rows → j < i.shape.cols → z.tileElement cd i ch r j = 0) ∧ z.tile.poison.getLsbD cd = false
              ∧ { z.seen with pool := s.seen.pool } = s.seen)
          ∧ (e.op = .tstore → s.tile.poisonOp.getLsbD t = false → s.spxClean e →
            let a := e.a
            ends fun z => { z.seen with spx := s.seen.spx } = s.seen
              ∧ (∀ x, (∀ l k, l < 32 → k < e.kb → (x < a.off + l * a.ls + k * a.ks ∨ a.off + l * a.ls + k * a.ks + 32 ≤ x)
                  ∧ x ≠ a.soff + (l * a.ls + k * a.ks) / 32) → z.spx.mem.get x = s.spx.mem.get x)
              ∧ (e.kb = 1 → ∀ l, l < 32 →
                (∀ m, m < 32 → m ≠ l → a.off + m * a.ls + 32 ≤ a.off + l * a.ls ∨ a.off + l * a.ls + 32 ≤ a.off + m * a.ls) →
                (∀ m, m < 32 → a.soff + m * a.ls / 32 < a.off + l * a.ls ∨ a.off + l * a.ls + 32 ≤ a.soff + m * a.ls / 32) →
                z.spx.mem.read (a.off + l * a.ls) 32 = s.tile.ops.read (opBlock t l koff) 32))

/-- A tile instruction starts, and the one at the head completes with its effects. -/
def Obligations.TileInstructionsStartAndComplete : Prop :=
  TileInstructionStarts ∧ TileInstructionsComplete

/-- A TSAVE'S DRAIN ENDS, a TSAVE and a TRESTORE complete: the older instructions leave the queue (one that runs must be a TMMA or TMMA.SEG, stopped between groups), with NO nothing is
written; then no name is live, no crate is held, the deferred trap is gone, the queue holds the younger instructions; with SCRUB the tile storage is zero,
the masks are all ones. A TRESTORE that completes gives the engine the image's view, masks, seed and NEXT_ITAG, puts the saved entries before the younger ones, and
loads the tile areas. -/
def Obligations.SavesDrainAndComplete : Prop :=
  ∀ (s : State) (e : TileEntry) (old young : List TileEntry), (∀ x ∈ old, x.op ≠ .tsave) → s.tile.late = [] → s.tile.heldTuse = [] →
    (e.op = .tsave → s.tile.draining = true → s.tile.queue = old ++ e :: young →
        (s.tile.busy = true → ∀ h, old.head? = some h → h.op = .tmma ∨ h.op = .tmmaSeg) →
        Leaves .tsaveDrainDone s fun t => t.tile.busy = true ∧ t.tile.draining = false
          ∧ (∃ f, t.tile.queue = { e with flags := f } :: young) ∧ (e.meets.pool = none → e.meets.opTile = none → t.tile.queue = e :: young)
          ∧ { t.seen with spx := s.seen.spx } = s.seen ∧ (e.ctl.getLsbD 2 = true → t.seen = s.seen))
      ∧ (e.op = .tsave → s.settled → s.tile.busy = true → s.tile.queue = e :: young → e.invalid = false → Leaves .tileInstrComplete s fun t =>
        t.tile.queue = young ∧ t.tile.busy = false ∧ t.tile.engine = TileView.init ∧ t.tile.issue = young.foldl viewStep TileView.init
          ∧ t.tile.tuseOp = 0#8 ∧ t.reg 0x4148 = s.reg 0x4148 &&& 0x3FFFFFFF#32
          ∧ t.seen = (if e.ctl.getLsbD 1 then { s.seen with ops := [], pool := [] } else s.seen)
          ∧ (e.ctl.getLsbD 1 = true → t.tile.maskr = 0xFFFFFFFF#32 ∧ t.tile.maskc = 0xFFFFFFFFFFFFFFFF#64 ∧ t.tile.poison = 0#32))
      ∧ (∀ x, e.op = .trestore → s.settled → s.tile.restored = some x → s.tile.busy = true → s.tile.queue = e :: young → s.spxClean e →
        (∀ r ∈ e.rows, r.1 < 40) → (e.rows.map Prod.fst).Nodup → Leaves .tileInstrComplete s fun t =>
        t.tile.queue = x.entries ++ young ∧ t.tile.busy = false ∧ t.tile.restored = none ∧ t.tile.engine = x.view
          ∧ t.tile.nextItag = BitVec.ofNat 8 (recNum x.ctl 0x38 4 / 2 ^ 12)
          ∧ t.tile.maskr = w32 (recNum x.ctl 0x14 4) ∧ t.tile.maskc = w64 (recNum x.ctl 0x18 8) ∧ t.tile.seed = w64 (recNum x.ctl 0x30 8)
          ∧ (∀ r ∈ e.rows, if r.1 < 8 then t.tile.ops.read (4224 * r.1) 4224 = s.spx.mem.read r.2 4224
              else t.tile.pool.read (4096 * (r.1 - 8)) 4096 = s.spx.mem.read r.2 4096)
          ∧ { t.seen with ops := s.seen.ops, pool := s.seen.pool } = s.seen)
end

