-- ==== Sys2Proof/Laws/Flags.lean ====
section
/-! SUPPORT. Laws of FLAGS: what each computation leaves of the other fields, and that reserved bits stay 0. -/

namespace Sys2Proof.Machine

theorem flagsOk_iff (v : DWord) : flagsOk v ↔ ∀ i, flagsMask.getLsbD i = false → v.getLsbD i = false := by
  unfold flagsOk
  constructor
  · intro h i hm
    have := congrArg (fun x : DWord => x.getLsbD i) h
    simp only [BitVec.getLsbD_and, BitVec.getLsbD_not, hm] at this
    by_cases hi : i < 64
    · simpa [hi] using this
    · exact BitVec.getLsbD_of_ge _ _ (by omega)
  · intro h
    refine BitVec.eq_of_getLsbD_eq fun i hi => ?_
    cases hm : flagsMask.getLsbD i
    · simp [h i hm]
    · simp [hm]

theorem flagsOk_or {a b : DWord} (ha : flagsOk a) (hb : flagsOk b) : flagsOk (a ||| b) := by
  rw [flagsOk_iff] at *
  intro i h
  simp [ha i h, hb i h]

theorem flagsOk_and {a : DWord} (b : DWord) (ha : flagsOk a) : flagsOk (a &&& b) := by
  rw [flagsOk_iff] at *
  intro i h
  simp [ha i h]

theorem flagsOk_mask {a m : DWord} (hm : flagsOk m) : flagsOk (a &&& m) := by
  rw [BitVec.and_comm]
  exact flagsOk_and a hm

theorem flagsOk_zero : flagsOk 0#64 := by decide

theorem flagsOk_ite {c : Prop} [Decidable c] {a b : DWord} (ha : flagsOk a) (hb : flagsOk b) : flagsOk (if c then a else b) := by
  split <;> assumption

@[simp] theorem setCond_ok (f : DWord) (k : Cond) (h : flagsOk f) : flagsOk (setCond f k) := by
  unfold setCond
  exact flagsOk_or (flagsOk_or (flagsOk_or (flagsOk_or (flagsOk_and _ h) (flagsOk_ite (by decide) (by decide)))
    (flagsOk_ite (by decide) (by decide))) (flagsOk_ite (by decide) (by decide))) (flagsOk_ite (by decide) (by decide))

theorem sticky_ok (x : Sticky) : flagsOk (x.zeroExtend 64 <<< 16) := by
  revert x
  decide

@[simp] theorem addSticky_ok (f : DWord) (x : Sticky) (h : flagsOk f) : flagsOk (addSticky f x) := flagsOk_or h (sticky_ok x)

@[simp] theorem setIE_ok (f : DWord) (b : Bool) (h : flagsOk f) : flagsOk (setIE f b) := by
  unfold setIE
  exact flagsOk_ite (flagsOk_or h (by decide)) (flagsOk_and _ h)

@[simp] theorem setUA_ok (f : DWord) (b : Bool) (h : flagsOk f) : flagsOk (setUA f b) := by
  unfold setUA
  exact flagsOk_ite (flagsOk_or h (by decide)) (flagsOk_and _ h)

theorem plBits_ok (p : BitVec 2) : flagsOk (p.zeroExtend 64 <<< 10) := by
  revert p
  decide

@[simp] theorem setPL_ok (f : DWord) (p : BitVec 2) (h : flagsOk f) : flagsOk (setPL f p) :=
  flagsOk_or (flagsOk_and _ h) (plBits_ok p)

@[simp] theorem entryFlags_ok (f : DWord) (m : Bool) (h : flagsOk f) : flagsOk (entryFlags f m) := by
  unfold entryFlags
  exact setPL_ok _ _ (setUA_ok _ _ (setIE_ok _ _ h))

theorem mtsrFlags_ok (f v : DWord) (u : Bool) (h : flagsOk f) :
    flagsOk ((f &&& ~~~(mtsrFlagsMask u)) ||| (v &&& mtsrFlagsMask u)) := by
  refine flagsOk_or (flagsOk_and _ h) (flagsOk_mask ?_)
  cases u <;> decide

theorem flagsOk_masked (v : DWord) : flagsOk (v &&& flagsMask) := flagsOk_mask (by decide)

theorem vecs_masked (v : DWord) : (v &&& ~~~0x3F#64) &&& 0x3F#64 = 0#64 := by
  rw [BitVec.and_assoc, show ~~~0x3F#64 &&& 0x3F#64 = 0#64 by decide, BitVec.and_zero]

end Sys2Proof.Machine
end

