-- ==== Sys2Proof/Laws/Memory.lean ====
section
/-! SUPPORT. Laws of byte storage: what a read after a write gives, and that every operation keeps the canonical form. -/

namespace Sys2Proof.Machine

/-! ## The canonical form -/

theorem cellsOf_bounds (a : Nat) (bs : List Byte) (c : Host.Cell) (h : c ∈ cellsOf a bs) :
    a ≤ c.1 ∧ c.1 < a + bs.length ∧ c.2 ≠ 0#8 := by
  induction bs generalizing a with
  | nil => simp [cellsOf] at h
  | cons b bs ih =>
    unfold cellsOf at h
    split at h
    · obtain ⟨x, y, z⟩ := ih (a + 1) h
      exact ⟨by omega, by simp only [List.length_cons]; omega, z⟩
    · rcases List.mem_cons.1 h with rfl | h
      · exact ⟨Nat.le_refl _, by simp, by assumption⟩
      · obtain ⟨x, y, z⟩ := ih (a + 1) h
        exact ⟨by omega, by simp only [List.length_cons]; omega, z⟩

theorem cellsOf_sorted (a : Nat) (bs : List Byte) : (cellsOf a bs).Pairwise fun x y => x.1 < y.1 := by
  induction bs generalizing a with
  | nil => simp [cellsOf]
  | cons b bs ih =>
    unfold cellsOf
    split
    · exact ih _
    · refine List.pairwise_cons.2 ⟨fun c h => ?_, ih _⟩
      have := cellsOf_bounds (a + 1) bs c h
      simp only
      omega

/-- A write keeps the canonical form. -/
theorem Memory.write_wf (m : Memory) (a : Nat) (bs : List Byte) (h : m.wf) : (m.write a bs).wf := by
  obtain ⟨hs, hz⟩ := h
  constructor
  · unfold Memory.write
    rw [List.pairwise_append, List.pairwise_append]
    refine ⟨⟨hs.filter _, cellsOf_sorted _ _, ?_⟩, hs.filter _, ?_⟩
    · intro x hx y hy
      have := cellsOf_bounds a bs y hy
      have := (List.mem_filter.1 hx).2
      simp only [decide_eq_true_eq] at this
      omega
    · intro x hx y hy
      have hy' := (List.mem_filter.1 hy).2
      simp only [decide_eq_true_eq] at hy'
      rcases List.mem_append.1 hx with hx | hx
      · have := (List.mem_filter.1 hx).2
        simp only [decide_eq_true_eq] at this
        omega
      · have := cellsOf_bounds a bs x hx
        omega
  · intro c hc
    unfold Memory.write at hc
    rcases List.mem_append.1 hc with hc | hc
    · rcases List.mem_append.1 hc with hc | hc
      · exact hz c (List.mem_filter.1 hc).1
      · exact (cellsOf_bounds a bs c hc).2.2
    · exact hz c (List.mem_filter.1 hc).1

/-- Zeroing a range keeps the canonical form. -/
theorem Memory.clear_wf (m : Memory) (a n : Nat) (h : m.wf) : (m.clear a n).wf :=
  ⟨h.1.filter _, fun c hc => h.2 c (List.mem_filter.1 hc).1⟩

theorem Memory.nil_wf : Memory.wf [] := ⟨List.Pairwise.nil, fun _ h => absurd h (List.not_mem_nil)⟩

/-! ## Reads -/

theorem Memory.get_append (m n : Memory) (a : Nat) :
    Memory.get (m ++ n) a = if m.any (fun c => c.1 == a) then m.get a else n.get a := by
  induction m with
  | nil => simp
  | cons c m ih =>
    simp only [List.cons_append, Memory.get, List.any_cons, ih]
    by_cases h : c.1 = a <;> simp [h]

theorem Memory.get_none (m : Memory) (a : Nat) (h : ∀ c ∈ m, c.1 ≠ a) : m.get a = 0#8 := by
  induction m with
  | nil => rfl
  | cons c m ih =>
    rw [Memory.get, if_neg (h c List.mem_cons_self)]
    exact ih fun d hd => h d (List.mem_cons_of_mem _ hd)

theorem Memory.get_filter (m : Memory) (p : Nat → Bool) (a : Nat) (h : p a = true) :
    Memory.get (m.filter fun c => p c.1) a = m.get a := by
  induction m with
  | nil => rfl
  | cons c m ih =>
    by_cases hc : c.1 = a
    · subst hc; simp [Memory.get, h]
    · by_cases hp : p c.1 = true
      · simp [Memory.get, hp, hc, ih]
      · simp [Memory.get, hp, hc, ih]

theorem cellsOf_get (a : Nat) (bs : List Byte) (k : Nat) (h : k < bs.length) :
    Memory.get (cellsOf a bs) (a + k) = bs.getD k 0#8 := by
  induction bs generalizing a k with
  | nil => simp at h
  | cons b bs ih =>
    unfold cellsOf
    cases k with
    | zero =>
      split
      · rename_i hb
        rw [Memory.get_none _ _ fun c hc => by have := (cellsOf_bounds _ _ c hc).1; omega]
        simp [hb]
      · simp [Memory.get]
    | succ k =>
      have h' : k < bs.length := by simpa using h
      have := ih (a + 1) k h'
      rw [show a + (k + 1) = a + 1 + k by omega]
      split
      · simpa using this
      · rw [Memory.get, if_neg (by simp only; omega)]
        simpa using this

/-- A read after a write: the byte written. -/
theorem Memory.get_write (m : Memory) (a : Nat) (bs : List Byte) (k : Nat) (h : k < bs.length) :
    (m.write a bs).get (a + k) = bs.getD k 0#8 := by
  unfold Memory.write
  have h1 : (m.filter fun c => c.1 < a).any (fun c => c.1 == a + k) = false := by
    rw [List.any_eq_false]
    intro c hc
    have := (List.mem_filter.1 hc).2
    simp only [decide_eq_true_eq] at this
    simp only [beq_iff_eq]
    omega
  rw [List.append_assoc, Memory.get_append, h1, if_neg (by simp), Memory.get_append]
  split
  · exact cellsOf_get a bs k h
  · rename_i hn
    have hz : Memory.get (cellsOf a bs) (a + k) = 0#8 := Memory.get_none _ _ fun c hc he => hn (by
      rw [List.any_eq_true]
      exact ⟨c, hc, by simp [he]⟩)
    rw [cellsOf_get a bs k h] at hz
    rw [hz]
    refine Memory.get_none _ _ fun c hc => ?_
    have := (List.mem_filter.1 hc).2
    simp only [decide_eq_true_eq] at this
    omega

/-- A write leaves every byte outside its range. -/
theorem Memory.get_write_other (m : Memory) (a : Nat) (bs : List Byte) (x : Nat) (h : x < a ∨ a + bs.length ≤ x) :
    (m.write a bs).get x = m.get x := by
  unfold Memory.write
  have hc : Memory.get (cellsOf a bs) x = 0#8 ∧ (cellsOf a bs).any (fun c => c.1 == x) = false := by
    have hb : ∀ c ∈ cellsOf a bs, c.1 ≠ x := fun c hc => by
      have := cellsOf_bounds a bs c hc
      omega
    refine ⟨Memory.get_none _ _ hb, ?_⟩
    rw [List.any_eq_false]
    intro c hc
    simpa using hb c hc
  rw [List.append_assoc, Memory.get_append, Memory.get_append, hc.2]
  rcases h with h | h
  · split
    · exact Memory.get_filter m (fun y => decide (y < a)) x (by simpa using h)
    · rename_i hn
      rw [if_neg (by simp), Memory.get_none (m.filter _)]
      · refine (Memory.get_none m x fun c hc he => hn ?_).symm
        rw [List.any_eq_true]
        exact ⟨c, List.mem_filter.2 ⟨hc, by simp [he, h]⟩, by simp [he]⟩
      · intro c hc
        have := (List.mem_filter.1 hc).2
        simp only [decide_eq_true_eq] at this
        omega
  · rw [if_neg, if_neg (by simp)]
    · exact Memory.get_filter m (fun y => decide (a + bs.length ≤ y)) x (by simpa using h)
    · rw [Bool.not_eq_true, List.any_eq_false]
      intro c hc
      have := (List.mem_filter.1 hc).2
      simp only [decide_eq_true_eq] at this
      simp only [beq_iff_eq]
      omega

theorem Memory.read_length (m : Memory) (a n : Nat) : (m.read a n).length = n := by
  induction n generalizing a with
  | zero => rfl
  | succ n ih => simp [Memory.read, ih]

theorem Memory.read_getD (m : Memory) (a n k : Nat) (h : k < n) : (m.read a n).getD k 0#8 = m.get (a + k) := by
  induction n generalizing a k with
  | zero => omega
  | succ n ih =>
    cases k with
    | zero => rfl
    | succ k =>
      have := ih (a + 1) k (by omega)
      simp only [Memory.read, List.getD_cons_succ, this]
      congr 1
      omega

/-- A read of what was written gives it back. -/
theorem Memory.read_write (m : Memory) (a : Nat) (bs : List Byte) : (m.write a bs).read a bs.length = bs := by
  refine List.ext_getElem (Memory.read_length _ _ _) fun k h1 h2 => ?_
  have h := Memory.read_getD (m.write a bs) a bs.length k h2
  rw [Memory.get_write m a bs k h2] at h
  simpa [List.getD_eq_getElem?_getD, h1, h2] using h

end Sys2Proof.Machine
end

