-- ==== Sys2Proof/Laws/Tile.lean ====
section
/-! SUPPORT. Laws of tile storage: every writer keeps the canonical form. -/

namespace Sys2Proof.Machine

theorem foldl_wf {α : Type} (f : Memory → α → Memory) (h : ∀ m x, m.wf → (f m x).wf) (xs : List α) (m : Memory) (hm : m.wf) :
    (xs.foldl f m).wf := by
  induction xs generalizing m with
  | nil => exact hm
  | cons x xs ih => exact ih _ (h _ _ hm)

theorem writeChain_wf (p : Memory) (cd : Nat) (i : NameInfo) (c : Nat) (xs : List Nat) (h : p.wf) : (writeChain p cd i c xs).wf :=
  Memory.write_wf _ _ _ h

theorem mapChains_wf (p : Memory) (cd : Nat) (i : NameInfo) (f : Nat → List Nat → List Nat) (h : p.wf) :
    (mapChains p cd i f).wf :=
  foldl_wf _ (fun _ _ hm => writeChain_wf _ _ _ _ _ hm) _ _ h

end Sys2Proof.Machine
end

