-- ==== Sys2Proof/Laws/Seen.lean ====
section
/-! SUPPORT. What software sees of a state, and the condition Seen.ok, under the shared operations of the pipeline, the fabric, power and RAS. -/

namespace Sys2Proof.Machine

@[simp] theorem seen_mk (b st r sg lh rh br be ta sy ti cp sx ca xl ne pi bo rs pw ra li db mo fr pe) :
    (State.mk b st r sg lh rh br be ta sy ti cp sx ca xl ne pi bo rs pw ra li db mo fr pe).seen
      = ⟨cp.g, cp.f, cp.ip, cp.flags, cp.brs, cp.bre, cp.brc, cp.veidx, cp.tid, cp.frameS, cp.frameM, cp.vecs, sy, sx.mem, ti.ops,
        ti.pool⟩ := Eq.trans rfl rfl
@[simp] theorem seen_fold (s : State) :
    (⟨s.cpu.g, s.cpu.f, s.cpu.ip, s.cpu.flags, s.cpu.brs, s.cpu.bre, s.cpu.brc, s.cpu.veidx, s.cpu.tid, s.cpu.frameS,
      s.cpu.frameM, s.cpu.vecs, s.sync, s.spx.mem, s.tile.ops, s.tile.pool⟩ : Seen) = s.seen := Eq.trans rfl rfl
theorem foldl_seen {α : Type} (f : State → α → State) (h : ∀ s x, (f s x).seen = s.seen) (xs : List α) (s : State) :
    (xs.foldl f s).seen = s.seen := by
  induction xs generalizing s with
  | nil => rfl
  | cons x xs ih => rw [List.foldl_cons, ih, h]
@[simp] theorem ite_seen {c : Prop} [Decidable c] (a b : State) : (if c then a else b).seen = if c then a.seen else b.seen := by
  split <;> rfl
theorem foldl_ok {α : Type} (f : State → α → State) (h : ∀ s x, s.seen.ok → (f s x).seen.ok) (xs : List α) (s : State)
    (hs : s.seen.ok) : (xs.foldl f s).seen.ok := by
  induction xs generalizing s with
  | nil => exact hs
  | cons x xs ih => exact ih _ (h _ _ hs)
@[simp] theorem ite_ok {c : Prop} [Decidable c] (a b : Seen) : (if c then a else b).ok = if c then a.ok else b.ok := by
  split <;> rfl
@[simp] theorem State.setReg_seen (s : State) (x0 : ℕ) (x1 : Word) :
    (s.setReg x0 x1).seen = s.seen := by
  unfold State.setReg
  rfl
@[simp] theorem State.setReg64_seen (s : State) (x0 : ℕ) (x1 : DWord) :
    (s.setReg64 x0 x1).seen = s.seen := by
  unfold State.setReg64
  rfl
@[simp] theorem State.abandonWork_seen (s : State) :
    s.abandonWork.seen = s.seen := by
  unfold State.abandonWork
  rfl
@[simp] theorem State.orReg_seen (s : State) (x0 : ℕ) (x1 : Word) :
    (s.orReg x0 x1).seen = s.seen := by
  unfold State.orReg
  rfl
@[simp] theorem State.capture_seen (s : State) (x0 : ℕ) (x1 : ErrEvt) :
    (s.capture x0 x1).seen = s.seen := by simp [State.capture]
@[simp] theorem State.raise_seen (s : State) (x0 : ℕ) (x1 : ℕ) :
    (s.raise x0 x1).seen = s.seen := by
  unfold State.raise
  rfl
@[simp] theorem State.raiseErr_seen (s : State) (x0 : ℕ) (x1 : ErrEvt) :
    (s.raiseErr x0 x1).seen = s.seen := by simp [State.raiseErr]
@[simp] theorem State.absorbTags_seen (s : State) :
    s.absorbTags.1.seen = s.seen := by
  unfold State.absorbTags
  dsimp only
  split
  · rfl
  · rw [State.raiseErr_seen]; rfl
@[simp] theorem State.addReg_seen (s : State) (x0 : ℕ) (x1 : ℕ) :
    (s.addReg x0 x1).seen = s.seen := by
  unfold State.addReg
  rfl
@[simp] theorem State.bump_seen (s : State) (x0 : ℕ) :
    (s.bump x0).seen = s.seen := by
  unfold State.bump
  rfl
@[simp] theorem State.noteErr_seen (s : State) (x0 : ℕ) (x1 : ℕ) (x2 : DWord) :
    (s.noteErr x0 x1 x2).seen = s.seen := by
  unfold State.noteErr
  rfl
@[simp] theorem State.leak_seen (s : State) :
    s.leak.seen = s.seen := by simp [State.leak]
theorem ite_state_ok (p : Prop) [Decidable p] (a b : State) (ha : a.seen.ok) (hb : b.seen.ok) : (if p then a else b).seen.ok := by
  split
  · exact ha
  · exact hb
@[simp] theorem State.raiseErrs_seen (s : State) (x0 : ℕ) (x1 : List ErrEvt) :
    (s.raiseErrs x0 x1).seen = s.seen := by
  unfold State.raiseErrs
  split <;> simp [foldl_seen]
@[simp] theorem State.flushEvts_seen (r : State × List ErrEvt) : (State.flushEvts r).seen = r.1.seen := by
  unfold State.flushEvts
  simp
@[simp] theorem State.addLedger_seen (s : State) (x0 : ℕ) (x1 : ℕ) (x2 : ℕ) (x3 : Word) (x4 : DWord) (x5 : Bool) :
    (s.addLedger x0 x1 x2 x3 x4 x5).1.seen = s.seen := by
  unfold State.addLedger
  split <;> rfl
@[simp] theorem State.setLane_seen (s : State) (x0 : Fin 2) (x1 : Lane) :
    (s.setLane x0 x1).seen = s.seen := by
  unfold State.setLane
  rfl
@[simp] theorem State.charge_seen (s : State) (x0 : ℕ) (x1 : ℕ) :
    (s.charge x0 x1).seen = s.seen := by
  unfold State.charge
  rfl
@[simp] theorem State.pump_seen (s : State) (x0 : Fin 2) :
    (s.pump x0).seen = s.seen := by
  unfold State.pump
  rfl
@[simp] theorem State.resend_seen (s : State) (x0 : List OutMsg) :
    (s.resend x0).seen = s.seen := by simp [State.resend, foldl_seen]
@[simp] theorem State.retireLane_seen (s : State) (x0 : Fin 2) (x1 : ℕ) :
    (s.retireLane x0 x1).seen = s.seen := by simp [State.retireLane]
@[simp] theorem State.fenceCore_seen (s : State) (x0 : Byte) (x1 : Bool) (x2 : Bool) :
    (s.fenceCore x0 x1 x2).1.seen = s.seen := by
  unfold State.fenceCore
  repeat' first | rfl | (simp; done) | split
@[simp] theorem State.machineCheck_seen (s : State) (x0 : ℕ) (x1 : Bool) (x2 : ℕ) (x3 : DWord) :
    (s.machineCheck x0 x1 x2 x3).seen = s.seen := by simp [State.machineCheck]
@[simp] theorem State.lineLost_seen (s : State) (x0 : ℕ) (x1 : ℕ) (x2 : BitVec 16) :
    (s.lineLost x0 x1 x2).seen = s.seen := by
  unfold State.lineLost
  try dsimp only
  repeat' first | rfl | (simp; done) | split
@[simp] theorem State.dropWay_seen (s : State) (x0 : Bool) (x1 : ℕ) :
    (s.dropWay x0 x1).seen = s.seen := by
  unfold State.dropWay
  try dsimp only
  repeat' first | rfl | (simp [foldl_seen]; done) | split
@[simp] theorem State.retireEffect_seen (s : State) (x0 : ℕ) (x1 : Bool) (x2 : Bool) :
    (s.retireEffect x0 x1 x2).1.seen = s.seen := by
  unfold State.retireEffect
  dsimp only
  repeat' first | rfl | (simp; done) | split
@[simp] theorem State.retireChannel_seen (s : State) (x0 : ℕ) (x1 : Bool) (x2 : Bool) :
    (s.retireChannel x0 x1 x2).1.seen = s.seen := by
  unfold State.retireChannel
  repeat' first | rfl | (simp; done) | split
@[simp] theorem State.retireFull_seen (s : State) (x0 : ℕ) :
    (s.retireFull x0).1.seen = s.seen := by
  unfold State.retireFull
  split <;> simp
@[simp] theorem State.setLevel_seen (s : State) (x0 : ℕ) (x1 : ℕ) :
    (s.setLevel x0 x1).seen = s.seen := by
  unfold State.setLevel
  rfl
@[simp] theorem State.fillBucket_seen (s : State) (x0 : ℕ) (x1 : ℕ) :
    (s.fillBucket x0 x1).seen = s.seen := by simp [State.fillBucket]
@[simp] theorem State.countTransient_seen (s : State) (x0 : ℕ) :
    (s.countTransient x0).seen = s.seen := by simp [State.countTransient]
@[simp] theorem State.countUncorr_seen (s : State) (x0 : ℕ) (x1 : ℕ) (x2 : DWord) :
    (s.countUncorr x0 x1 x2).seen = s.seen := by simp [State.countUncorr]
@[simp] theorem State.rasCount_seen (s : State) (x0 : ℕ) (x1 : RasKind) (x2 : ℕ) (x3 : DWord) :
    (s.rasCount x0 x1 x2 x3).seen = s.seen := by
  unfold State.rasCount
  repeat' first | rfl | (simp; done) | split
@[simp] theorem State.latchWfi_seen (s : State) :
    s.latchWfi.seen = s.seen := by
  unfold State.latchWfi
  try dsimp only
  repeat' first | rfl | (simp; done) | split
@[simp] theorem State.dropLoop_seen (s : State) :
    s.dropLoop.seen = s.seen := by
  unfold State.dropLoop
  try dsimp only
  repeat' first | rfl | (simp; done) | split
@[simp] theorem State.loseLane_seen (s : State) (x0 : Fin 2) (x1 : ℕ) :
    (s.loseLane x0 x1).seen = s.seen := by simp [State.loseLane]
@[simp] theorem State.checkAllow_seen (s : State) :
    s.checkAllow.seen = s.seen := by simp [State.checkAllow]
@[simp] theorem State.levelSync_seen (s : State) :
    s.levelSync.seen = s.seen := by
  unfold State.levelSync
  try dsimp only
  repeat' first | rfl | (simp; done) | split
@[simp] theorem State.checkTemp_seen (s : State) :
    s.checkTemp.seen = s.seen := by
  unfold State.checkTemp
  try dsimp only
  repeat' first | rfl | (simp; done) | split
@[simp] theorem State.syncSet_ok (s : State) (n : Fin 64) (v : Word) (hs : s.seen.ok) : (s.syncSet n v).seen.ok := hs
@[simp] theorem State.syncAdd_ok (s : State) (n : Fin 64) (v : Word) (hs : s.seen.ok) : (s.syncAdd n v).seen.ok := hs
@[simp] theorem State.enqueue_seen (s : State) (x0 : OutMsg) :
    (s.enqueue x0).1.seen = s.seen := by
  unfold State.enqueue
  split <;> rfl
@[simp] theorem State.postPhys_seen (s : State) (x0 : Body) (x1 : Word) (x2 : BitVec 7) (x3 : BitVec 11) :
    (s.postPhys x0 x1 x2 x3).1.seen = s.seen := by
  unfold State.postPhys
  split <;> simp
@[simp] theorem State.postOther_seen (s : State) (x0 : Body) (x1 : Word) :
    (s.postOther x0 x1).seen = s.seen := by
  unfold State.postOther
  split <;> simp
@[simp] theorem State.answer_seen (s : State) (x0 : Body) (x1 : Word) (x2 : Bool) :
    (s.answer x0 x1 x2).seen = s.seen := by simp [State.answer]
@[simp] theorem State.addTag_seen (s : State) (x0 : TagEntry) :
    (s.addTag x0).seen = s.seen := by
  unfold State.addTag
  rfl
@[simp] theorem State.dropTag_seen (s : State) (x0 : Byte) :
    (s.dropTag x0).seen = s.seen := by
  unfold State.dropTag
  rfl
@[simp] theorem State.setG_ok (s : State) (n : Fin 32) (v : DWord) (hs : s.seen.ok) : (s.setG n v).seen.ok := by
  unfold State.setG
  split <;> exact hs
@[simp] theorem State.setF_ok (s : State) (n : Fin 32) (v : DWord) (hs : s.seen.ok) : (s.setF n v).seen.ok := hs
@[simp] theorem State.post_seen (s : State) (x0 : Body) (x1 : Word) :
    (s.post x0 x1).1.seen = s.seen := by
  unfold State.post
  repeat' first | rfl | (simp; done) | split
@[simp] theorem State.badMsg_seen (s : State) (x0 : BitVec 2) (x1 : BitVec 6) (x2 : Word) :
    (s.badMsg x0 x1 x2).seen = s.seen := by simp [State.badMsg]
@[simp] theorem State.setFlags_ok (s : State) (v : DWord) (hs : s.seen.ok) (hv : flagsOk v) : (s.setFlags v).seen.ok :=
  ⟨hs.1, hs.2.1, hs.2.2.1, hv, hs.2.2.2.2⟩
@[simp] theorem State.endStep_seen (s : State) :
    s.endStep.seen = s.seen := by simp [State.endStep]
@[simp] theorem State.flags_ok (s : State) (hs : s.seen.ok) : flagsOk s.cpu.flags := hs.2.2.2.1
@[simp] theorem State.sticky_okS (s : State) (x : Sticky) (hs : s.seen.ok) : (s.sticky x).seen.ok :=
  s.setFlags_ok _ hs (addSticky_ok _ _ hs.2.2.2.1)
@[simp] theorem State.enter_ok (s : State) (m : Bool) (v : Fin 6) (a : Bool) (c : Nat) (d : Word) (x r : DWord) (hs : s.seen.ok) :
    (s.enter m v a c d x r).seen.ok := by
  obtain ⟨h1, h2, h3, h4, h5, h6, h7⟩ := hs
  cases m
  · exact ⟨h1, h2, h3, entryFlags_ok _ _ h4, h4, h6, h7⟩
  · exact ⟨h1, h2, h3, entryFlags_ok _ _ h4, h5, h4, h7⟩
@[simp] theorem State.except_ok (s : State) (x0 : ℕ) (x1 : Word) (x2 : DWord) (hs : s.seen.ok) :
    (s.except x0 x1 x2).seen.ok := by simp [State.except, hs]
@[simp] theorem State.bump64_seen (s : State) (x0 : ℕ) (x1 : ℕ) :
    (s.bump64 x0 x1).seen = s.seen := by
  unfold State.bump64
  rfl
@[simp] theorem State.retireInstr_seen (s : State) :
    s.retireInstr.seen = s.seen := by
  unfold State.retireInstr
  rfl
@[simp] theorem State.retireInstr_ok (s : State) (hs : s.seen.ok) : s.retireInstr.seen.ok := by
  simpa using hs
theorem loopBack_flags (c : Cpu) (n : DWord) : (loopBack c n).flags = c.flags ∧ (loopBack c n).frameS = c.frameS
    ∧ (loopBack c n).frameM = c.frameM ∧ (loopBack c n).vecs = c.vecs := by
  unfold loopBack
  split
  · split <;> exact ⟨rfl, rfl, rfl, rfl⟩
  · exact ⟨rfl, rfl, rfl, rfl⟩
@[simp] theorem State.commit_ok (s : State) (n : Nat) (hs : s.seen.ok) : (s.commit n).seen.ok := by
  unfold State.commit
  have h := s.retireInstr_ok hs
  obtain ⟨h1, h2, h3, h4, h5, h6, h7⟩ := h
  have k := loopBack_flags s.retireInstr.cpu (s.retireInstr.cpu.ip + w64 n)
  simp only [State.endStep_seen]
  refine ⟨h1, h2, h3, ?_, ?_, ?_, ?_⟩
  · show flagsOk (loopBack _ _).flags
    rw [k.1]; exact h4
  · show flagsOk (loopBack _ _).frameS.xflags
    rw [k.2.1]; exact h5
  · show flagsOk (loopBack _ _).frameM.xflags
    rw [k.2.2.1]; exact h6
  · intro n
    show (loopBack _ _).vecs[n] &&& _ = _
    rw [k.2.2.2]; exact h7 n
@[simp] theorem State.commitUnit_seen (s : State) :
    s.commitUnit.seen = s.seen := by simp [State.commitUnit]
@[simp] theorem State.commitRepUnit_seen (s : State) :
    s.commitRepUnit.seen = s.seen := by simp [State.commitRepUnit]
@[simp] theorem State.commitRepLast_ok (s : State) (x0 : ℕ) (hs : s.seen.ok) :
    (s.commitRepLast x0).seen.ok := by
  unfold State.commitRepLast
  try dsimp only
  repeat' first | assumption | (simp [hs]; done) | split
@[simp] theorem State.updateForecast_seen (s : State) :
    s.updateForecast.seen = s.seen := by
  unfold State.updateForecast
  rfl
@[simp] theorem State.stepLevel_seen (s : State) :
    s.stepLevel.seen = s.seen := by
  unfold State.stepLevel
  try dsimp only
  repeat' first | rfl | (simp; done) | split
@[simp] theorem State.chargeCells_seen (s : State) (x0 : ℕ) (x1 : ℕ) :
    (s.chargeCells x0 x1).seen = s.seen := by
  unfold State.chargeCells
  rfl
@[simp] theorem State.goTo_ok (s : State) (x0 : DWord) (x1 : Option (DWord × DWord)) (hs : s.seen.ok) : (s.goTo x0 x1).seen.ok := by
  have h : s.retireInstr.seen.ok := by simp [hs]
  unfold State.goTo
  rw [State.endStep_seen]
  exact h
@[simp] theorem State.branch_ok (s : State) (x0 : ℕ) (x1 : DWord) (hs : s.seen.ok) :
    (s.branch x0 x1).seen.ok := by
  unfold State.branch
  try dsimp only
  repeat' first | assumption | (simp [hs]; done) | split
@[simp] theorem State.undef_ok (s : State)  (hs : s.seen.ok) :
    s.undef.seen.ok := by simp [State.undef, hs]
@[simp] theorem State.eret_ok (s : State) (hs : s.seen.ok) : s.eret.seen.ok := by
  unfold State.eret
  have hf : flagsOk (if s.pl = 2 then s.cpu.frameM else s.cpu.frameS).xflags := by
    split
    · exact hs.2.2.2.2.2.1
    · exact hs.2.2.2.2.1
  generalize (if s.pl = 2 then s.cpu.frameM else s.cpu.frameS) = fr at hf
  dsimp only
  have h := s.retireInstr_ok hs
  split
  · exact State.except_ok _ _ _ _ hs
  · rw [State.endStep_seen]
    exact ⟨h.1, h.2.1, h.2.2.1, hf, h.2.2.2.2⟩
@[simp] theorem State.sendHello_seen (s : State) (x0 : Fin 2) :
    (s.sendHello x0).seen = s.seen := by simp [State.sendHello]
@[simp] theorem State.jump_ok (s : State) (x0 : DWord) (hs : s.seen.ok) :
    (s.jump x0).seen.ok := by
  unfold State.jump
  try dsimp only
  repeat' first | assumption | (simp [hs]; done) | split
@[simp] theorem State.misroute_seen (s : State) (x0 : Word) (x1 : Word) (x2 : DWord) :
    (s.misroute x0 x1 x2).seen = s.seen := by simp [State.misroute]

end Sys2Proof.Machine
end

