-- ==== Sys2Proof/Laws/SeenRegs.lean ====
section
/-! SUPPORT. What software sees of a state, and the condition Seen.ok, under storage, resets, life cycle and register writes. -/

namespace Sys2Proof.Machine

@[simp] theorem State.absorbClear_seen (s : State) :
    s.absorbClear.seen = s.seen := by
  unfold State.absorbClear
  rfl
@[simp] theorem State.setHold_seen (s : State) (x0 : Accessor) (x1 : Hold) :
    (s.setHold x0 x1).seen = s.seen := by
  unfold State.setHold
  split <;> rfl
@[simp] theorem State.pairWriteLow_seen (s : State) (x0 : Accessor) (x1 : ℕ) (x2 : Word) :
    (s.pairWriteLow x0 x1 x2).seen = s.seen := by simp [State.pairWriteLow]
@[simp] theorem State.lateNow_seen (s : State) (x0 : LateWrite) :
    (s.lateNow x0).seen = s.seen := by
  unfold State.lateNow
  split <;> rfl
@[simp] theorem State.lateWrite_seen (s : State) (x0 : LateWrite) (x1 : Option InMsg) :
    (s.lateWrite x0 x1).seen = s.seen := by
  unfold State.lateWrite
  try dsimp only
  repeat' first | rfl | (simp; done) | split
@[simp] theorem State.plainWrite_seen (s : State) (x0 : ℕ) (x1 : Word) :
    (s.plainWrite x0 x1).seen = s.seen := by
  unfold State.plainWrite
  split <;> simp
@[simp] theorem State.pairStore_seen (s : State) (x0 : ℕ) (x1 : Word) (x2 : Word) (x3 : Option InMsg) :
    (s.pairStore x0 x1 x2 x3).seen = s.seen := by
  unfold State.pairStore
  try dsimp only
  repeat' first | rfl | (simp; done) | split
@[simp] theorem State.pairWriteHigh_seen (s : State) (x0 : Accessor) (x1 : ℕ) (x2 : Word) (x3 : Option InMsg) :
    (s.pairWriteHigh x0 x1 x2 x3).seen = s.seen := by
  unfold State.pairWriteHigh
  try dsimp only
  repeat' first | rfl | (simp; done) | split
@[simp] theorem State.writeEvtRaw_seen (s : State) (x0 : ℕ) (x1 : Word) :
    (s.writeEvtRaw x0 x1).seen = s.seen := by
  unfold State.writeEvtRaw
  rfl
@[simp] theorem State.testErrs_seen (s : State) (x0 : ℕ) (x1 : Word) :
    (s.testErrs x0 x1).seen = s.seen := by simp [State.testErrs]
@[simp] theorem State.writeEvtSet_seen (s : State) (x0 : ℕ) (x1 : Word) :
    (s.writeEvtSet x0 x1).seen = s.seen := by simp [State.writeEvtSet]
@[simp] theorem State.clearValid_seen (s : State) (x0 : ℕ) (x1 : Word) :
    (s.clearValid x0 x1).seen = s.seen := by simp [State.clearValid]
@[simp] theorem State.writeLock_seen (s : State) (x0 : ℕ) (x1 : Word) :
    (s.writeLock x0 x1).seen = s.seen := by simp [State.writeLock]
@[simp] theorem State.cancelApply_seen (s : State) (x0 : ℕ) :
    (s.cancelApply x0).seen = s.seen := by
  unfold State.cancelApply
  rfl
@[simp] theorem State.armApply_seen (s : State) (x0 : ℕ) :
    (s.armApply x0).seen = s.seen := by
  unfold State.armApply
  rfl
@[simp] theorem State.writeApply_seen (s : State) (x0 : ℕ) (x1 : Word) :
    (s.writeApply x0 x1).seen = s.seen := by simp [State.writeApply]
@[simp] theorem State.commonWrite_seen (s : State) (x0 : ℕ) (x1 : ℕ) (x2 : Word) :
    (s.commonWrite x0 x1 x2).seen = s.seen := by
  unfold State.commonWrite
  split <;> simp
@[simp] theorem State.dropFetch_seen (s : State) :
    s.dropFetch.seen = s.seen := by
  unfold State.dropFetch
  rfl
@[simp] theorem State.setTuse_seen (s : State) (x0 : Word) :
    (s.setTuse x0).seen = s.seen := by
  unfold State.setTuse
  rfl
@[simp] theorem State.tuseNow_seen (s : State) (x0 : ℕ) (x1 : Word) :
    (s.tuseNow x0 x1).seen = s.seen := by simp [State.tuseNow]
@[simp] theorem State.writeTuse_seen (s : State) (x0 : ℕ) (x1 : Word) (x2 : Option InMsg) :
    (s.writeTuse x0 x1 x2).seen = s.seen := by simp [State.writeTuse]
@[simp] theorem State.writeRbits_seen (s : State) (x0 : Word) (x1 : Option InMsg) :
    (s.writeRbits x0 x1).seen = s.seen := by
  unfold State.writeRbits
  try dsimp only
  repeat' first | rfl | (simp; done) | split
@[simp] theorem State.followPower_seen (s : State) :
    s.followPower.seen = s.seen := by
  unfold State.followPower
  rfl
@[simp] theorem State.setBankpwr_seen (s : State) (x0 : Word) :
    (s.setBankpwr x0).seen = s.seen := by simp [State.setBankpwr]
@[simp] theorem State.writeFabCtrl_seen (s : State) (x0 : Word) :
    (s.writeFabCtrl x0).seen = s.seen := by simp [State.writeFabCtrl]
@[simp] theorem State.midWrite_seen (s : State) (x0 : ℕ) (x1 : ℕ) (x2 : Word) (x3 : Option InMsg) :
    (s.midWrite x0 x1 x2 x3).seen = s.seen := by
  unfold State.midWrite
  split <;> simp
@[simp] theorem State.autoInc_seen (s : State) :
    s.autoInc.seen = s.seen := by simp [State.autoInc]
@[simp] theorem State.writeStaged_seen (s : State) (x0 : Word) :
    (s.writeStaged x0).seen = s.seen := by simp [State.writeStaged]
@[simp] theorem State.skewClear_seen (s : State) (x0 : Word) :
    (s.skewClear x0).seen = s.seen := by simp [State.skewClear]
@[simp] theorem State.writeWeighCtrl_seen (s : State) (x0 : Word) :
    (s.writeWeighCtrl x0).seen = s.seen := by simp [State.writeWeighCtrl]
@[simp] theorem State.writeFence_seen (s : State) (x0 : Word) :
    (s.writeFence x0).seen = s.seen := by simp [State.writeFence]
@[simp] theorem State.writeBkt_seen (s : State) (x0 : Word) :
    (s.writeBkt x0).seen = s.seen := by simp [State.writeBkt]
@[simp] theorem State.writeRetire_seen (s : State) (x0 : Word) :
    (s.writeRetire x0).seen = s.seen := by simp [State.writeRetire]
@[simp] theorem State.popLedger_seen (s : State) (x0 : Word) :
    (s.popLedger x0).seen = s.seen := by
  unfold State.popLedger
  rfl
@[simp] theorem State.dbgRecheck_seen (s : State) :
    s.dbgRecheck.seen = s.seen := by
  unfold State.dbgRecheck
  rfl
@[simp] theorem State.lifeFail_seen (s : State) (x0 : ℕ) :
    (s.lifeFail x0).seen = s.seen := by simp [State.lifeFail]
@[simp] theorem State.unifiedWindow_seen (s : State) :
    s.unifiedWindow.seen = s.seen := by simp [State.unifiedWindow]
@[simp] theorem State.resetRegs_seen (s : State) (x0 : Bool) :
    (s.resetRegs x0).seen = s.seen := by simp [State.resetRegs]
@[simp] theorem State.enterReset_ok (s : State) (k : Nat) (a b : Bool) (hs : s.seen.ok) : (s.enterReset k a b).seen.ok := by
  unfold State.enterReset
  extract_lets w l t
  have h : t.seen.ok := by
    show (State.bump _ _).seen.ok
    simp [hs]
  clear_value t
  exact ⟨h.1, h.2.1, h.2.2.1, h.2.2.2⟩
@[simp] theorem State.startScrub_seen (s : State) :
    s.startScrub.seen = s.seen := by
  unfold State.startScrub
  try dsimp only
  repeat' first | rfl | (simp; done) | split
@[simp] theorem State.replaceReset_seen (s : State) (x0 : ℕ) :
    (s.replaceReset x0).seen = s.seen := by
  unfold State.replaceReset
  try dsimp only
  repeat' first | rfl | (simp; done) | split
@[simp] theorem State.requestReset_ok (s : State) (x0 : ℕ) (x1 : Bool) (hs : s.seen.ok) :
    (s.requestReset x0 x1).seen.ok := by
  unfold State.requestReset
  repeat' first | assumption | (simp [hs]; done) | split
@[simp] theorem State.lifeGrant_ok (s : State) (x0 : ℕ) (hs : s.seen.ok) :
    (s.lifeGrant x0).seen.ok := by simp [State.lifeGrant, hs]
@[simp] theorem State.lifeXreq_ok (s : State) (x0 : Word) (hs : s.seen.ok) :
    (s.lifeXreq x0).seen.ok := by simp [State.lifeXreq, hs]
@[simp] theorem State.lifeOpen_seen (s : State) :
    s.lifeOpen.seen = s.seen := by simp [State.lifeOpen]
@[simp] theorem State.verifyFail_seen (s : State) (x0 : ℕ) :
    (s.verifyFail x0).seen = s.seen := by simp [State.verifyFail]
@[simp] theorem State.lifeSubmit_ok (s : State) (x0 : Word) (hs : s.seen.ok) :
    (s.lifeSubmit x0).seen.ok := by simp [State.lifeSubmit, hs]
@[simp] theorem State.writeSess_ok (s : State) (x0 : Word) (hs : s.seen.ok) :
    (s.writeSess x0).seen.ok := by simp [State.writeSess, hs]
@[simp] theorem State.applyMaps_seen (s : State) :
    s.applyMaps.seen = s.seen := by simp [State.applyMaps]
theorem State.oddEvent_ok (s : State) (e : State → ErrEvt) (hs : s.seen.ok) :
    (if s.life.oddDue then (({ s with life := { s.life with oddDue := false } } : State)).raiseErr pLIFE (e s) else s).seen.ok := by
  split
  · rw [State.raiseErr_seen]; exact hs
  · exact hs
@[simp] theorem State.startCore_ok (s : State) (ip : DWord) (hs : s.seen.ok) : (s.startCore ip).seen.ok := by
  unfold State.startCore
  refine State.oddEvent_ok _ (fun t => ⟨3, 0, t.stamp, (t.fuse 0).setWidth 64⟩) ?_
  rw [State.raise_seen]
  refine ⟨hs.1, hs.2.1, hs.2.2.1, ?_, ?_, ?_, fun n => ?_⟩
  · show flagsOk 0x800#64
    decide
  · show flagsOk 0#64
    decide
  · show flagsOk 0#64
    decide
  · show (Vector.replicate 6 0#64)[n] &&& 0x3F#64 = 0#64
    simp
@[simp] theorem State.releaseWait_ok (s : State)  (hs : s.seen.ok) :
    s.releaseWait.seen.ok := by simp [State.releaseWait, hs]
@[simp] theorem State.askRelease_ok (s : State)  (hs : s.seen.ok) :
    s.askRelease.seen.ok := by simp [State.askRelease, hs]
@[simp] theorem State.writeResetCtrl_ok (s : State) (x0 : Word) (hs : s.seen.ok) :
    (s.writeResetCtrl x0).seen.ok := by simp [State.writeResetCtrl, hs]
@[simp] theorem State.syncWrite_ok (s : State) (x0 : ℕ) (x1 : Word) (hs : s.seen.ok) :
    (s.syncWrite x0 x1).seen.ok := by simp [State.syncWrite, hs]
@[simp] theorem State.lifeResp_seen (s : State) (x0 : ℕ) (x1 : Word) :
    (s.lifeResp x0 x1).seen = s.seen := by simp [State.lifeResp]
@[simp] theorem State.highWrite_ok (s : State) (x0 : ℕ) (x1 : ℕ) (x2 : Word) (hs : s.seen.ok) :
    (s.highWrite x0 x1 x2).seen.ok := by
  unfold State.highWrite
  split <;> simp [hs]
@[simp] theorem State.wordWrite_ok (s : State) (x0 : ℕ) (x1 : Word) (x2 : Option InMsg) (hs : s.seen.ok) :
    (s.wordWrite x0 x1 x2).seen.ok := by simp [State.wordWrite, hs]
@[simp] theorem State.writeReg_ok (s : State) (x0 : Accessor) (x1 : ℕ) (x2 : Word) (x3 : optParam (Option InMsg) none) (hs : s.seen.ok) :
    (s.writeReg x0 x1 x2 x3).seen.ok := by simp [State.writeReg, hs]
@[simp] theorem State.accessWrite_ok (s : State) (x0 : Accessor) (x1 : ℕ) (x2 : Word) (hs : s.seen.ok) :
    (s.accessWrite x0 x1 x2).seen.ok := by simp [State.accessWrite, hs]
@[simp] theorem State.readReg_seen (s : State) (x0 : Accessor) (x1 : ℕ) :
    (s.readReg x0 x1).1.seen = s.seen := by
  unfold State.readReg
  dsimp only
  repeat' first | rfl | (simp; done) | split
@[simp] theorem State.setMark_seen (s : State) (x0 : UnitMark) :
    (s.setMark x0).seen = s.seen := by
  unfold State.setMark
  rfl
@[simp] theorem State.putUnit_ok (s : State) (u a : Nat) (bs : List Byte) (m : UnitMark) (hs : s.seen.ok) :
    (s.putUnit u a bs m).seen.ok := by
  unfold State.putUnit
  have h : (s.setMark m).seen.ok := by simpa using hs
  exact ⟨Memory.write_wf _ _ _ h.1, h.2⟩
@[simp] theorem State.spxUncorr_seen (s : State) (x0 : ℕ) (x1 : ℕ) (x2 : Bool) (x3 : Bool) (x4 : Bool) :
    (s.spxUncorr x0 x1 x2 x3 x4).seen = s.seen := by simp [State.spxUncorr]
@[simp] theorem State.spxCorr_seen (s : State) (x0 : ℕ) :
    (s.spxCorr x0).seen = s.seen := by simp [State.spxCorr]
@[simp] theorem State.finishRead_seen (s : State) (x0 : ℕ) (x1 : ℕ) (x2 : Bool) (x3 : BitVec 4) (x4 : UnitMark) (x5 : UnitFlips) (x6 : List Byte) :
    (s.finishRead x0 x1 x2 x3 x4 x5 x6).1.seen = s.seen := by
  unfold State.finishRead
  dsimp only
  repeat' first | rfl | (simp; done) | split
@[simp] theorem State.readUnit_seen (s : State) (x0 : ℕ) (x1 : ℕ) (x2 : Bool) (x3 : BitVec 4) (x4 : UnitFlips) :
    (s.readUnit x0 x1 x2 x3 x4).1.seen = s.seen := by
  unfold State.readUnit
  try dsimp only
  repeat' first | rfl | (simp; done) | split
@[simp] theorem State.writeUnit_ok (s : State) (x0 : ℕ) (x1 : ℕ) (x2 : List Byte) (x3 : Bool) (x4 : UnitFlips) (hs : s.seen.ok) :
    (s.writeUnit x0 x1 x2 x3 x4).seen.ok := by simp [State.writeUnit, hs]
@[simp] theorem State.writeUnits_ok (s : State) (x0 : ℕ) (x1 : List Byte) (x2 : ℕ) (x3 : List UnitFlips) (x4 : List Bool) (hs : s.seen.ok) :
    (s.writeUnits x0 x1 x2 x3 x4).seen.ok := by
  induction x4 generalizing s x0 x1 x2 x3 with
  | nil => exact hs
  | cons x xs ih =>
    unfold State.writeUnits
    try dsimp only
    repeat' first | assumption | (simp (maxDischargeDepth := 8) [ih, hs]; done) | split
@[simp] theorem State.spxWriteAs_ok (s : State) (x0 : ℕ) (x1 : List Byte) (x2 : List Bool) (x3 : List UnitFlips) (hs : s.seen.ok) :
    (s.spxWriteAs x0 x1 x2 x3).seen.ok := by simp [State.spxWriteAs, hs]
@[simp] theorem State.spxWrite_ok (s : State) (x0 : ℕ) (x1 : List Byte) (hs : s.seen.ok) :
    (s.spxWrite x0 x1).seen.ok := by simp [State.spxWrite, hs]
@[simp] theorem State.readUnits_seen (s : State) (x0 : (ℕ → Bool)) (x1 : ℕ) (x2 : List (ℕ × UnitFlips)) (x3 : ℕ) (x4 : ℕ) (x5 : ℕ) (x6 : ℕ) :
    (s.readUnits x0 x1 x2 x3 x4 x5 x6).1.seen = s.seen := by
  induction x6 generalizing s x0 x1 x2 x3 x4 x5 with
  | zero => rfl
  | succ n ih =>
    unfold State.readUnits
    try dsimp only
    repeat' first | rfl | (simp [ih]; done) | split
@[simp] theorem State.scaleReadBy_seen (s : State) (x0 : (ℕ → Bool)) (x1 : ℕ) (x2 : List (ℕ × UnitFlips)) (x3 : ℕ) (x4 : ℕ) :
    (s.scaleReadBy x0 x1 x2 x3 x4).1.seen = s.seen := by
  unfold State.scaleReadBy
  try dsimp only
  repeat' first | rfl | (simp; done) | split
@[simp] theorem State.spxReadBy_seen (s : State) (x0 : (ℕ → Bool)) (x1 : ℕ) (x2 : List (ℕ × UnitFlips)) (x3 : ℕ) (x4 : ℕ) :
    (s.spxReadBy x0 x1 x2 x3 x4).1.seen = s.seen := by
  unfold State.spxReadBy
  try dsimp only
  repeat' first | rfl | (simp; done) | split
@[simp] theorem State.spxRead_seen (s : State) (x0 : ℕ) (x1 : List (ℕ × UnitFlips)) (x2 : ℕ) (x3 : ℕ) :
    (s.spxRead x0 x1 x2 x3).1.seen = s.seen := by simp [State.spxRead]
@[simp] theorem State.poisonUnit_seen (s : State) (x0 : ℕ) :
    (s.poisonUnit x0).seen = s.seen := by
  unfold State.poisonUnit
  try dsimp only
  repeat' first | rfl | (simp; done) | split
@[simp] theorem State.zeroUnits_ok (s : State) (off len : Nat) (hs : s.seen.ok) : (s.zeroUnits off len).seen.ok :=
  ⟨Memory.clear_wf _ _ _ hs.1, hs.2⟩
@[simp] theorem State.loseGroup_ok (s : State) (x0 : ℕ) (hs : s.seen.ok) :
    (s.loseGroup x0).seen.ok := by simp [State.loseGroup, hs]
@[simp] theorem State.headerDone_ok (s : State)  (hs : s.seen.ok) :
    s.headerDone.seen.ok := by
  unfold State.headerDone
  dsimp only
  repeat' first | assumption | (simp [hs]; done) | split
@[simp] theorem State.spxWriteBy_ok (s : State) (x0 : (ℕ → Bool)) (x1 : ℕ) (x2 : List Byte) (hs : s.seen.ok) :
    (s.spxWriteBy x0 x1 x2).seen.ok := by
  unfold State.spxWriteBy
  try dsimp only
  repeat' first | assumption | (simp [hs]; done) | split
@[simp] theorem State.endDrain_seen (s : State) :
    s.endDrain.seen = s.seen := by
  unfold State.endDrain
  try dsimp only
  repeat' first | rfl | (simp; done) | split
@[simp] theorem State.fusesRead_ok (s : State)  (hs : s.seen.ok) :
    s.fusesRead.seen.ok := by simp [State.fusesRead, hs]
@[simp] theorem State.fuseWord_ok (s : State) (x0 : Word) (hs : s.seen.ok) :
    (s.fuseWord x0).seen.ok := by simp [State.fuseWord, hs]
@[simp] theorem State.keptRelease_ok (s : State)  (hs : s.seen.ok) :
    s.keptRelease.seen.ok := by simp [State.keptRelease, hs]
@[simp] theorem State.sleepStorage_ok (s : State) (hs : s.seen.ok) : s.sleepStorage.seen.ok := by
  unfold State.sleepStorage
  generalize (List.range 33792) = xs
  generalize (List.range 131072) = ys
  exact ⟨hs.1, Memory.write_wf _ _ _ Memory.nil_wf, Memory.write_wf _ _ _ Memory.nil_wf, hs.2.2.2⟩
@[simp] theorem State.releaseHeld_ok (s : State)  (hs : s.seen.ok) :
    s.releaseHeld.seen.ok := by simp [State.releaseHeld, hs]
@[simp] theorem State.meeting_seen (s : State) (x0 : ℕ) (x1 : (State → State)) (hx1 : ∀ u, (x1 u).seen = u.seen) :
    (s.meeting x0 x1).seen = s.seen := by
  unfold State.meeting
  try dsimp only
  repeat' first | rfl | (simp [hx1]; done) | split
theorem State.meeting_ok (s : State) (n : Nat) (k : State → State) (hk : ∀ u, u.seen.ok → (k u).seen.ok) (hs : s.seen.ok) :
    (s.meeting n k).seen.ok := by
  have h := hk { s with spx := { s.spx with wrote := [] } } hs
  unfold State.meeting
  dsimp only
  split
  · rw [State.addReg_seen]; exact h
  · exact h
@[simp] theorem State.scrubGroups_ok (s : State) (x0 : ℕ) (x1 : ℕ) (hs : s.seen.ok) :
    (s.scrubGroups x0 x1).seen.ok := by
  induction x1 generalizing s x0 with
  | zero => exact hs
  | succ n ih =>
    unfold State.scrubGroups
    try dsimp only
    repeat' first | assumption | (simp (maxDischargeDepth := 8) [ih, hs]; done) | split
theorem State.dropStorage_ok (s : State) (f : Vector DWord 32) (hs : s.seen.ok) :
    (({ s with tile := { s.tile with ops := [], pool := [] }, cpu := { s.cpu with f := f } } : State)).seen.ok :=
  ⟨hs.1, Memory.nil_wf, Memory.nil_wf, hs.2.2.2⟩
@[simp] theorem State.scrub_ok (s : State) (hs : s.seen.ok) : s.scrub.seen.ok := by
  unfold State.scrub
  refine State.dropStorage_ok _ _ ?_
  split
  · exact State.scrubGroups_ok _ _ _ hs
  · simp [hs]
@[simp] theorem State.verifyDone_ok (s : State)  (hs : s.seen.ok) :
    s.verifyDone.seen.ok := by
  unfold State.verifyDone
  repeat' first | assumption | (simp [hs]; done) | split
theorem State.reset_ok : State.reset.seen.ok := by
  unfold Seen.ok
  decide
@[simp] theorem State.wholeReset_ok (s : State) : s.wholeReset.seen.ok := State.reset_ok

end Sys2Proof.Machine
end

