-- ==== Sys2Proof/Laws/SeenMemory.lean ====
section
/-! SUPPORT. What software sees of a state, and the condition Seen.ok, under translation, serving, caches, fetch, Tally and the load-store unit. -/

namespace Sys2Proof.Machine

@[simp] theorem State.setSlot_seen (s : State) (x0 : ℕ) (x1 : TallySlot) :
    (s.setSlot x0 x1).seen = s.seen := by
  unfold State.setSlot
  rfl
@[simp] theorem State.markIncomplete_seen (s : State) (x0 : ℕ) (x1 : ℕ) :
    (s.markIncomplete x0 x1).seen = s.seen := by
  unfold State.markIncomplete
  rfl
@[simp] theorem State.incompleteAll_seen (s : State) (x0 : ℕ) (x1 : BitVec 40) (x2 : List ℕ) :
    (s.incompleteAll x0 x1 x2).1.seen = s.seen := by simp [State.incompleteAll, foldl_seen]
@[simp] theorem State.abandonApply_seen (s : State) :
    s.abandonApply.1.seen = s.seen := by
  unfold State.abandonApply
  split <;> simp
@[simp] theorem State.setXlat_seen (s : State) (x0 : Xlat) :
    (s.setXlat x0).seen = s.seen := by
  unfold State.setXlat
  rfl
@[simp] theorem State.putFull_seen (s : State) (x0 : ℕ) (x1 : List TlbEntry) (x2 : TlbEntry) :
    (s.putFull x0 x1 x2).1.seen = s.seen := by
  unfold State.putFull
  split <;> rfl
@[simp] theorem State.fillL1_seen (s : State) (x0 : ℕ) (x1 : TlbEntry) :
    (s.fillL1 x0 x1).seen = s.seen := by simp [State.fillL1]
@[simp] theorem State.touchL2_seen (s : State) (x0 : ℕ) :
    (s.touchL2 x0).seen = s.seen := by
  unfold State.touchL2
  rfl
@[simp] theorem State.lookupL2_seen (s : State) (x0 : ℕ) (x1 : BitVec 16) (x2 : ℕ) (x3 : Bool) :
    (s.lookupL2 x0 x1 x2 x3).1.seen = s.seen := by
  unfold State.lookupL2
  repeat' first | rfl | (simp; done) | split
@[simp] theorem State.lookup_seen (s : State) (x0 : ℕ) (x1 : ℕ) (x2 : Bool) :
    (s.lookup x0 x1 x2).1.seen = s.seen := by
  unfold State.lookup
  dsimp only
  repeat' first | rfl | (simp; done) | split
@[simp] theorem State.startWalk_seen (s : State) (x0 : DWord) (x1 : ℕ) :
    (s.startWalk x0 x1).seen = s.seen := by
  unfold State.startWalk
  rfl
@[simp] theorem State.translate_seen (s : State) (x0 : DWord) (x1 : ℕ) (x2 : Bool) :
    (s.translate x0 x1 x2).1.seen = s.seen := by
  unfold State.translate
  dsimp only
  repeat' first | rfl | (simp; done) | split
@[simp] theorem State.accHalf_seen (s : State) (x0 : Acc) (x1 : DWord) (x2 : ℕ) (x3 : Bool) :
    (s.accHalf x0 x1 x2 x3).1.seen = s.seen := by
  unfold State.accHalf
  dsimp only
  repeat' first | rfl | (simp; done) | split
@[simp] theorem State.access_seen (s : State) (x0 : Acc) :
    (s.access x0).1.seen = s.seen := by
  unfold State.access
  dsimp only
  repeat' first | rfl | (simp; done) | split
@[simp] theorem State.setFills_seen (s : State) (x0 : List Fill) :
    (s.setFills x0).seen = s.seen := by
  unfold State.setFills
  rfl
@[simp] theorem State.addFill_seen (s : State) (x0 : Fill) :
    (s.addFill x0).seen = s.seen := by
  unfold State.addFill
  try dsimp only
  repeat' first | rfl | (simp; done) | split
@[simp] theorem State.noticeIn_seen (s : State) (x0 : Word) (x1 : ℕ) (x2 : ℕ) (x3 : DWord) :
    (s.noticeIn x0 x1 x2 x3).seen = s.seen := by simp [State.noticeIn]
@[simp] theorem State.sendNotice_seen (s : State) (x0 : TallyMsg) (x1 : ℕ) :
    (s.sendNotice x0 x1).seen = s.seen := by simp [State.sendNotice]
@[simp] theorem State.rejectContrib_seen (s : State) (x0 : TallyMsg) (x1 : ℕ) :
    (s.rejectContrib x0 x1).seen = s.seen := by simp [State.rejectContrib]
@[simp] theorem State.arenaRefused_seen (s : State) (x0 : TallyMsg) (x1 : ℕ) (x2 : ℕ) :
    (s.arenaRefused x0 x1 x2).seen = s.seen := by simp [State.arenaRefused]
@[simp] theorem State.stageRow_ok (s : State) (x0 : TallyMsg) (x1 : TallyDesc) (x2 : Bool) (x3 : ℕ) (hs : s.seen.ok) :
    (s.stageRow x0 x1 x2 x3).1.seen.ok := by
  unfold State.stageRow
  dsimp only
  split <;> simp [hs]
theorem State.tryContrib_ok (s t : State) (m : TallyMsg) (b : Bool) (h : s.tryContrib m b = .ok t) (hs : s.seen.ok) : t.seen.ok := by
  unfold State.tryContrib at h
  split at h
  · cases h; simp [hs]
  · split at h
    · cases h; simp [hs]
    · split at h
      · cases h
      · cases h; simp [hs]
      · split at h
        · cases h; exact hs
        · cases h
          split <;> simp [hs]
@[simp] theorem State.retryContribs_ok (s : State) (k ms : List (TallyMsg × Bool)) (hs : s.seen.ok) : (s.retryContribs k ms).seen.ok := by
  induction ms generalizing s k with
  | nil => exact hs
  | cons m ms ih =>
    unfold State.retryContribs
    split
    · exact ih _ _ hs
    · split
      · exact ih _ _ (State.tryContrib_ok _ _ _ _ ‹_› hs)
      · exact ih _ _ hs
@[simp] theorem State.serveWaiting_ok (s : State)  (hs : s.seen.ok) :
    s.serveWaiting.seen.ok := by simp [State.serveWaiting, hs]
@[simp] theorem State.setView_ok (s : State) (x0 : Bool) (x1 : Fin 32) (x2 : VView) (hs : s.seen.ok) :
    (s.setView x0 x1 x2).seen.ok := by simp [State.setView, hs]
@[simp] theorem State.writeDest_ok (s : State) (x0 : LoadDest) (x1 : List Byte) (x2 : Bool) (hs : s.seen.ok) :
    (s.writeDest x0 x1 x2).seen.ok := by
  unfold State.writeDest
  dsimp only
  split <;> simp [hs]
@[simp] theorem State.settleLoad_ok (s : State) (x0 : ℕ) (hs : s.seen.ok) :
    (s.settleLoad x0).seen.ok := by
  unfold State.settleLoad
  split <;> simp [hs]
@[simp] theorem State.modJob_seen (s : State) (x0 : ℕ) (x1 : (LoadJob → LoadJob)) :
    (s.modJob x0 x1).seen = s.seen := by
  unfold State.modJob
  rfl
@[simp] theorem State.deliver_ok (s : State) (x0 : Piece) (x1 : List Byte) (hs : s.seen.ok) :
    (s.deliver x0 x1).seen.ok := by simp [State.deliver, hs]
@[simp] theorem State.failPiece_ok (s : State) (x0 : Piece) (x1 : ℕ) (x2 : DWord) (hs : s.seen.ok) :
    (s.failPiece x0 x1 x2).seen.ok := by
  unfold State.failPiece
  split <;> simp [hs]
@[simp] theorem State.setHead_seen (s : State) (x0 : SbEntry) :
    (s.setHead x0).seen = s.seen := by
  unfold State.setHead
  rfl
@[simp] theorem State.headGot_seen (s : State) (x0 : List Byte) :
    (s.headGot x0).seen = s.seen := by
  unfold State.headGot
  repeat' first | rfl | (simp; done) | split
@[simp] theorem State.freeBytes_seen (s : State) (x0 : ℕ) :
    (s.freeBytes x0).1.seen = s.seen := by
  unfold State.freeBytes
  rfl
@[simp] theorem State.keepFetch_seen (s : State) (x0 : ℕ × ℕ) :
    (s.keepFetch x0).seen = s.seen := by
  unfold State.keepFetch
  try dsimp only
  repeat' first | rfl | (simp; done) | split
@[simp] theorem State.walkGot_seen (s : State) (x0 : ℕ) (x1 : Option DWord) :
    (s.walkGot x0 x1).seen = s.seen := by
  unfold State.walkGot
  try dsimp only
  repeat' first | rfl | (simp; done) | split
@[simp] theorem State.dropFill_seen (s : State) (x0 : Fill) :
    (s.dropFill x0).seen = s.seen := by
  unfold State.dropFill
  rfl
@[simp] theorem State.setCache_seen (s : State) (x0 : Bool) (x1 : Cache) :
    (s.setCache x0 x1).seen = s.seen := by
  unfold State.setCache
  rfl
@[simp] theorem State.touchWay_seen (s : State) (x0 : Bool) (x1 : ℕ) (x2 : ℕ) :
    (s.touchWay x0 x1 x2).seen = s.seen := by
  unfold State.touchWay
  rfl
@[simp] theorem State.putLine_seen (s : State) (x0 : Bool) (x1 : ℕ) (x2 : CLine) :
    (s.putLine x0 x1 x2).seen = s.seen := by
  unfold State.putLine
  rfl
@[simp] theorem State.installFill_ok (s : State) (x0 : Fill) (x1 : List Byte) (hs : s.seen.ok) :
    (s.installFill x0 x1).seen.ok := by
  unfold State.installFill
  simp (maxDischargeDepth := 8) +contextual [foldl_ok, hs]
@[simp] theorem State.headLost_seen (s : State) :
    s.headLost.seen = s.seen := by
  unfold State.headLost
  repeat' first | rfl | (simp; done) | split
@[simp] theorem State.failFill_ok (s : State) (x0 : Fill) (hs : s.seen.ok) :
    (s.failFill x0).seen.ok := by
  unfold State.failFill
  dsimp only
  repeat' first | assumption | (simp (maxDischargeDepth := 8) +contextual [foldl_ok, hs]; done) | split
@[simp] theorem State.denyFabric_seen (s : State) (x0 : Word) (x1 : DWord) (x2 : ℕ) (x3 : ℕ) :
    (s.denyFabric x0 x1 x2 x3).seen = s.seen := by simp [State.denyFabric]
@[simp] theorem State.serveMem_ok (s : State) (x0 : Req) (hs : s.seen.ok) :
    (s.serveMem x0).1.seen.ok := by
  unfold State.serveMem
  repeat' first | assumption | (simp [hs]; done) | split
@[simp] theorem State.serveSadd_ok (s : State) (x0 : Req) (hs : s.seen.ok) :
    (s.serveSadd x0).1.seen.ok := by
  unfold State.serveSadd
  dsimp only
  split <;> simp [hs]
@[simp] theorem State.serveReg_ok (s : State) (x0 : Req) (hs : s.seen.ok) :
    (s.serveReg x0).1.seen.ok := by
  unfold State.serveReg
  dsimp only
  repeat' first | assumption | (simp [hs]; done) | split
@[simp] theorem State.serveReq_ok (s : State) (x0 : Req) (hs : s.seen.ok) :
    (s.serveReq x0).1.seen.ok := by
  unfold State.serveReq
  repeat' first | assumption | (simp [hs]; done) | split
@[simp] theorem State.sendTagged_seen (s : State) (x0 : OutReq) (x1 : Byte) (x2 : Option Dest) :
    (s.sendTagged x0 x1 x2).1.seen = s.seen := by
  unfold State.sendTagged
  dsimp only
  repeat' first | rfl | (simp; done) | split
@[simp] theorem State.sendReq_ok (s : State) (x0 : OutReq) (hs : s.seen.ok) :
    (s.sendReq x0).1.seen.ok := by
  unfold State.sendReq
  dsimp only
  repeat' first | assumption | (simp [hs]; done) | split
@[simp] theorem State.issueFill_ok (s : State) (x0 : Fill) (hs : s.seen.ok) :
    (s.issueFill x0).seen.ok := by
  unfold State.issueFill
  dsimp only
  split <;> simp [hs]
@[simp] theorem State.dropLine_seen (s : State) (x0 : Bool) (x1 : ℕ) :
    (s.dropLine x0 x1).seen = s.seen := by
  unfold State.dropLine
  rfl
@[simp] theorem State.prefetchNext_ok (s : State) (x0 : Bool) (x1 : ℕ) (x2 : ℕ) (x3 : BitVec 16) (x4 : BitVec 16) (hs : s.seen.ok) :
    (s.prefetchNext x0 x1 x2 x3 x4).seen.ok := by
  unfold State.prefetchNext
  dsimp only
  repeat' first | assumption | (simp [hs]; done) | split
@[simp] theorem State.requestFill_ok (s : State) (x0 : Fill) (hs : s.seen.ok) :
    (s.requestFill x0).seen.ok := by
  unfold State.requestFill
  try dsimp only
  repeat' first | assumption | (simp [hs]; done) | split
@[simp] theorem State.victimDone_ok (s : State) (x0 : ℕ) (x1 : ℕ) (hs : s.seen.ok) :
    (s.victimDone x0 x1).seen.ok := by
  unfold State.victimDone
  split <;> simp [hs]
@[simp] theorem State.useAnswer_ok (s : State) (x0 : TagEntry) (x1 : Ans) (hs : s.seen.ok) :
    (s.useAnswer x0 x1).seen.ok := by
  unfold State.useAnswer
  repeat' first | assumption | (simp [hs]; done) | split
@[simp] theorem State.completeTag_ok (s : State) (x0 : TagEntry) (x1 : Ans) (hs : s.seen.ok) :
    (s.completeTag x0 x1).seen.ok := by simp [State.completeTag, hs]
@[simp] theorem State.writeLeaving_ok (s : State) (x0 : ℕ) (hs : s.seen.ok) :
    (s.writeLeaving x0).seen.ok := by
  induction x0 generalizing s with
  | zero => exact hs
  | succ n ih =>
    unfold State.writeLeaving
    try dsimp only
    repeat' first | assumption | (simp (maxDischargeDepth := 8) [ih, hs]; done) | split
@[simp] theorem State.dbgReg_ok (s : State) (x0 : ℕ) (x1 : DWord) (hs : s.seen.ok) :
    (s.dbgReg x0 x1).seen.ok := by
  unfold State.dbgReg
  try dsimp only
  repeat' first | assumption | (simp [hs]; done) | split
@[simp] theorem State.cacheCorr_seen (s : State) (x0 : Bool) (x1 : ℕ) (x2 : ℕ) :
    (s.cacheCorr x0 x1 x2).seen = s.seen := by simp [State.cacheCorr]
@[simp] theorem State.cacheUncorr_seen (s : State) (x0 : ℕ) (x1 : ℕ) (x2 : BitVec 16) :
    (s.cacheUncorr x0 x1 x2).seen = s.seen := by simp [State.cacheUncorr]
@[simp] theorem State.useLine_seen (s : State) (x0 : Bool) (x1 : ℕ) (x2 : CLine) (x3 : ArrayErr) (x4 : BitVec 16) :
    (s.useLine x0 x1 x2 x3 x4).1.seen = s.seen := by
  unfold State.useLine
  try dsimp only
  repeat' first | rfl | (simp; done) | split
@[simp] theorem State.probe_seen (s : State) (x0 : Bool) (x1 : ℕ) (x2 : ArrayErr) (x3 : BitVec 16) :
    (s.probe x0 x1 x2 x3).1.seen = s.seen := by
  unfold State.probe
  dsimp only
  repeat' first | rfl | (simp; done) | split
@[simp] theorem State.dbgOut_seen (s : State) (x0 : DWord) :
    (s.dbgOut x0).seen = s.seen := by
  unfold State.dbgOut
  rfl
@[simp] theorem State.dropILine_seen (s : State) (x0 : ℕ) :
    (s.dropILine x0).seen = s.seen := by
  unfold State.dropILine
  split <;> rfl
@[simp] theorem State.mergeLine_seen (s : State) (x0 : ℕ) (x1 : CLine) (x2 : ℕ) (x3 : List Byte) :
    (s.mergeLine x0 x1 x2 x3).seen = s.seen := by
  unfold State.mergeLine
  rfl
@[simp] theorem State.dbgSend_ok (s : State) (x0 : OutReq) (hs : s.seen.ok) :
    (s.dbgSend x0).seen.ok := by
  unfold State.dbgSend
  try dsimp only
  repeat' first | assumption | (simp [hs]; done) | split
@[simp] theorem State.dbgPast_ok (s : State) (x0 : ℕ) (x1 : Option DWord) (hs : s.seen.ok) :
    (s.dbgPast x0 x1).seen.ok := by
  unfold State.dbgPast
  try dsimp only
  repeat' first | assumption | (simp [hs]; done) | split
@[simp] theorem State.beginFill_ok (s : State) (x0 : Fill) (hs : s.seen.ok) :
    (s.beginFill x0).seen.ok := by
  unfold State.beginFill
  try dsimp only
  repeat' first | assumption | (simp [hs]; done) | split
@[simp] theorem State.demandFill_ok (s : State) (x0 : Bool) (x1 : ℕ) (x2 : ℕ) (x3 : ℕ) (x4 : BitVec 16) (x5 : BitVec 16) (x6 : List Piece) (hs : s.seen.ok) :
    (s.demandFill x0 x1 x2 x3 x4 x5 x6).seen.ok := by
  unfold State.demandFill
  try dsimp only
  repeat' first | assumption | (simp [hs]; done) | split
@[simp] theorem State.spxPieces_seen (s : State) (x0 : ℕ) (x1 : List Bool) (x2 : Piece) :
    (s.spxPieces x0 x1 x2).seen = s.seen := by simp [State.spxPieces]
@[simp] theorem State.losePiece_ok (s : State) (x0 : Piece) (hs : s.seen.ok) :
    (s.losePiece x0).seen.ok := by simp [State.losePiece, hs]
@[simp] theorem State.joinFill_seen (s : State) (x0 : ℕ) (x1 : Piece) :
    (s.joinFill x0 x1).seen = s.seen := by
  unfold State.joinFill
  try dsimp only
  repeat' first | rfl | (simp; done) | split
@[simp] theorem State.requestPiece_ok (s : State) (x0 : ℕ) (x1 : ℕ) (x2 : Bool) (x3 : BitVec 16) (x4 : Piece) (hs : s.seen.ok) :
    (s.requestPiece x0 x1 x2 x3 x4).1.seen.ok := by
  unfold State.requestPiece
  try dsimp only
  repeat' first | assumption | (simp [hs]; done) | split
@[simp] theorem State.cachedPiece_ok (s : State) (x0 : M1Part) (x1 : ℕ) (hs : s.seen.ok) :
    (s.cachedPiece x0 x1).1.seen.ok := by
  unfold State.cachedPiece
  try dsimp only
  repeat' first | assumption | (simp [hs]; done) | split
@[simp] theorem State.loadPart_ok (s : State) (x0 : M1Part) (hs : s.seen.ok) :
    (s.loadPart x0).1.seen.ok := by
  unfold State.loadPart
  try dsimp only
  repeat' first | assumption | (simp [hs]; done) | split
@[simp] theorem State.runM1_ok (s : State) (x0 : ℕ) (hs : s.seen.ok) :
    (s.runM1 x0).seen.ok := by
  induction x0 generalizing s with
  | zero => exact hs
  | succ n ih =>
    unfold State.runM1
    try dsimp only
    repeat' first | assumption | (simp (maxDischargeDepth := 8) [ih, hs]; done) | split
@[simp] theorem State.readRows_seen (s : State) (x0 : TallyDesc) (x1 : ℕ) (x2 : List (ℕ × TallyRow)) :
    (s.readRows x0 x1 x2).1.seen = s.seen := by
  induction x2 generalizing s x0 x1 with
  | nil => rfl
  | cons x xs ih =>
    unfold State.readRows
    try dsimp only
    repeat' first | rfl | (simp [ih]; done) | split
@[simp] theorem State.writeTallyDest_ok (s : State) (x0 : TallyDesc) (x1 : List ℕ) (x2 : List ℕ) (hs : s.seen.ok) :
    (s.writeTallyDest x0 x1 x2).seen.ok := by
  unfold State.writeTallyDest
  simp (maxDischargeDepth := 8) +contextual [foldl_ok, hs]
@[simp] theorem State.applySlot_ok (s : State) (x0 : BitVec 40) (x1 : TallyWork) (hs : s.seen.ok) :
    (s.applySlot x0 x1).seen.ok := by
  unfold State.applySlot
  dsimp only
  repeat' first | assumption | (simp [hs]; done) | split
@[simp] theorem State.pickSlot_seen (s : State) (x0 : BitVec 40) (x1 : ℕ) (x2 : List ℕ) :
    (s.pickSlot x0 x1 x2).seen = s.seen := by
  induction x2 generalizing s x0 x1 with
  | nil => rfl
  | cons x xs ih =>
    unfold State.pickSlot
    try dsimp only
    repeat' first | rfl | (simp [ih]; done) | split
@[simp] theorem State.startDue_seen (s : State) :
    s.startDue.seen = s.seen := by
  unfold State.startDue
  try dsimp only
  repeat' first | rfl | (simp; done) | split
@[simp] theorem State.applyDone_ok (s : State)  (hs : s.seen.ok) :
    s.applyDone.seen.ok := by
  unfold State.applyDone
  split <;> simp [hs]
@[simp] theorem State.applyPage_seen (s : State) (n : Nat) : (s.applyPage n).seen = s.seen := by
  unfold State.applyPage
  dsimp only
  split
  · rw [State.setReg_seen, foldl_seen]
    intro s x
    split
    · exact State.setReg_seen _ _ _
    · rfl
  · rfl
@[simp] theorem State.applyRwb_seen (s : State) : s.applyRwb.seen = s.seen := by
  unfold State.applyRwb
  exact foldl_seen _ (fun _ _ => State.applyPage_seen _ _) _ _
@[simp] theorem State.applyStart_seen (s : State) :
    s.applyStart.seen = s.seen := by simp [State.applyStart]
@[simp] theorem State.armSlots_seen (s : State) (x0 : DWord) (x1 : DWord) (x2 : BitVec 40) :
    (s.armSlots x0 x1 x2).seen = s.seen := by
  unfold State.armSlots
  rfl
@[simp] theorem State.deliverTrap_ok (s : State)  (hs : s.seen.ok) :
    s.deliverTrap.seen.ok := by simp [State.deliverTrap, hs]
@[simp] theorem State.noteWaited_seen (s : State) (x0 : List TileEntry) :
    (s.noteWaited x0).seen = s.seen := by
  unfold State.noteWaited
  rfl
@[simp] theorem State.atTR_ok (s : State) (x0 : Acc) (x1 : Bool) (x2 : (State → List Part → State)) (hx2 : ∀ u y1, u.seen.ok → (x2 u y1).seen.ok) (hs : s.seen.ok) :
    (s.atTR x0 x1 x2).seen.ok := by
  unfold State.atTR
  dsimp only
  split <;> simp [hx2, hs]
@[simp] theorem State.fetchByte_seen (s : State) (x0 : DWord) :
    (s.fetchByte x0).1.seen = s.seen := by simp [State.fetchByte]
@[simp] theorem State.gotFetch_seen (s : State) (x0 : Part) :
    (s.gotFetch x0).seen = s.seen := by
  unfold State.gotFetch
  rfl
@[simp] theorem State.slip_seen (s : State) :
    s.slip.seen = s.seen := by
  unfold State.slip
  try dsimp only
  repeat' first | rfl | (simp; done) | split
@[simp] theorem State.noteSlip_seen (s : State) (x0 : List Part) :
    (s.noteSlip x0).seen = s.seen := by simp [State.noteSlip]
@[simp] theorem State.fetchUnit_seen (s : State) (x0 : Part) (x1 : ℕ) :
    (s.fetchUnit x0 x1).seen = s.seen := by simp [State.fetchUnit]
@[simp] theorem State.dirtyCopy_seen (s : State) (x0 : ℕ) :
    (s.dirtyCopy x0).1.seen = s.seen := by
  unfold State.dirtyCopy
  try dsimp only
  repeat' first | rfl | (simp; done) | split
@[simp] theorem State.fetchDirty_ok (s : State) (x0 : Part) (x1 : ℕ) (x2 : CLine) (hs : s.seen.ok) :
    (s.fetchDirty x0 x1 x2).seen.ok := by
  unfold State.fetchDirty
  try dsimp only
  repeat' first | assumption | (simp [hs]; done) | split
@[simp] theorem State.fetchPast_ok (s : State) (x0 : Part) (x1 : ℕ) (hs : s.seen.ok) :
    (s.fetchPast x0 x1).seen.ok := by
  unfold State.fetchPast
  dsimp only
  repeat' first | assumption | (simp [hs]; done) | split
@[simp] theorem State.fetchCached_ok (s : State) (x0 : Part) (x1 : ℕ) (hs : s.seen.ok) :
    (s.fetchCached x0 x1).seen.ok := by
  unfold State.fetchCached
  dsimp only
  repeat' first | assumption | (simp [hs]; done) | split
@[simp] theorem State.fetchPart_ok (s : State) (x0 : Part) (hs : s.seen.ok) :
    (s.fetchPart x0).seen.ok := by
  unfold State.fetchPart
  split <;> simp [hs]
@[simp] theorem State.noteLoop_seen (s : State) (x0 : ℕ × ℕ) :
    (s.noteLoop x0).seen = s.seen := by
  unfold State.noteLoop
  try dsimp only
  repeat' first | rfl | (simp; done) | split
@[simp] theorem State.fetchFrom_ok (s : State) (x0 : DWord) (x1 : List ℕ) (hs : s.seen.ok) :
    (s.fetchFrom x0 x1).1.seen.ok := by
  induction x1 generalizing s x0 with
  | nil => exact hs
  | cons x xs ih =>
    unfold State.fetchFrom
    try dsimp only
    repeat' first | assumption | (simp (maxDischargeDepth := 8) [ih, hs]; done) | split
@[simp] theorem State.fetch_ok (s : State) (x0 : ℕ) (hs : s.seen.ok) :
    (s.fetch x0).1.seen.ok := by
  unfold State.fetch
  dsimp only
  repeat' first | assumption | (simp [hs]; done) | split
@[simp] theorem State.instr_ok (s : State) (x0 : ℕ) (x1 : List (Fin 32)) (x2 : List (Fin 32)) (x3 : (State → State)) (hx3 : ∀ u, u.seen.ok → (x3 u).seen.ok) (hs : s.seen.ok) :
    (s.instr x0 x1 x2 x3).seen.ok := by
  unfold State.instr
  dsimp only
  repeat' first | assumption | (simp [hx3, hs]; done) | split
@[simp] theorem State.pushSb_seen (s : State) (x0 : SbKind) :
    (s.pushSb x0).seen = s.seen := by
  unfold State.pushSb
  rfl
@[simp] theorem State.storeHits_seen (s : State) (x0 : List Part) :
    (s.storeHits x0).seen = s.seen := by
  unfold State.storeHits
  try dsimp only
  repeat' first | rfl | (simp; done) | split
@[simp] theorem State.splitNow_ok (s : State)  (hs : s.seen.ok) :
    s.splitNow.seen.ok := by simp [State.splitNow, hs]
@[simp] theorem State.countGap_seen (s : State) (x0 : ℕ) (x1 : ℕ) :
    (s.countGap x0 x1).seen = s.seen := by simp [State.countGap]
@[simp] theorem State.countCycles_seen (s : State) (x0 : ℕ) (x1 : ℕ) :
    (s.countCycles x0 x1).seen = s.seen := by simp [State.countCycles]
@[simp] theorem State.elapse_seen (s : State) (x0 : ℕ) :
    (s.elapse x0).seen = s.seen := by
  unfold State.elapse
  try dsimp only
  repeat' first | rfl | (simp; done) | split
@[simp] theorem State.setAge_seen (s : State) (x0 : ℕ) :
    (s.setAge x0).seen = s.seen := by
  unfold State.setAge
  try dsimp only
  repeat' first | rfl | (simp; done) | split
@[simp] theorem State.cycleAt_seen (s : State) (x0 : ℕ) :
    (s.cycleAt x0).seen = s.seen := by
  unfold State.cycleAt
  try dsimp only
  repeat' first | rfl | (simp; done) | split
@[simp] theorem State.bellEnd_ok (s : State)  (hs : s.seen.ok) :
    s.bellEnd.seen.ok := by
  unfold State.bellEnd
  try dsimp only
  repeat' first | assumption | (simp (maxDischargeDepth := 8) [hs]; done) | split
@[simp] theorem State.bellEvents_seen (s : State) (x0 : ℕ) (x1 : BitVec 40) (x2 : ℤ) (x3 : Bool) :
    (s.bellEvents x0 x1 x2 x3).seen = s.seen := by simp [State.bellEvents]
@[simp] theorem State.countLeak_seen (s : State) :
    s.countLeak.seen = s.seen := by simp [State.countLeak]
@[simp] theorem State.newTick_seen (s : State) (x0 : Bool) (x1 : BitVec 40) (x2 : Bool) :
    (s.newTick x0 x1 x2).seen = s.seen := by
  unfold State.newTick
  rfl
@[simp] theorem State.loadDiscard_seen (s : State) (x0 : BitVec 40) :
    (s.loadDiscard x0).1.seen = s.seen := by simp [State.loadDiscard, foldl_seen]
@[simp] theorem State.bellTally_seen (s : State) (x0 : BitVec 40) (x1 : Bool) (x2 : DWord) :
    (s.bellTally x0 x1 x2).seen = s.seen := by
  unfold State.bellTally
  dsimp only
  repeat' first | rfl | (simp; done) | split
@[simp] theorem State.sampleAllow_seen (s : State) (x0 : BitVec 16) :
    (s.sampleAllow x0).seen = s.seen := by simp [State.sampleAllow]
theorem State.sync_ok (s : State) (v : Vector Word 64) (hs : s.seen.ok) : (({ s with sync := v } : State)).seen.ok := hs
@[simp] theorem State.bellSync_ok (s : State) (hs : s.seen.ok) : s.bellSync.seen.ok := by
  unfold State.bellSync
  extract_lets clr t ctl
  have h : t.seen.ok := State.sync_ok _ _ hs
  split
  · exact State.syncAdd_ok _ _ _ h
  · exact h
@[simp] theorem State.bellNow_ok (s : State) (x0 : Bool) (x1 : BitVec 40) (x2 : BitVec 16) (x3 : Bool) (hs : s.seen.ok) :
    (s.bellNow x0 x1 x2 x3).seen.ok := by
  unfold State.bellNow
  try dsimp only
  repeat' first | assumption | (simp (maxDischargeDepth := 8) [hs]; done) | split
@[simp] theorem State.bootAccept_seen (s : State) :
    s.bootAccept.seen = s.seen := by
  unfold State.bootAccept
  split <;> simp
@[simp] theorem State.bootResponse_ok (s : State) (x0 : DWord) (x1 : Bool) (hs : s.seen.ok) :
    (s.bootResponse x0 x1).seen.ok := by
  unfold State.bootResponse
  dsimp only
  repeat' first | assumption | (simp [hs]; done) | split
@[simp] theorem State.checkAt_seen (s : State) (va : DWord) (kind : Nat) : (s.checkAt va kind).1.seen = s.seen := by
  have h := s.translate_seen va kind false
  unfold State.checkAt
  extract_lets t own
  have ht : t.1.seen = s.seen := h
  clear_value t own
  split
  · exact ht
  · exact ht
  · split
    · exact ht
    · split <;> exact ht
@[simp] theorem State.checkPieces_seen (s : State) (x0 : TRange) (x1 : SubPort) (x2 : ℕ) (x3 : RBase) (x4 : List (ℕ × ℕ)) :
    (s.checkPieces x0 x1 x2 x3 x4).1.seen = s.seen := by
  induction x4 generalizing s x0 x1 x2 x3 with
  | nil => rfl
  | cons x xs ih =>
    unfold State.checkPieces
    try dsimp only
    repeat' first | rfl | (simp [ih]; done) | split
@[simp] theorem State.checkRanges_seen (s : State) (x0 : SubPort) (x1 : List TRange) :
    (s.checkRanges x0 x1).1.seen = s.seen := by
  induction x1 generalizing s x0 with
  | nil => rfl
  | cons x xs ih =>
    unfold State.checkRanges
    try dsimp only
    repeat' first | rfl | (simp [ih]; done) | split
@[simp] theorem State.popSb_seen (s : State) :
    s.popSb.seen = s.seen := by
  unfold State.popSb
  rfl
@[simp] theorem State.sendOut_ok (s : State) (x0 : SbEntry) (x1 : OutReq) (hs : s.seen.ok) :
    (s.sendOut x0 x1).1.seen.ok := by
  unfold State.sendOut
  dsimp only
  split <;> simp [hs]
@[simp] theorem State.cleanLine_ok (s : State) (x0 : SbEntry) (x1 : ℕ) (x2 : CLine) (hs : s.seen.ok) :
    (s.cleanLine x0 x1 x2).1.seen.ok := by
  unfold State.cleanLine
  dsimp only
  repeat' first | assumption | (simp [hs]; done) | split
@[simp] theorem State.closeNow_seen (s : State) :
    s.closeNow.seen = s.seen := by simp [State.closeNow]
@[simp] theorem State.noteSkew_seen (s : State) (x0 : TallyMsg) :
    (s.noteSkew x0).seen = s.seen := by simp [State.noteSkew]
@[simp] theorem State.contribIn_ok (s : State) (m : TallyMsg) (hs : s.seen.ok) : (s.contribIn m).seen.ok := by
  have hw : ∀ (t : State) (b : Bool), t.seen.ok →
      ({ t with tally := { t.tally with waiting := t.tally.waiting ++ [(m, b)] } } : State).seen.ok := fun t b ht => ht
  unfold State.contribIn
  extract_lets wait t
  have ht : t.seen.ok := by
    show (ite _ _ _ : State).seen.ok
    split <;> simp [hs]
  clear_value t
  split
  · exact hw _ _ ht
  · split
    · exact State.tryContrib_ok _ _ _ _ ‹_› ht
    · exact hw _ _ ht
@[simp] theorem State.corrWriteback_ok (s : State)  (hs : s.seen.ok) :
    s.corrWriteback.seen.ok := by
  unfold State.corrWriteback
  split <;> simp [hs]
@[simp] theorem State.issueLoad_ok (s : State) (x0 : LoadDest) (x1 : List Part) (x2 : Bool) (x3 : ArrayErr) (hs : s.seen.ok) :
    (s.issueLoad x0 x1 x2 x3).seen.ok := by simp [State.issueLoad, hs]
@[simp] theorem State.load_ok (s : State) (x0 : Acc) (x1 : LoadDest) (x2 : Bool) (x3 : ArrayErr) (x4 : (State → State)) (hx4 : ∀ u, u.seen.ok → (x4 u).seen.ok) (hs : s.seen.ok) :
    (s.load x0 x1 x2 x3 x4).seen.ok := by
  unfold State.load
  simp (maxDischargeDepth := 8) +contextual [hx4, hs]
@[simp] theorem State.offerWrite_seen (s : State) (x0 : ℕ) (x1 : List Byte) :
    (s.offerWrite x0 x1).seen = s.seen := by
  unfold State.offerWrite
  rfl
@[simp] theorem State.writeSpx_ok (s : State) (x0 : ℕ) (x1 : List Byte) (x2 : List Bool) (x3 : List UnitFlips) (hs : s.seen.ok) :
    (s.writeSpx x0 x1 x2 x3).seen.ok := by simp [State.writeSpx, hs]
@[simp] theorem State.discardFills_seen (s : State) (x0 : (Fill → Bool)) :
    (s.discardFills x0).seen = s.seen := by
  unfold State.discardFills
  rfl
@[simp] theorem State.offsetActs_ok (s : State) (x0 : Bool) (x1 : Bool) (hs : s.seen.ok) :
    (s.offsetActs x0 x1).seen.ok := by
  unfold State.offsetActs
  try dsimp only
  repeat' first | assumption | (simp [hs]; done) | split
@[simp] theorem State.passTo_ok (s : State) (x0 : ℕ) (x1 : ℕ) (hs : s.seen.ok) :
    (State.passTo x0 x1 s).seen.ok := by
  induction x1 generalizing x0 s with
  | zero => exact hs
  | succ n ih =>
    unfold State.passTo
    try dsimp only
    repeat' first | assumption | (simp (maxDischargeDepth := 8) [ih, hs]; done) | split
@[simp] theorem State.reach_ok (s : State) (x0 : ℕ) (hs : s.seen.ok) :
    (s.reach x0).seen.ok := by
  unfold State.reach
  try dsimp only
  repeat' first | assumption | (simp [hs]; done) | split
@[simp] theorem State.substituteNow_ok (s : State) (x0 : BitVec 16) (hs : s.seen.ok) :
    (s.substituteNow x0).seen.ok := by simp [State.substituteNow, hs]
@[simp] theorem State.idleCycle_ok (s : State)  (hs : s.seen.ok) :
    s.idleCycle.seen.ok := by simp [State.idleCycle, hs]
@[simp] theorem State.walkRead_ok (s : State) (x0 : Walk) (x1 : List (ℕ × UnitFlips)) (x2 : ℕ) (hs : s.seen.ok) :
    (s.walkRead x0 x1 x2).1.seen.ok := by
  unfold State.walkRead
  try dsimp only
  repeat' first | assumption | (simp [hs]; done) | split
@[simp] theorem State.walkAbort_seen (s : State) (x0 : ℕ) (x1 : ℕ) :
    (s.walkAbort x0 x1).seen = s.seen := by simp [State.walkAbort]
@[simp] theorem State.walkOn_ok (s : State) (x0 : Walk) (x1 : List (ℕ × UnitFlips)) (x2 : ℕ) (hs : s.seen.ok) :
    (s.walkOn x0 x1 x2).1.seen.ok := by
  induction x2 generalizing s x0 x1 with
  | zero => exact hs
  | succ n ih =>
    unfold State.walkOn
    try dsimp only
    repeat' first | assumption | (simp (maxDischargeDepth := 8) [ih, hs]; done) | split
@[simp] theorem State.fillL2_seen (s : State) (x0 : TlbEntry) :
    (s.fillL2 x0).seen = s.seen := by simp [State.fillL2]
@[simp] theorem State.walkLeaf_seen (s : State) (x0 : Walk) (x1 : TlbEntry) :
    (s.walkLeaf x0 x1).seen = s.seen := by
  unfold State.walkLeaf
  try dsimp only
  repeat' first | rfl | (simp; done) | split
@[simp] theorem State.endWalk_ok (s : State) (x0 : List (ℕ × UnitFlips)) (hs : s.seen.ok) :
    (s.endWalk x0).seen.ok := by
  unfold State.endWalk
  try dsimp only
  repeat' first | assumption | (simp [hs]; done) | split
@[simp] theorem State.oweTrap_seen (s : State) :
    s.oweTrap.seen = s.seen := by
  unfold State.oweTrap
  try dsimp only
  repeat' first | rfl | (simp; done) | split
@[simp] theorem State.fetchLine_ok (s : State) (x0 : DWord) (hs : s.seen.ok) :
    (s.fetchLine x0).1.seen.ok := by
  unfold State.fetchLine
  try dsimp only
  repeat' first | assumption | (simp [hs]; done) | split
@[simp] theorem State.seeStore_seen (s : State) (x0 : ℕ) (x1 : ℕ) :
    (s.seeStore x0 x1).seen = s.seen := by
  unfold State.seeStore
  rfl
@[simp] theorem State.headWaits_seen (s : State) :
    s.headWaits.seen = s.seen := by
  unfold State.headWaits
  rfl
@[simp] theorem State.writePast_ok (s : State) (x0 : SbEntry) (x1 : Part) (x2 : ℕ) (x3 : List Byte) (x4 : Bool) (hs : s.seen.ok) :
    (s.writePast x0 x1 x2 x3 x4).1.seen.ok := by
  unfold State.writePast
  split <;> simp [hs]
@[simp] theorem State.writeCached_ok (s : State) (x0 : SbEntry) (x1 : Part) (x2 : ℕ) (x3 : List Byte) (x4 : Bool) (x5 : Bool) (hs : s.seen.ok) :
    (s.writeCached x0 x1 x2 x3 x4 x5).1.seen.ok := by
  unfold State.writeCached
  dsimp only
  repeat' first | assumption | (simp [hs]; done) | split
@[simp] theorem State.pushHead_seen (s : State) (x0 : SbEntry) (x1 : SbKind) :
    (s.pushHead x0 x1).seen = s.seen := by
  unfold State.pushHead
  rfl
@[simp] theorem State.invalidate_seen (s : State) (x0 : Inval) :
    (s.invalidate x0).seen = s.seen := by
  unfold State.invalidate
  rfl
@[simp] theorem State.invalidateAll_seen (s : State) (x0 : Bool) :
    (s.invalidateAll x0).seen = s.seen := by
  unfold State.invalidateAll
  rfl
@[simp] theorem State.maintain_ok (s : State) (x0 : SbEntry) (x1 : ℕ) (x2 : ℕ) (x3 : CLine) (hs : s.seen.ok) :
    (s.maintain x0 x1 x2 x3).1.seen.ok := by
  unfold State.maintain
  dsimp only
  repeat' first | assumption | (simp [hs]; done) | split
@[simp] theorem State.maintLine_ok (s : State) (x0 : SbEntry) (x1 : ℕ) (x2 : ℕ) (hs : s.seen.ok) :
    (s.maintLine x0 x1 x2).1.seen.ok := by
  unfold State.maintLine
  dsimp only
  split <;> simp [hs]
@[simp] theorem State.maintPlace_ok (s : State) (x0 : SbEntry) (x1 : ℕ) (x2 : ℕ) (x3 : ℕ) (hs : s.seen.ok) :
    (s.maintPlace x0 x1 x2 x3).1.seen.ok := by
  unfold State.maintPlace
  dsimp only
  repeat' first | assumption | (simp [hs]; done) | split
@[simp] theorem State.movtBytes_seen (s : State) (x0 : BitVec 16) (x1 : List (ℕ × UnitFlips)) (x2 : List Part) :
    (s.movtBytes x0 x1 x2).1.seen = s.seen := by
  induction x2 generalizing s x0 x1 with
  | nil => rfl
  | cons x xs ih =>
    unfold State.movtBytes
    try dsimp only
    repeat' first | rfl | (simp [ih]; done) | split
@[simp] theorem State.preloadFill_ok (s : State) (x0 : Bool) (x1 : ℕ) (x2 : ℕ) (x3 : BitVec 16) (x4 : BitVec 16) (hs : s.seen.ok) :
    (s.preloadFill x0 x1 x2 x3 x4).seen.ok := by
  unfold State.preloadFill
  try dsimp only
  repeat' first | assumption | (simp [hs]; done) | split
@[simp] theorem State.preloadLine_ok (s : State) (x0 : SbEntry) (x1 : ℕ) (x2 : ℕ) (hs : s.seen.ok) :
    (s.preloadLine x0 x1 x2).1.seen.ok := by
  unfold State.preloadLine
  dsimp only
  repeat' first | assumption | (simp [hs]; done) | split
@[simp] theorem State.readSource_ok (s : State) (x0 : SbEntry) (x1 : Part) (x2 : Bool) (x3 : List UnitFlips) (hs : s.seen.ok) :
    (s.readSource x0 x1 x2 x3).1.seen.ok := by
  unfold State.readSource
  dsimp only
  repeat' first | assumption | (simp [hs]; done) | split
@[simp] theorem State.sendTally_ok (s : State) (x0 : SbEntry) (x1 : DWord) (x2 : DWord) (x3 : List Byte) (hs : s.seen.ok) :
    (s.sendTally x0 x1 x2 x3).seen.ok := by
  unfold State.sendTally
  dsimp only
  repeat' first | assumption | (simp [hs]; done) | split
@[simp] theorem State.performMovt_ok (s : State) (x0 : SbEntry) (x1 : List Part) (x2 : DWord) (x3 : DWord) (x4 : Bool) (x5 : List UnitFlips) (hs : s.seen.ok) :
    (s.performMovt x0 x1 x2 x3 x4 x5).1.seen.ok := by
  unfold State.performMovt
  split <;> simp [hs]
@[simp] theorem State.slotBad_seen (s : State) (x0 : ℕ) :
    (s.slotBad x0).seen = s.seen := by simp [State.slotBad]
@[simp] theorem State.readDesc_seen (s : State) (x0 : ℕ) (x1 : UnitFlips) :
    (s.readDesc x0 x1).seen = s.seen := by
  unfold State.readDesc
  dsimp only
  repeat' first | rfl | (simp; done) | split
@[simp] theorem State.riseTo_ok (s : State) (x0 : ℕ) (hs : s.seen.ok) :
    (s.riseTo x0).seen.ok := by simp [State.riseTo, hs]
@[simp] theorem State.s1Accept_seen (s : State) :
    s.s1Accept.seen = s.seen := by
  unfold State.s1Accept
  split <;> simp
@[simp] theorem State.s1Error_seen (s : State) (x0 : ℕ) (x1 : ℕ) :
    (s.s1Error x0 x1).seen = s.seen := by simp [State.s1Error]
@[simp] theorem State.s1Response_ok (s : State) (x0 : List Byte) (x1 : Bool) (hs : s.seen.ok) :
    (s.s1Response x0 x1).seen.ok := by
  unfold State.s1Response
  dsimp only
  repeat' first | assumption | (simp [hs]; done) | split
@[simp] theorem State.spxData_ok (s : State) (x0 : UnitFlips) (hs : s.seen.ok) :
    (s.spxData x0).seen.ok := by
  unfold State.spxData
  split <;> simp [hs]
@[simp] theorem State.storeChecks_seen (s : State) (c : ArrayErr) (ps : List Part) : (s.storeChecks c ps).seen = s.seen := by
  unfold State.storeChecks
  refine foldl_seen _ (fun t p => ?_) _ _
  split
  · exact State.putLine_seen _ _ _ _
  · rfl
@[simp] theorem State.store_ok (s : State) (a : Acc) (bs : List Byte) (nt : Bool) (c : ArrayErr) (f : State → State)
    (hf : ∀ u, u.seen.ok → (f u).seen.ok) (hs : s.seen.ok) : (s.store a bs nt c f).seen.ok := by
  unfold State.store
  refine State.atTR_ok _ _ _ _ (fun u ps hu => ?_) hs
  split
  · exact ite_state_ok _ _ _ hu (State.writeReg_ok _ _ _ _ _ (hf _ hu))
  · refine ite_state_ok _ _ _ hu (hf _ ?_)
    simp [hu]
@[simp] theorem State.withRanges_ok (s : State) (x0 : SubPort) (x1 : List TRange) (x2 : (State → List RBase → State)) (hx2 : ∀ u y1, u.seen.ok → (x2 u y1).seen.ok) (hs : s.seen.ok) :
    (s.withRanges x0 x1 x2).seen.ok := by
  unfold State.withRanges
  dsimp only
  split <;> simp [hx2, hs]
@[simp] theorem State.recordStore_seen (s : State) (pa : Nat) : (s.recordStore pa).seen = s.seen := by
  unfold State.recordStore
  split
  · exact State.dropILine_seen _ _
  · rfl
@[simp] theorem State.dbgCached_ok (s : State) (pa : Nat) (v : Option DWord) (first : Bool) (hs : s.seen.ok) :
    (s.dbgCached pa v first).seen.ok := by
  unfold State.dbgCached
  extract_lets line held free r u
  have hr : r.1.seen.ok := by
    show (State.probe (ite _ _ _) _ _ _ _).1.seen.ok
    rw [State.probe_seen]
    exact ite_state_ok _ _ _ (by rw [State.charge_seen]; exact hs) hs
  have hh : ∀ u : State, u.seen.ok → (held u).seen.ok := fun u hu => hu
  have hf : ∀ u : State, u.seen.ok → (free u).seen.ok := fun u hu => hu
  have ht : u.seen.ok := by
    show (ite _ _ _ : State).seen.ok
    exact ite_state_ok _ _ _ (by simp [hr]) hr
  clear_value u r
  split
  · rw [State.dbgOut_seen]; exact hf _ hr
  · rw [State.recordStore_seen, State.mergeLine_seen]; exact hf _ hr
  · rw [State.dbgOut_seen]; exact hf _ hr
  · split
    · exact State.dbgPast_ok _ _ _ (hf _ ht)
    · split
      · exact hh _ ht
      · exact hh _ ht
      · exact State.demandFill_ok _ _ _ _ _ _ _ _ (hh _ ht)
      · exact State.dbgPast_ok _ _ _ (hf _ ht)
@[simp] theorem State.writePart_ok (s : State) (x0 : SbEntry) (x1 : Part) (x2 : List Byte) (x3 : Bool) (x4 : Bool) (x5 : List UnitFlips)
    (hs : s.seen.ok) : (s.writePart x0 x1 x2 x3 x4 x5).1.seen.ok := by
  unfold State.writePart
  split
  · simp [hs]
  · split <;> simp [hs]
  · simp [hs]
  · extract_lets r
    have hr : r.1.seen.ok := by
      show (ite _ _ _ : State × Perf).1.seen.ok
      split <;> simp [hs]
    clear_value r
    dsimp only
    split <;> simp [hr]
@[simp] theorem State.dbgRetry_ok (s : State)  (hs : s.seen.ok) :
    s.dbgRetry.seen.ok := by
  unfold State.dbgRetry
  try dsimp only
  repeat' first | assumption | (simp [hs]; done) | split
@[simp] theorem State.headPart_ok (s : State) (x0 : SbEntry) (x1 : Part) (x2 : List Byte) (x3 : Bool) (x4 : Bool) (x5 : List UnitFlips) (x6 : Option SbKind) (hs : s.seen.ok) :
    (s.headPart x0 x1 x2 x3 x4 x5 x6).1.seen.ok := by
  unfold State.headPart
  dsimp only
  split <;> simp [hs]
@[simp] theorem State.performHead_ok (s : State) (x0 : List UnitFlips) (hs : s.seen.ok) :
    (s.performHead x0).1.seen.ok := by
  unfold State.performHead
  repeat' first | assumption | (simp [hs]; done) | split
@[simp] theorem State.performAll_ok (s : State) (x0 : List UnitFlips) (x1 : ℕ) (hs : s.seen.ok) :
    (s.performAll x0 x1).seen.ok := by
  induction x1 generalizing s x0 with
  | zero => exact hs
  | succ n ih =>
    unfold State.performAll
    try dsimp only
    repeat' first | assumption | (simp (maxDischargeDepth := 8) [ih, hs]; done) | split
@[simp] theorem State.performSb_ok (s : State) (x0 : Bool) (x1 : List UnitFlips) (hs : s.seen.ok) :
    (s.performSb x0 x1).seen.ok := by
  unfold State.performSb
  split <;> simp [hs]

end Sys2Proof.Machine
end

