-- ==== Sys2Proof/Laws/SeenInstr.lean ====
section
/-! SUPPORT. What software sees of a state, and the condition Seen.ok, under the shapes of instructions. -/

namespace Sys2Proof.Machine

@[simp] theorem State.accessAll_seen (s : State) (x0 : List Acc) :
    (s.accessAll x0).1.seen = s.seen := by
  induction x0 generalizing s with
  | nil => rfl
  | cons x xs ih =>
    unfold State.accessAll
    try dsimp only
    repeat' first | rfl | (simp [ih]; done) | split
@[simp] theorem State.bcastDone_ok (s : State) (x0 : Bcast) (hs : s.seen.ok) :
    (s.bcastDone x0).seen.ok := by simp [State.bcastDone, hs]
@[simp] theorem State.unitAtTR_ok (s : State) (x0 : List Acc) (x1 : List Acc) (x2 : (State → List Part → List Part → State)) (hx2 : ∀ u y1 y2, u.seen.ok → (x2 u y1 y2).seen.ok) (hs : s.seen.ok) :
    (s.unitAtTR x0 x1 x2).seen.ok := by
  unfold State.unitAtTR
  dsimp only
  split <;> simp [hx2, hs]
@[simp] theorem State.unitDone_ok (s : State) (x0 : Bool) (x1 : ℕ) (hs : s.seen.ok) :
    (s.unitDone x0 x1).seen.ok := by simp [State.unitDone, hs]
@[simp] theorem State.bcopy_ok (s : State) (x0 : Bool) (x1 : Bool) (hs : s.seen.ok) :
    (s.bcopy x0 x1).seen.ok := by
  unfold State.bcopy
  simp (maxDischargeDepth := 8) +contextual [hs]
@[simp] theorem State.bfill_ok (s : State) (x0 : Bool) (x1 : Bool) (hs : s.seen.ok) :
    (s.bfill x0 x1).seen.ok := by
  unfold State.bfill
  simp (maxDischargeDepth := 8) +contextual [hs]
@[simp] theorem State.sendXinv_seen (s : State) (x0 : Body) (x1 : Word) :
    (s.sendXinv x0 x1).1.seen = s.seen := by
  unfold State.sendXinv
  dsimp only
  repeat' first | rfl | (simp; done) | split
@[simp] theorem State.sendXinvs_seen (s : State) (x0 : Body) (x1 : List Word) :
    (s.sendXinvs x0 x1).1.seen = s.seen := by
  induction x1 generalizing s x0 with
  | nil => rfl
  | cons x xs ih =>
    unfold State.sendXinvs
    try dsimp only
    repeat' first | rfl | (simp [ih]; done) | split
@[simp] theorem State.broadcast_ok (s : State) (x0 : Inval) (hs : s.seen.ok) :
    (s.broadcast x0).seen.ok := by simp [State.broadcast, hs]
@[simp] theorem State.brptAt_ok (s : State) (a : GReg) (n : BitVec 16) (hs : s.seen.ok) : (s.brptAt a n).seen.ok := by
  unfold State.brptAt
  dsimp only
  split
  · simp [hs]
  · rw [State.endStep_seen]
    exact s.retireInstr_ok hs
@[simp] theorem State.countMispredict_seen (s : State) (x0 : Bool) :
    (s.countMispredict x0).seen = s.seen := by simp [State.countMispredict]
@[simp] theorem State.crcMem_ok (s : State) (x0 : Bool) (x1 : GReg) (x2 : Byte) (hs : s.seen.ok) :
    (s.crcMem x0 x1 x2).seen.ok := by
  unfold State.crcMem
  simp (maxDischargeDepth := 8) +contextual [hs]
@[simp] theorem State.maintAt_ok (s : State) (x0 : DWord) (x1 : ℕ) (x2 : (State → Option ℕ → State)) (hx2 : ∀ u y1, u.seen.ok → (x2 u y1).seen.ok) (hs : s.seen.ok) :
    (s.maintAt x0 x1 x2).seen.ok := by
  unfold State.maintAt
  dsimp only
  split <;> simp [hx2, hs]
@[simp] theorem State.pushLine_seen (s : State) (x0 : ℕ) (x1 : Option ℕ) (x2 : (State → State)) (hx2 : ∀ u, (x2 u).seen = u.seen) :
    (s.pushLine x0 x1 x2).seen = s.seen := by
  unfold State.pushLine
  split <;> simp [hx2]
@[simp] theorem State.pushLine_ok (s : State) (x0 : ℕ) (x1 : Option ℕ) (x2 : (State → State)) (hx2 : ∀ u, u.seen.ok → (x2 u).seen.ok)
    (hs : s.seen.ok) : (s.pushLine x0 x1 x2).seen.ok := by
  unfold State.pushLine
  repeat' first | assumption | (simp [hx2, hs]; done) | split
@[simp] theorem State.rangeStep_ok (s : State)  (hs : s.seen.ok) :
    s.rangeStep.seen.ok := hs
@[simp] theorem State.dataRange_ok (s : State) (x0 x1 : ℕ) (hs : s.seen.ok) : (s.dataRange x0 x1).seen.ok := by
  unfold State.dataRange
  refine State.instr_ok _ _ _ _ _ (fun u hu => ?_) hs
  split
  · simp [hu]
  · exact State.maintAt_ok _ _ _ _ (fun v l hv => State.pushLine_ok _ _ _ _ (fun w hw => by simp [hw]) hv) hu
@[simp] theorem State.notUser_ok (s k : State) (hk : k.seen.ok) (hs : s.seen.ok) : (s.notUser k).seen.ok := by
  unfold State.notUser
  split
  · simp [hs]
  · exact hk
@[simp] theorem State.dataSetWay_ok (s : State) (op : Nat) (a : GReg) (hs : s.seen.ok) : (s.dataSetWay op a).seen.ok := by
  unfold State.dataSetWay
  refine State.instr_ok _ _ _ _ _ (fun u hu => State.notUser_ok _ _ (ite_state_ok _ _ _ hu ?_) hu) hs
  simp [hu]
@[simp] theorem State.dataVa_ok (s : State) (x0 : ℕ) (x1 : ℕ) (x2 : GReg) (hs : s.seen.ok) :
    (s.dataVa x0 x1 x2).seen.ok := by
  unfold State.dataVa
  simp (maxDischargeDepth := 8) +contextual [hs]
theorem State.setFrame_ok (s : State) (m : Bool) (f : Frame) (hs : s.seen.ok) (hf : flagsOk f.xflags) :
    (s.setFrame m f).seen.ok := by
  obtain ⟨h1, h2, h3, h4, h5, h6, h7⟩ := hs
  cases m
  · exact ⟨h1, h2, h3, h4, hf, h6, h7⟩
  · exact ⟨h1, h2, h3, h4, h5, hf, h7⟩
theorem State.frame_ok (s : State) (m : Bool) (hs : s.seen.ok) : flagsOk (s.frame m).xflags := by
  cases m
  · exact hs.2.2.2.2.1
  · exact hs.2.2.2.2.2.1
theorem vecs_set_ok (v : Vector DWord 6) (n : Fin 6) (x : DWord) (h : ∀ k : Fin 6, v[k] &&& 0x3F#64 = 0#64) (k : Fin 6) :
    (v.set n (x &&& ~~~0x3F#64))[k] &&& 0x3F#64 = 0#64 := by
  by_cases e : n = k
  · subst e
    simp only [Fin.getElem_fin, Vector.getElem_set_self, vecs_masked]
  · have : (n : Nat) ≠ (k : Nat) := fun h => e (Fin.ext h)
    simp only [Fin.getElem_fin, Vector.getElem_set_ne _ _ this]
    exact h k
@[simp] theorem State.writeSr_ok (s : State) (r : SpecialReg) (v : DWord) (hs : s.seen.ok) : (s.writeSr r v).seen.ok := by
  cases r with
  | flags => exact s.setFlags_ok _ hs (mtsrFlags_ok _ _ _ hs.2.2.2.1)
  | xflags m => exact s.setFrame_ok _ _ hs (flagsOk_masked v)
  | xip m => exact s.setFrame_ok _ _ hs (s.frame_ok m hs)
  | xcause m => exact s.setFrame_ok _ _ hs (s.frame_ok m hs)
  | xaddr m => exact s.setFrame_ok _ _ hs (s.frame_ok m hs)
  | xbrc m => exact s.setFrame_ok _ _ hs (s.frame_ok m hs)
  | vec n => exact ⟨hs.1, hs.2.1, hs.2.2.1, hs.2.2.2.1, hs.2.2.2.2.1, hs.2.2.2.2.2.1, vecs_set_ok _ _ _ hs.2.2.2.2.2.2⟩
  | ip => exact hs
  | brs => exact hs
  | bre => exact hs
  | brc => exact hs
  | veidx => exact hs
  | tprog => exact hs
  | stamp => exact hs
  | tid => exact hs
@[simp] theorem State.divide_ok (s : State) (x0 : DivOp) (x1 : Bool) (x2 : GReg) (x3 : GReg) (x4 : GReg) (hs : s.seen.ok) :
    (s.divide x0 x1 x2 x3 x4).seen.ok := by
  unfold State.divide
  simp (maxDischargeDepth := 8) +contextual [hs]
@[simp] theorem State.divideDone_ok (s : State) (hs : s.seen.ok) : s.divideDone.seen.ok := by
  unfold State.divideDone
  split
  · exact hs
  · rename_i j _
    have h : (({ s with cpu := { s.cpu with div := none, flags := addSticky s.cpu.flags j.sticky } } : State)).seen.ok :=
      ⟨hs.1, hs.2.1, hs.2.2.1, addSticky_ok _ _ hs.2.2.2.1, hs.2.2.2.2⟩
    dsimp only
    split
    · exact State.setF_ok _ _ _ h
    · exact State.setG_ok _ _ _ h
@[simp] theorem State.elemDone_ok (s : State) (w : Bool) (z : Fin 4) (k : Nat) (hs : s.seen.ok) : (s.elemDone w z k).seen.ok := by
  unfold State.elemDone
  split
  · rw [State.commitUnit_seen]; exact hs
  · exact State.commit_ok _ _ hs
@[simp] theorem State.element_ok (s : State) (w : Bool) (z : Fin 4) (k : State → Nat → State)
    (hk : ∀ u n, u.seen.ok → (k u n).seen.ok) (hs : s.seen.ok) : (s.element w z k).seen.ok := by
  unfold State.element
  dsimp only
  split
  · exact State.commit_ok _ _ hs
  · exact hk _ _ hs
@[simp] theorem State.fpBeside_ok (s : State) (srcs : List FReg) (d : FReg) (f : State → DWord × Sticky)
    (hs : s.seen.ok) : (s.fpBeside srcs d f).seen.ok := by
  unfold State.fpBeside
  refine State.instr_ok _ _ _ _ _ (fun u hu => ?_) hs
  dsimp only
  split
  · exact hu
  · exact State.commit_ok _ _ hu
@[simp] theorem State.sticky_ok (s : State) (x : Sticky) (hs : s.seen.ok) : (s.sticky x).seen.ok :=
  s.setFlags_ok _ hs (addSticky_ok _ _ hs.2.2.2.1)
@[simp] theorem State.fpOp1_ok (s : State) (x0 : ℕ) (x1 : FReg) (x2 : FReg) (x3 : (DWord → DWord × Sticky)) (hs : s.seen.ok) :
    (s.fpOp1 x0 x1 x2 x3).seen.ok := by
  unfold State.fpOp1
  simp (maxDischargeDepth := 8) +contextual [hs]
@[simp] theorem State.fpOp2_ok (s : State) (x0 : FReg) (x1 : FReg) (x2 : FReg) (x3 : (DWord → DWord → DWord × Sticky)) (hs : s.seen.ok) :
    (s.fpOp2 x0 x1 x2 x3).seen.ok := by
  unfold State.fpOp2
  simp (maxDischargeDepth := 8) +contextual [hs]
@[simp] theorem State.instrSetWay_seen (s : State) (x0 : DWord) :
    (s.instrSetWay x0).seen = s.seen := by simp [State.instrSetWay]
@[simp] theorem State.intOp_ok (s : State) (o : IntArgs) (f : DWord → DWord → DWord) (k : DWord → DWord → DWord → Cond)
    (hs : s.seen.ok) : (s.intOp o f k).seen.ok := by
  unfold State.intOp
  refine State.instr_ok _ _ _ _ _ (fun u hu => ?_) hs
  dsimp only
  refine State.commit_ok _ _ ?_
  split
  · exact State.setFlags_ok _ _ (State.setG_ok _ _ _ hu) (setCond_ok _ _ hu.2.2.2.1)
  · exact State.setG_ok _ _ _ hu
@[simp] theorem State.intTest_ok (s : State) (a : GReg) (b : IntSrc) (k : DWord → DWord → Cond)
    (hs : s.seen.ok) : (s.intTest a b k).seen.ok := by
  unfold State.intTest
  refine State.instr_ok _ _ _ _ _ (fun u hu => ?_) hs
  exact State.commit_ok _ _ (State.setFlags_ok _ _ hu (setCond_ok _ _ hu.2.2.2.1))
@[simp] theorem State.invalILine_seen (s : State) (x0 : ℕ) :
    (s.invalILine x0).seen = s.seen := by simp [State.invalILine]
@[simp] theorem State.loadF_ok (s : State) (x0 : MemArgs) (x1 : ℕ) (hs : s.seen.ok) :
    (s.loadF x0 x1).seen.ok := by
  unfold State.loadF
  simp (maxDischargeDepth := 8) +contextual [hs]
@[simp] theorem State.loadG_ok (s : State) (x0 : MemArgs) (x1 : ℕ) (x2 : Bool) (hs : s.seen.ok) :
    (s.loadG x0 x1 x2).seen.ok := by
  unfold State.loadG
  simp (maxDischargeDepth := 8) +contextual [hs]
@[simp] theorem State.loadVector_ok (s : State) (x0 : Fin 6) (x1 : DWord) (hs : s.seen.ok) :
    (s.loadVector x0 x1).seen.ok := by
  unfold State.loadVector
  try dsimp only
  repeat' first | assumption | (simp (maxDischargeDepth := 8) [hs]; done) | split
@[simp] theorem State.moveImm_ok (s : State) (x0 : ℕ) (x1 : GReg) (x2 : DWord) (hs : s.seen.ok) :
    (s.moveImm x0 x1 x2).seen.ok := by
  unfold State.moveImm
  simp (maxDischargeDepth := 8) +contextual [hs]
@[simp] theorem State.movtUnit_ok (s : State) (x0 : Bool) (x1 : ℕ) (x2 : List Part) (hs : s.seen.ok) :
    (s.movtUnit x0 x1 x2).seen.ok := by
  unfold State.movtUnit
  simp (maxDischargeDepth := 8) [hs]
@[simp] theorem State.movt_ok (s : State) (rep : Bool) (hs : s.seen.ok) : (s.movt rep).seen.ok := by
  unfold State.movt
  refine State.instr_ok _ _ _ _ _ (fun u hu => ite_state_ok _ _ _ (by simp [hu]) ?_) hs
  dsimp only
  refine State.unitAtTR_ok _ _ _ _ (fun v ps qs hv => ?_) hu
  split
  · simp [hv]
  · refine ite_state_ok _ _ _ ?_ (ite_state_ok _ _ _ hv ?_) <;> simp [hv]
@[simp] theorem State.preloadAt_ok (s : State) (x0 : DWord) (x1 : ℕ) (x2 : (State → Option ℕ → State)) (hx2 : ∀ u y1, u.seen.ok → (x2 u y1).seen.ok) (hs : s.seen.ok) :
    (s.preloadAt x0 x1 x2).seen.ok := by
  unfold State.preloadAt
  dsimp only
  split <;> simp [hx2, hs]
@[simp] theorem State.preloadI_ok (s : State) (x0 : ℕ) (x1 : ℕ) (x2 : (State → State)) (hx2 : ∀ u, u.seen.ok → (x2 u).seen.ok) (hs : s.seen.ok) :
    (s.preloadI x0 x1 x2).seen.ok := by simp [State.preloadI, hx2, hs]
@[simp] theorem State.reloadLines_ok (s : State) (x0 : List (Fin 6)) (hs : s.seen.ok) :
    (s.reloadLines x0).1.seen.ok := by
  induction x0 generalizing s with
  | nil => exact hs
  | cons x xs ih =>
    unfold State.reloadLines
    try dsimp only
    repeat' first | assumption | (simp (maxDischargeDepth := 8) [ih, hs]; done) | split
@[simp] theorem State.storeF_ok (s : State) (x0 : MemArgs) (x1 : ℕ) (hs : s.seen.ok) :
    (s.storeF x0 x1).seen.ok := by
  unfold State.storeF
  simp (maxDischargeDepth := 8) +contextual [hs]
@[simp] theorem State.storeG_ok (s : State) (x0 : MemArgs) (x1 : ℕ) (x2 : Bool) (hs : s.seen.ok) :
    (s.storeG x0 x1 x2).seen.ok := by
  unfold State.storeG
  simp (maxDischargeDepth := 8) +contextual [hs]
@[simp] theorem State.unary_ok (s : State) (x0 : ℕ) (x1 : GReg) (x2 : GReg) (x3 : (DWord → DWord)) (hs : s.seen.ok) :
    (s.unary x0 x1 x2 x3).seen.ok := by
  unfold State.unary
  simp (maxDischargeDepth := 8) +contextual [hs]
@[simp] theorem State.unaryIf_ok (s : State) (x0 : Bool) (x1 : ℕ) (x2 : GReg) (x3 : GReg) (x4 : (DWord → DWord)) (hs : s.seen.ok) :
    (s.unaryIf x0 x1 x2 x3 x4).seen.ok := by
  unfold State.unaryIf
  simp (maxDischargeDepth := 8) +contextual [hs]
@[simp] theorem State.vUndef_ok (s : State) (x0 : ℕ) (hs : s.seen.ok) :
    (s.vUndef x0).seen.ok := by
  unfold State.vUndef
  simp (maxDischargeDepth := 8) +contextual [hs]
@[simp] theorem State.vecOp2_ok (s : State) (x0 : Bool) (x1 : Bool) (x2 : FReg) (x3 : FReg) (x4 : FReg) (x5 : (VView → VView → VView × Sticky)) (hs : s.seen.ok) :
    (s.vecOp2 x0 x1 x2 x3 x4 x5).seen.ok := by
  unfold State.vecOp2
  simp (maxDischargeDepth := 8) +contextual [hs]
@[simp] theorem State.vecCmp_ok (s : State) (x0 : Bool) (x1 : Fin 4) (x2 : FReg) (x3 : FReg) (x4 : FReg) (x5 : Bool) (x6 : (Ordering → Bool)) (hs : s.seen.ok) :
    (s.vecCmp x0 x1 x2 x3 x4 x5 x6).seen.ok := by simp [State.vecCmp, hs]
@[simp] theorem State.vecFixed_ok (s : State) (x0 : Bool) (x1 : Bool) (x2 : Bool) (x3 : ℕ) (x4 : FReg) (x5 : FReg) (x6 : (VView → VView × Sticky)) (hs : s.seen.ok) :
    (s.vecFixed x0 x1 x2 x3 x4 x5 x6).seen.ok := by
  unfold State.vecFixed
  simp (maxDischargeDepth := 8) +contextual [hs]
@[simp] theorem State.vecOp1_ok (s : State) (x0 : Bool) (x1 : Bool) (x2 : ℕ) (x3 : FReg) (x4 : FReg) (x5 : (VView → VView × Sticky)) (hs : s.seen.ok) :
    (s.vecOp1 x0 x1 x2 x3 x4 x5).seen.ok := by
  unfold State.vecOp1
  simp (maxDischargeDepth := 8) +contextual [hs]
@[simp] theorem State.vecInt1_ok (s : State) (x0 : Bool) (x1 : Bool) (x2 : ℕ) (x3 : Fin 4) (x4 : FReg) (x5 : FReg) (x6 : (ℕ → ℕ)) (hs : s.seen.ok) :
    (s.vecInt1 x0 x1 x2 x3 x4 x5 x6).seen.ok := by simp [State.vecInt1, hs]
@[simp] theorem State.vecInt2_ok (s : State) (x0 : Bool) (x1 : Bool) (x2 : Fin 4) (x3 : FReg) (x4 : FReg) (x5 : FReg) (x6 : (ℕ → ℕ → ℕ)) (hs : s.seen.ok) :
    (s.vecInt2 x0 x1 x2 x3 x4 x5 x6).seen.ok := by simp [State.vecInt2, hs]
@[simp] theorem State.xinvNow_ok (s : State) (x0 : Bool) (x1 : Inval) (hs : s.seen.ok) :
    (s.xinvNow x0 x1).seen.ok := by simp [State.xinvNow, hs]

end Sys2Proof.Machine
end

