-- ==== Sys2Proof/Laws/SeenTile.lean ====
section
/-! SUPPORT. What software sees of a state, and the condition Seen.ok, under the tile engine. -/

namespace Sys2Proof.Machine

@[simp] theorem State.ackLate_seen (s : State) (x0 : Option InMsg) :
    (s.ackLate x0).seen = s.seen := by
  unfold State.ackLate
  try dsimp only
  repeat' first | rfl | (simp; done) | split
@[simp] theorem State.modHead_seen (s : State) (x0 : (TileEntry → TileEntry)) :
    (s.modHead x0).seen = s.seen := by
  unfold State.modHead
  rfl
@[simp] theorem State.headFlags_seen (s : State) (x0 : TFlags) :
    (s.headFlags x0).seen = s.seen := by
  unfold State.headFlags
  rfl
@[simp] theorem State.poisonEvt_seen (s : State) (x0 : Bool) (x1 : ℕ) (x2 : Byte) (x3 : DWord) :
    (s.poisonEvt x0 x1 x2 x3).seen = s.seen := by
  unfold State.poisonEvt
  try dsimp only
  repeat' first | rfl | (simp; done) | split
@[simp] theorem State.setPoison_seen (s : State) (x0 : Bool) (x1 : ℕ) :
    (s.setPoison x0 x1).seen = s.seen := by
  unfold State.setPoison
  try dsimp only
  repeat' first | rfl | (simp; done) | split
@[simp] theorem State.poisonTile_seen (s : State) (x0 : Bool) (x1 : ℕ) (x2 : Byte) (x3 : DWord) :
    (s.poisonTile x0 x1 x2 x3).seen = s.seen := by
  unfold State.poisonTile
  try dsimp only
  repeat' first | rfl | (simp; done) | split
@[simp] theorem State.poisonHead_seen (s : State) (x0 : Bool) (x1 : ℕ) (x2 : DWord) :
    (s.poisonHead x0 x1 x2).seen = s.seen := by
  unfold State.poisonHead
  split <;> simp
@[simp] theorem State.arrayErrors_seen (s : State) (x0 : TileEntry) :
    (s.arrayErrors x0).seen = s.seen := by
  unfold State.arrayErrors
  repeat' first | rfl | (simp; done) | split
@[simp] theorem State.atLevel_ok (s : State) (l : BitVec 2) (hs : s.seen.ok) : (s.atLevel l).seen.ok :=
  s.setFlags_ok _ hs (setPL_ok _ _ hs.2.2.2.1)
@[simp] theorem State.badAtTR_seen (s : State) (x0 : TileEntry) :
    (s.badAtTR x0).seen = s.seen := by
  unfold State.badAtTR
  try dsimp only
  repeat' first | rfl | (simp; done) | split
@[simp] theorem State.laneBlocks_seen (s : State) (x0 : (ℕ → Bool)) (x1 : (State → ℕ → State × LaneBlock)) (x2 : List ℕ) (hx1 : ∀ u y1, (x1 u y1).1.seen = u.seen) :
    (s.laneBlocks x0 x1 x2).1.seen = s.seen := by
  induction x2 generalizing s with
  | nil => rfl
  | cons x xs ih =>
    unfold State.laneBlocks
    try dsimp only
    repeat' first | rfl | (simp [hx1, ih]; done) | split
@[simp] theorem State.tileRead_seen (s : State) (x0 : Bool) (x1 : ℕ) (x2 : ℕ) (x3 : Option (Bool × ℕ)) :
    (s.tileRead x0 x1 x2 x3).1.seen = s.seen := by
  unfold State.tileRead
  try dsimp only
  repeat' first | rfl | (simp; done) | split
@[simp] theorem State.streamBlock_seen (s : State) (x0 : ℕ) (x1 : ℕ) (x2 : Stream) (x3 : ℕ) (x4 : ℕ) :
    (s.streamBlock x0 x1 x2 x3 x4).1.seen = s.seen := by simp [State.streamBlock]
theorem State.setPool_ok (s : State) (m : Memory) (hs : s.seen.ok) (hm : m.wf) : (s.setPool m).seen.ok :=
  ⟨hs.1, hs.2.1, hm, hs.2.2.2⟩
@[simp] theorem State.noteInvalid_seen (s : State) (x0 : ℕ) (x1 : Option (ℕ × ℕ × ℕ)) :
    (s.noteInvalid x0 x1).seen = s.seen := by
  unfold State.noteInvalid
  split <;> rfl
@[simp] theorem State.oneBlock_ok (s : State) (e : TileEntry) (i : NameInfo) (k : Nat) (hs : s.seen.ok) : (s.oneBlock e i k).seen.ok := by
  have hl : ∀ (s : State) on rd ns, (∀ u n, (rd u n).1.seen = u.seen) → s.seen.ok → (s.laneBlocks on rd ns).1.seen.ok := by
    intro s on rd ns h hs
    rw [State.laneBlocks_seen _ _ _ _ h]; exact hs
  unfold State.oneBlock
  dsimp only
  simp only [State.chargeCells_seen, State.noteInvalid_seen, State.headFlags_seen]
  have h2 : ∀ (s : State) on1 rd1 ns1 on2 rd2 ns2, (∀ u n, (rd1 u n).1.seen = u.seen) → (∀ u n, (rd2 u n).1.seen = u.seen) →
      s.seen.ok → ((s.laneBlocks on1 rd1 ns1).1.laneBlocks on2 rd2 ns2).1.seen.ok := fun s _ _ _ _ _ _ h1 h2 hs => hl _ _ _ _ h2 (hl _ _ _ _ h1 hs)
  have h3 : ∀ (c : Prop) [Decidable c] (u : State) (a b : Nat) (x : Stream) (p q : Nat) (y : LaneBlock),
      (if c then u.streamBlock a b x p q else (u, y)).1.seen = u.seen := by
    intro c _ u a b x p q y
    split
    · exact State.streamBlock_seen _ _ _ _ _ _
    · rfl
  refine State.setPool_ok _ _ (h2 _ _ _ _ _ _ _ (fun u n => h3 _ _ _ _ _ _ _ _) (fun u n => h3 _ _ _ _ _ _ _ _) hs) (writeChain_wf _ _ _ _ _ ?_)
  exact (h2 _ _ _ _ _ _ _ (fun u n => h3 _ _ _ _ _ _ _ _) (fun u n => h3 _ _ _ _ _ _ _ _) hs).2.2.1
@[simp] theorem State.blockEnd_ok (s : State)  (hs : s.seen.ok) :
    s.blockEnd.seen.ok := by
  unfold State.blockEnd
  repeat' first | assumption | (simp (maxDischargeDepth := 8) +contextual [foldl_ok, hs]; done) | split
@[simp] theorem State.chargePool_seen (s : State) (x0 : NameInfo) :
    (s.chargePool x0).seen = s.seen := by
  unfold State.chargePool
  rfl
@[simp] theorem State.convWords_seen (s : State) (x0 : Option (Bool × ℕ)) (x1 : ℕ) (x2 : ℕ) :
    (s.convWords x0 x1 x2).1.seen = s.seen := by
  unfold State.convWords
  split <;> simp
@[simp] theorem State.convMatrix_seen (s : State) (x0 : Option (Bool × ℕ)) (x1 : ℕ) (x2 : ℕ) (x3 : ℕ) (x4 : List ℕ) :
    (s.convMatrix x0 x1 x2 x3 x4).1.seen = s.seen := by
  induction x4 generalizing s x0 x1 x2 x3 with
  | nil => rfl
  | cons x xs ih =>
    unfold State.convMatrix
    try dsimp only
    repeat' first | rfl | (simp [ih]; done) | split
@[simp] theorem State.crateRange_seen (s : State) (x0 : SubPort) (x1 : List (BitVec 16)) (x2 : ℕ) (x3 : ℕ) :
    (s.crateRange x0 x1 x2 x3).1.seen = s.seen := by simp [State.crateRange]
@[simp] theorem State.deferTrap_seen (s : State) (x0 : TileEntry) :
    (s.deferTrap x0).seen = s.seen := by simp [State.deferTrap]
@[simp] theorem State.preloadRows_seen (s : State) (x0 : TileEntry) (x1 : NameInfo) (x2 : List ℕ) :
    (s.preloadRows x0 x1 x2).1.seen = s.seen := by
  induction x2 generalizing s x0 x1 with
  | nil => rfl
  | cons x xs ih =>
    unfold State.preloadRows
    try dsimp only
    repeat' first | rfl | (simp [ih]; done) | split
@[simp] theorem State.preload_seen (s : State) (x0 : TileEntry) (x1 : NameInfo) :
    (s.preload x0 x1).1.seen = s.seen := by
  unfold State.preload
  split <;> simp
@[simp] theorem State.doTbegin_ok (s : State) (e : TileEntry) (hs : s.seen.ok)  : (s.doTbegin e).seen.ok := by
  unfold State.doTbegin
  dsimp only
  simp only [State.headFlags_seen, State.chargePool_seen]
  have h : ∀ i m, (State.preload ({ s with tile := { s.tile with poison := m } } : State) e i).1.seen.ok := fun i m => by
    rw [State.preload_seen]; exact hs
  exact State.setPool_ok _ _ (h _ _) (mapChains_wf _ _ _ _ (h _ _).2.2.1)
@[simp] theorem State.report_seen (s : State) (x0 : Report) :
    (s.report x0).seen = s.seen := by
  unfold State.report
  split <;> rfl
@[simp] theorem State.doTclose_ok (s : State) (e : TileEntry) (hs : s.seen.ok) : (s.doTclose e).seen.ok := by
  unfold State.doTclose
  dsimp only
  split
  · exact hs
  · rename_i i _
    have h : (s.chargePool i).seen.ok := by simpa using hs
    split
    · rw [State.report_seen]
      exact State.setPool_ok _ _ h (mapChains_wf _ _ _ _ h.2.2.1)
    · exact h
@[simp] theorem State.reseed_seen (s : State) (x0 : Word) (x1 : ConvRec) :
    (s.reseed x0 x1).seen = s.seen := by simp [State.reseed]
theorem State.setOps_ok (s : State) (m : Memory) (hs : s.seen.ok) (hm : m.wf) : (s.setOps m).seen.ok :=
  ⟨hs.1, hm, hs.2.2⟩
@[simp] theorem State.putTileLane_ok (s : State) (c : Word) (x : Bool) (l k : Nat) (xs : List ConvElem) (hs : s.seen.ok) :
    (s.putTileLane c x l k xs).seen.ok := by
  unfold State.putTileLane
  dsimp only
  rw [State.headFlags_seen]
  exact State.setOps_ok _ _ hs (foldl_wf _ (fun _ _ hm => Memory.write_wf _ _ _ (Memory.write_wf _ _ _ hm)) _ _ hs.2.1)
@[simp] theorem State.opWritten_seen (s : State) (x0 : ℕ) (x1 : Bool) :
    (s.opWritten x0 x1).seen = s.seen := by
  unfold State.opWritten
  rfl
@[simp] theorem State.putLane_ok (s : State) (x0 : TileEntry) (x1 : Bool) (x2 : ℕ) (x3 : ℕ) (x4 : List ConvElem) (hs : s.seen.ok) :
    (s.putLane x0 x1 x2 x3 x4).seen.ok := by
  unfold State.putLane
  try dsimp only
  repeat' first | assumption | (simp (maxDischargeDepth := 8) +contextual [foldl_ok, hs]; done) | split
@[simp] theorem State.doTew_ok (s : State) (e : TileEntry) (hs : s.seen.ok) : (s.doTew e).seen.ok := by
  have h : ∀ i (rs : List (List (Nat × TFlags))) m, (({ s with tile := { s.tile with
        pool := rs.zipIdx.foldl (fun p x => writeChain p (ctlCd e.ctl) i x.2 (x.1.map Prod.fst)) s.tile.pool
        poison := m } } : State)).seen.ok := fun i rs m =>
      ⟨hs.1, hs.2.1, foldl_wf _ (fun _ _ hm => writeChain_wf _ _ _ _ _ hm) _ _ hs.2.2.1, hs.2.2.2⟩
  unfold State.doTew
  extract_lets cd cs op
  split
  · exact hs
  · extract_lets
    rename_i t u
    have ht : t.seen.ok := h _ _ _
    clear_value t
    have hu : u.seen.ok := by
      show ((State.chargePool _ _).report _).seen.ok
      rw [State.report_seen, State.chargePool_seen]; exact ht
    clear_value u
    split
    · rw [State.headFlags_seen]; exact hu
    · exact hu
@[simp] theorem State.doTmask_seen (s : State) (x0 : TileEntry) :
    (s.doTmask x0).seen = s.seen := by
  unfold State.doTmask
  rfl
@[simp] theorem State.doTstore_ok (s : State) (x0 : TileEntry) (hs : s.seen.ok) :
    (s.doTstore x0).seen.ok := by
  unfold State.doTstore
  simp (maxDischargeDepth := 8) +contextual [foldl_ok, hs]
@[simp] theorem State.lateStep_seen (s : State) (x0 : ℕ) :
    (s.lateStep x0).seen = s.seen := by simp [State.lateStep, foldl_seen]
@[simp] theorem State.writeImage_ok (s : State) (x0 : TileEntry) (x1 : List TileEntry) (hs : s.seen.ok) :
    (s.writeImage x0 x1).seen.ok := by
  unfold State.writeImage
  simp (maxDischargeDepth := 8) +contextual [foldl_ok, hs]
@[simp] theorem State.drainDone_ok (s : State) (hs : s.seen.ok) :
    s.drainDone.seen.ok := by
  unfold State.drainDone
  try dsimp only
  repeat' first | assumption | (simp [hs]; done) | split
@[simp] theorem State.flipUnits_seen (s : State) (x0 : TileEntry) (x1 : List (ℕ × UnitFlips)) :
    (s.flipUnits x0 x1).seen = s.seen := by simp [State.flipUnits, foldl_seen]
@[simp] theorem State.reportEntry_seen (s : State) (x0 : TileEntry) :
    (s.reportEntry x0).seen = s.seen := by
  unfold State.reportEntry
  split <;> simp
@[simp] theorem State.scrubTile_ok (s : State) (hs : s.seen.ok) : s.scrubTile.seen.ok := by
  unfold State.scrubTile
  simp only [State.setReg64_seen, State.setReg_seen]
  exact ⟨hs.1, Memory.nil_wf, Memory.nil_wf, hs.2.2.2⟩
@[simp] theorem State.releaseTuse_ok (s : State)  (hs : s.seen.ok) :
    s.releaseTuse.seen.ok := by
  unfold State.releaseTuse
  try dsimp only
  repeat' first | assumption | (simp (maxDischargeDepth := 8) +contextual [foldl_ok, hs]; done) | split
@[simp] theorem State.saveDone_ok (s : State) (x0 : TileEntry) (x1 : List TileEntry) (hs : s.seen.ok) :
    (s.saveDone x0 x1).seen.ok := by simp [State.saveDone, hs]
@[simp] theorem State.restoreTrap_seen (s : State) (x0 : ℕ) (x1 : BitVec 2) (x2 : BitVec 16) :
    (s.restoreTrap x0 x1 x2).seen = s.seen := by
  unfold State.restoreTrap
  rfl
@[simp] theorem State.pushTile_seen (s : State) (x0 : TileEntry) :
    (s.pushTile x0).seen = s.seen := by
  unfold State.pushTile
  rfl
@[simp] theorem State.leaveTR_ok (s : State) (x0 : TileEntry) (hs : s.seen.ok) :
    (s.leaveTR x0).seen.ok := by simp [State.leaveTR, hs]
@[simp] theorem State.raiseBad_seen (s : State) (x0 : TileEntry) :
    (s.raiseBad x0).seen = s.seen := by
  unfold State.raiseBad
  try dsimp only
  repeat' first | rfl | (simp; done) | split
@[simp] theorem State.readBrecs_seen (s : State) (x0 : List Segment) :
    (s.readBrecs x0).1.seen = s.seen := by
  induction x0 generalizing s with
  | nil => rfl
  | cons x xs ih =>
    unfold State.readBrecs
    try dsimp only
    repeat' first | rfl | (simp [ih]; done) | split
@[simp] theorem State.readRecord_seen (s : State) (x0 : ℕ) :
    (s.readRecord x0).1.seen = s.seen := by simp [State.readRecord]
@[simp] theorem State.scanRows_seen (s : State) (x0 : CrateHdr) (x1 : Bool) (x2 : ℕ) (x3 : ℕ) (x4 : ℕ) (x5 : ℕ) (x6 : CrateScan) (x7 : ℕ) :
    (s.scanRows x0 x1 x2 x3 x4 x5 x6 x7).1.seen = s.seen := by
  induction x7 generalizing s x0 x1 x2 x3 x4 x5 x6 with
  | zero => rfl
  | succ n ih =>
    unfold State.scanRows
    try dsimp only
    repeat' first | rfl | (simp [ih]; done) | split
@[simp] theorem State.withCrate_ok (s : State) (x0 : CrateHdr) (x1 : Bool) (x2 : ℕ) (x3 : ℕ) (x4 : ℕ) (x5 : ℕ) (x6 : ℕ) (x7 : (State → CrateScan → State)) (hx7 : ∀ u y1, u.seen.ok → (x7 u y1).seen.ok) (hs : s.seen.ok) :
    (s.withCrate x0 x1 x2 x3 x4 x5 x6 x7).seen.ok := by
  unfold State.withCrate
  dsimp only
  repeat' first | assumption | (simp [hx7, hs]; done) | split
@[simp] theorem State.takeNow_ok (s : State) (x0 : TakeWait) (x1 : ℕ) (hs : s.seen.ok) :
    (s.takeNow x0 x1).seen.ok := by
  unfold State.takeNow
  try dsimp only
  repeat' first | assumption | (simp (maxDischargeDepth := 8) +contextual [foldl_ok, hs]; done) | split
@[simp] theorem State.takeStep_ok (s : State) (x0 : TakeWait) (hs : s.seen.ok) :
    (s.takeStep x0).seen.ok := by
  unfold State.takeStep
  try dsimp only
  repeat' first | assumption | (simp [hs]; done) | split
@[simp] theorem State.takeProceed_ok (s : State)  (hs : s.seen.ok) :
    s.takeProceed.seen.ok := by
  unfold State.takeProceed
  try dsimp only
  repeat' first | assumption | (simp [hs]; done) | split
@[simp] theorem State.tileInstr_ok (s : State) (o : TileArgs) (gs : List (Fin 32)) (p : State → Bool) (k : State → State)
    (hk : ∀ u, u.seen.ok → (k u).seen.ok) (hs : s.seen.ok) : (s.tileInstr o gs p k).seen.ok := by
  unfold State.tileInstr
  refine ite_state_ok _ _ _ hs (State.instr_ok _ _ _ _ _ (fun u hu => ?_) hs)
  refine ite_state_ok _ _ _ (by simp [hu]) (ite_state_ok _ _ _ (by simp [hu]) (hk _ hu))
@[simp] theorem State.tileAlign_ok (s : State) (x0 : ℕ) (x1 : DWord) (hs : s.seen.ok) :
    (s.tileAlign x0 x1).seen.ok := by simp [State.tileAlign, hs]
theorem State.withAligned_ok (s : State) (xs : List (Nat × DWord × Bool)) (k : State) (hk : k.seen.ok) (hs : s.seen.ok) :
    (s.withAligned xs k).seen.ok := by
  unfold State.withAligned
  split
  · simp [hs]
  · exact hk
@[simp] theorem State.tbegin_ok (s : State) (o : TileArgs) (hs : s.seen.ok) : (s.tbegin o).seen.ok := by
  unfold State.tbegin
  exact State.tileInstr_ok _ _ _ _ _ (fun u hu => State.withAligned_ok _ _ _
    (State.withRanges_ok _ _ _ _ (fun v bs hv => State.leaveTR_ok _ _ hv) hu) hu) hs
@[simp] theorem State.tileState_ok (s : State) (x0 : ℕ) (hs : s.seen.ok) :
    (s.tileState x0).seen.ok := by simp [State.tileState, hs]
theorem State.withCauses_ok (s : State) (xs : List (Option Nat)) (k : State) (hk : k.seen.ok) (hs : s.seen.ok) :
    (s.withCauses xs k).seen.ok := by
  unfold State.withCauses
  split
  · simp [hs]
  · exact hk
@[simp] theorem State.tclose_ok (s : State) (o : TileArgs) (hs : s.seen.ok) : (s.tclose o).seen.ok := by
  unfold State.tclose
  exact State.tileInstr_ok _ _ _ _ _ (fun u hu => State.withCauses_ok _ _ _ (State.leaveTR_ok _ _ hu) hu) hs
@[simp] theorem State.tew_ok (s : State) (o : TileArgs) (hs : s.seen.ok) : (s.tew o).seen.ok := by
  unfold State.tew
  exact State.tileInstr_ok _ _ _ _ _ (fun u hu => State.withCauses_ok _ _ _ (State.leaveTR_ok _ _ hu) hu) hs
@[simp] theorem State.tileStart_seen (s : State) (x0 : TileErr) :
    (s.tileStart x0).seen = s.seen := by
  unfold State.tileStart
  split <;> simp
@[simp] theorem State.tmask_ok (s : State) (x0 : TileArgs) (hs : s.seen.ok) :
    (s.tmask x0).seen.ok := by
  unfold State.tmask
  simp (maxDischargeDepth := 8) +contextual [hs]
@[simp] theorem State.tmma_ok (s : State) (o : TileArgs) (hs : s.seen.ok) : (s.tmma o).seen.ok := by
  unfold State.tmma
  exact State.tileInstr_ok _ _ _ _ _ (fun u hu => State.withCauses_ok _ _ _ (State.withAligned_ok _ _ _
    (State.withRanges_ok _ _ _ _ (fun v bs hv => State.leaveTR_ok _ _ hv) hu) hu) hu) hs
@[simp] theorem State.tmmaSeg_ok (s : State) (o : TileArgs) (hs : s.seen.ok) : (s.tmmaSeg o).seen.ok := by
  unfold State.tmmaSeg
  exact State.tileInstr_ok _ _ _ _ _ (fun u hu => State.withCauses_ok _ _ _ (State.withAligned_ok _ _ _
    (ite_state_ok _ _ _ (State.tileState_ok _ _ hu) (State.withRanges_ok _ _ _ _ (fun v bs hv => State.leaveTR_ok _ _ hv) hu)) hu) hu) hs
@[simp] theorem State.tmove_ok (s : State) (o : TileArgs) (w : Bool) (hs : s.seen.ok) : (s.tmove o w).seen.ok := by
  unfold State.tmove
  exact State.tileInstr_ok _ _ _ _ _ (fun u hu => State.withCauses_ok _ _ _ (State.withAligned_ok _ _ _
    (State.withRanges_ok _ _ _ _ (fun v bs hv => State.leaveTR_ok _ _ hv) hu) hu) hu) hs
@[simp] theorem State.tsyncEnd_ok (s : State)  (hs : s.seen.ok) :
    s.tsyncEnd.seen.ok := by simp [State.tsyncEnd, hs]
@[simp] theorem State.tsync_ok (s : State)  (hs : s.seen.ok) :
    s.tsync.seen.ok := by
  unfold State.tsync
  simp (maxDischargeDepth := 8) +contextual [hs]
@[simp] theorem State.putStats_ok (s : State) (e : TileEntry) (r : ConvRec) (rowOn : Nat → Bool) (m : List (List ConvElem)) (w : Bool)
    (hs : s.seen.ok) : (s.putStats e r rowOn m w).seen.ok := by
  unfold State.putStats
  extract_lets c cls
  split
  · exact hs
  · refine foldl_ok _ (fun s x hs => ?_) _ _ hs
    dsimp only
    split
    · have h : ∀ (p : Prop) [Decidable p], (if p then s.headFlags tfEMPTY else s).seen.ok := by
        intro p _
        split
        · rw [State.headFlags_seen]; exact hs
        · exact hs
      split
      · exact State.spxWriteBy_ok _ _ _ _ (h _)
      · exact h _
    · exact hs
@[simp] theorem State.doTconv_ok (s : State) (e : TileEntry) (hs : s.seen.ok) : (s.doTconv e).seen.ok := by
  unfold State.doTconv
  extract_lets -lift c cs
  split
  · exact hs
  · extract_lets -lift
    rename_i i _ rows cols s9 sv bv bm s8 bad xs rowOn colOn scale bias o src1 s7 fs s6 poisoned lanes laneOn s5 k n tiles s4 s3 src s2 write s1
    have e9 : s9.seen = s.seen := by
      show (State.chargePool _ _).seen = _
      rw [State.chargePool_seen, State.reseed_seen]
    have ev : sv.1.seen = s.seen := (State.convWords_seen _ _ _ _).trans e9
    have eb : bv.1.seen = s.seen := (State.convWords_seen _ _ _ _).trans ev
    have e8 : s8.seen = s.seen := by
      show (if _ then _ else _ : State × List (List Word) × Bool).1.seen = s.seen
      split
      · exact (State.convMatrix_seen _ _ _ _ _ _).trans eb
      · exact eb
    have h8 : s8.seen.ok := by rw [e8]; exact hs
    clear_value s8
    have h7 : s7.seen.ok := h8
    clear_value s7
    have h6 : s6.seen.ok := by
      show (State.headFlags _ _).seen.ok
      rw [State.headFlags_seen, State.report_seen]; exact h7
    clear_value s6
    have hp : ∀ (p : Prop) [Decidable p] (u : State), u.seen.ok → (if p then u.headFlags tfPOISON else u).seen.ok := fun p _ u h =>
      ite_state_ok _ _ _ (by rw [State.headFlags_seen]; exact h) h
    have h5 : s5.seen.ok := hp _ _ h6
    clear_value s5
    refine ite_state_ok _ _ _ ?_ ?_
    · have h4 : s4.seen.ok := foldl_ok _ (fun u x hu => ite_state_ok _ _ _ (State.putTileLane_ok _ _ _ _ _ _ hu) hu) _ _ h5
      clear_value s4
      have h3 : s3.seen.ok := foldl_ok _ (fun u x hu => by rw [State.opWritten_seen]; exact hu) _ _ h4
      clear_value s3
      have h2 : s2.seen.ok := ite_state_ok _ _ _ h3 h3
      clear_value s2
      exact State.putStats_ok _ _ _ _ _ _ (by rw [State.badAtTR_seen]; exact h2)
    · exact State.putStats_ok _ _ _ _ _ _ (foldl_ok _ (fun u x hu => ite_state_ok _ _ _ hu (State.putLane_ok _ _ _ _ _ _ hu)) _ _ h5)
@[simp] theorem State.loadBlocks_ok (s : State) (t k n : Nat) (ls : List (Nat × (Nat → Nat) × (Nat → Nat))) (hs : s.seen.ok) :
    (s.loadBlocks t k n ls).seen.ok := by
  unfold State.loadBlocks
  refine foldl_ok _ (fun s x hs => foldl_ok _ (fun s q hs => ?_) _ _ hs) _ _ hs
  have h : ((s.tileRead false (x.2.1 q) 32 (some (false, t))).1.tileRead true (x.2.2 q) 1 (some (false, t))).1.seen.ok := by simpa using hs
  exact State.setOps_ok _ _ h (Memory.write_wf _ _ _ (Memory.write_wf _ _ _ h.2.1))
@[simp] theorem State.doTcrate_ok (s : State) (e : TileEntry) (hs : s.seen.ok) : (s.doTcrate e).seen.ok := by
  unfold State.doTcrate
  extract_lets t u
  have h : u.seen.ok := State.loadBlocks_ok _ _ _ _ _ (by rw [State.opWritten_seen]; exact hs)
  rw [State.badAtTR_seen]
  exact h
@[simp] theorem State.doTload_ok (s : State) (e : TileEntry) (hs : s.seen.ok) : (s.doTload e).seen.ok := by
  unfold State.doTload
  extract_lets t f
  exact ite_state_ok _ _ _ hs (State.loadBlocks_ok _ _ _ _ _ (by rw [State.opWritten_seen]; exact hs))
@[simp] theorem State.doTmmaEnd_ok (s : State) (e : TileEntry) (hs : s.seen.ok) : (s.doTmmaEnd e).seen.ok := by
  unfold State.doTmmaEnd
  extract_lets -lift c cd
  split
  · exact hs
  · extract_lets -lift
    rename_i t p
    have ht : t.seen.ok := ite_state_ok _ _ _ (State.setPool_ok _ _ hs (mapChains_wf _ _ _ _ hs.2.2.1)) hs
    clear_value t
    rw [State.badAtTR_seen]
    exact ite_state_ok _ _ _ (by simp [ht]) ht
@[simp] theorem State.loadArea_ok (s : State) (v : TileView) (e : TileEntry) (hit : List (Bool × Nat)) (x : Nat × Nat) (hs : s.seen.ok) :
    (s.loadArea v e hit x).1.seen.ok := by
  unfold State.loadArea
  extract_lets -lift len r u t
  have hr : r.1.seen.ok := by
    show (State.spxReadBy _ _ _ _ _ _).1.seen.ok
    rw [State.spxReadBy_seen]; exact hs
  clear_value r
  have hu : u.seen.ok :=
    ite_state_ok _ _ _ (State.setOps_ok _ _ hr (Memory.write_wf _ _ _ hr.2.1))
      (State.setPool_ok _ _ (by rw [State.charge_seen]; exact hr) (Memory.write_wf _ _ _ hr.2.2.1))
  clear_value u
  split
  · exact hu
  · split
    · exact hu
    · rw [State.poisonTile_seen]; exact hu
@[simp] theorem State.withHeader_ok (s : State) (va : DWord) (take : Bool) (k : State → CrateHdr → List Nat → State)
    (hk : ∀ u h l, u.seen.ok → (k u h l).seen.ok) (hs : s.seen.ok) : (s.withHeader va take k).seen.ok := by
  unfold State.withHeader
  extract_lets t ranges
  refine State.withAligned_ok _ _ _ (State.withRanges_ok _ _ _ _ (fun u bs hu => ?_) hs) hs
  extract_lets off r b h
  have hr : r.1.seen.ok := by
    show (State.spxRead _ _ _ _ _).1.seen.ok
    rw [State.spxRead_seen]; exact hu
  exact ite_state_ok _ _ _ hu (ite_state_ok _ _ _ (by simp [hr]) (hk _ _ _ hr))
theorem andThen_seen {α β : Type} (r : State × ROut α) (k : State → α → State × ROut β) (c : Seen) (hr : r.1.seen = c)
    (hk : ∀ u x, u.seen = c → (k u x).1.seen = c) : (andThen r k).1.seen = c := by
  unfold andThen
  split
  · exact hk _ _ hr
  · exact hr
  · exact hr
@[simp] theorem State.rebuildCrate_seen (s : State) (r : Crate) (kstart kb : Nat) : (s.rebuildCrate r kstart kb).1.seen = s.seen := by
  unfold State.rebuildCrate
  refine andThen_seen _ _ _ rfl (fun u _ hu => ?_)
  split
  · exact hu
  · extract_lets b h q
    have hb : b.1.seen = s.seen := (State.spxRead_seen _ _ _ _ _).trans hu
    split
    · exact hb
    · refine andThen_seen _ _ _ ((State.scanRows_seen _ _ _ _ _ _ _ _ _).trans hb) (fun v a hv => ?_)
      exact andThen_seen _ _ _ ((State.readBrecs_seen _ _).trans hv) (fun w z hw => hw)
@[simp] theorem State.rebuildEnd_seen (s : State) (sh : Shape) (e : TileEntry) (rs : List (Nat × Nat)) :
    (s.rebuildEnd sh e rs).1.seen = s.seen := by
  unfold State.rebuildEnd
  refine andThen_seen _ _ _ rfl (fun u _ hu => andThen_seen _ _ _ hu (fun v _ hv => ?_))
  split <;> exact hv
@[simp] theorem State.rebuildEntry_seen (s : State) (sh : Shape) (e : TileEntry) : (s.rebuildEntry sh e).1.seen = s.seen := by
  unfold State.rebuildEntry
  split
  · extract_lets r
    refine andThen_seen _ _ _ (State.rebuildCrate_seen _ _ _ _) (fun u a hu => ?_)
    split
    · exact hu
    · extract_lets ds t
      exact andThen_seen _ _ _ ((State.checkRanges_seen _ _ _).trans hu) (fun v bs hv => (State.rebuildEnd_seen _ _ _ _).trans hv)
  · extract_lets r
    exact andThen_seen _ _ _ (State.rebuildCrate_seen _ _ _ _) (fun u a hu => (State.rebuildEnd_seen _ _ _ _).trans hu)
  · split
    · exact State.rebuildEnd_seen _ _ _ _
    · refine andThen_seen _ _ _ rfl (fun u _ hu => ?_)
      split
      · exact hu
      · extract_lets b c'
        have hb : b.1.seen = s.seen := (State.readRecord_seen _ _).trans hu
        split
        · exact hb
        · split
          · exact hb
          · exact andThen_seen _ _ _ ((State.checkRanges_seen _ _ _).trans hb) (fun v bs hv => (State.rebuildEnd_seen _ _ _ _).trans hv)
  · exact State.rebuildEnd_seen _ _ _ _
@[simp] theorem State.tconvRest_ok (s : State) (o : TileArgs) (r : Option (Nat × List Byte × List Nat)) (hs : s.seen.ok) :
    (s.tconvRest o r).seen.ok := by
  unfold State.tconvRest
  dsimp only
  refine ite_state_ok _ _ _ (by simp [hs]) (ite_state_ok _ _ _ (by simp [hs]) ?_)
  refine State.withAligned_ok _ _ _ (State.withRanges_ok _ _ _ _ (fun u bs hu => ite_state_ok _ _ _ hu ?_) hs) hs
  exact State.commit_ok _ _ (by simp [hu])
@[simp] theorem State.loadAreas_ok (s : State) (x0 : TileView) (x1 : TileEntry) (x2 : List (Bool × ℕ)) (x3 : List (ℕ × ℕ)) (hs : s.seen.ok) :
    (s.loadAreas x0 x1 x2 x3).1.seen.ok := by
  induction x3 generalizing s x0 x1 x2 with
  | nil => exact hs
  | cons x xs ih =>
    unfold State.loadAreas
    try dsimp only
    repeat' first | assumption | (simp (maxDischargeDepth := 8) [ih, hs]; done) | split
@[simp] theorem State.restoreDone_ok (s : State) (x0 : TileEntry) (x1 : List TileEntry) (x2 : Restored) (hs : s.seen.ok) :
    (s.restoreDone x0 x1 x2).seen.ok := by
  unfold State.restoreDone
  try dsimp only
  repeat' first | assumption | (simp [hs]; done) | split
@[simp] theorem State.tileEffect_ok (s : State) (x0 : TileEntry) (hs : s.seen.ok) :
    (s.tileEffect x0).seen.ok := by
  unfold State.tileEffect
  split <;> simp [hs]
@[simp] theorem State.tileComplete_ok (s : State)  (hs : s.seen.ok) :
    s.tileComplete.seen.ok := by
  unfold State.tileComplete
  dsimp only
  repeat' first | assumption | (simp [hs]; done) | split
@[simp] theorem State.instrComplete_ok (s : State)  (hs : s.seen.ok) :
    s.instrComplete.seen.ok := by
  unfold State.instrComplete
  repeat' first | assumption | (simp [hs]; done) | split
@[simp] theorem State.rebuild_seen (s : State) (x0 : BitVec 2) (x1 : ℕ) (x2 : TileView) (x3 : List RawEntry) :
    (s.rebuild x0 x1 x2 x3).1.seen = s.seen := by
  induction x3 generalizing s x0 x1 x2 with
  | nil => rfl
  | cons x xs ih =>
    unfold State.rebuild
    try dsimp only
    repeat' first | rfl | (simp [ih]; done) | split
@[simp] theorem State.tconv_ok (s : State) (o : TileArgs) (hs : s.seen.ok) : (s.tconv o).seen.ok := by
  unfold State.tconv
  refine State.tileInstr_ok _ _ _ _ _ (fun u hu => State.withCauses_ok _ _ _ (ite_state_ok _ _ _ (State.tconvRest_ok _ _ _ hu)
    (State.withAligned_ok _ _ _ (State.withRanges_ok _ _ _ _ (fun v bs hv => ite_state_ok _ _ _ hv ?_) hu) hu)) hu) hs
  exact State.tconvRest_ok _ _ _ (by simp [hv])
theorem State.rebuiltCrate_ok (s : State) (l : BitVec 2) (c : Option Crate) (hs : s.seen.ok) :
    (match c with
      | none => (s.atLevel l, (ROut.ok (none, []) : ROut (Option Crate × List Nat)))
      | some cr => andThen ((s.atLevel l).rebuildCrate cr 0 0) fun s a => (s, .ok (some (a.crate cr), a.bad))).1.seen.ok := by
  cases c
  · exact State.atLevel_ok _ _ hs
  · refine (congrArg Seen.ok (andThen_seen _ _ (s.atLevel l).seen (State.rebuildCrate_seen _ _ _ _) (fun _ _ h => h))).mpr ?_
    exact State.atLevel_ok _ _ hs
@[simp] theorem State.trestore_ok (s : State) (o : TileArgs) (hs : s.seen.ok) : (s.trestore o).seen.ok := by
  unfold State.trestore
  refine State.tileInstr_ok _ _ _ _ _ (fun u hu => ite_state_ok _ _ _ hu (State.withRanges_ok _ _ _ _ (fun v bs hv => ite_state_ok _ _ _ hv ?_) hu)) hs
  extract_lets -lift r c q w
  have hw : w.seen.ok := by
    show (State.spxRead _ _ _ _ _).1.seen.ok
    rw [State.spxRead_seen]; exact hv
  clear_value w
  refine ite_state_ok _ _ _ (State.tileState_ok _ _ hw) ?_
  extract_lets -lift
  rename_i raws im fl vr areas
  split
  · exact State.tileState_ok _ _ hw
  · have hf : flagsOk fl := w.flags_ok hw
    have hr : vr.1.seen.ok := w.rebuiltCrate_ok _ _ hw
    clear_value vr fl
    split
    · exact State.except_ok _ _ _ _ (State.setFlags_ok _ _ hr hf)
    · exact State.setFlags_ok _ _ hr hf
    · extract_lets -lift
      rename_i v2 b t
      have ht : t.seen.ok := State.setFlags_ok _ _ (by rw [State.rebuild_seen]; exact hr) hf
      clear_value t
      split
      · exact State.except_ok _ _ _ _ ht
      · exact ht
      · refine State.withRanges_ok _ _ _ _ (fun x bs hx => ite_state_ok _ _ _ hx (State.commit_ok _ _ ?_)) ht
        rw [foldl_seen _ (fun u e => State.raiseBad_seen u e)]; exact hx
@[simp] theorem State.tcrateReload_ok (s : State) (o : TileArgs) (hs : s.seen.ok) : (s.tcrateReload o).seen.ok := by
  unfold State.tcrateReload
  refine State.tileInstr_ok _ _ _ _ _ (fun u hu => State.withCauses_ok _ _ _ (State.withHeader_ok _ _ _ _ (fun v h l hv =>
    State.withCrate_ok _ _ _ _ _ _ _ _ _ (fun w r hw => ite_state_ok _ _ _ hw (by simp [hw])) hv) hu) hu) hs
@[simp] theorem State.tcrateTake_ok (s : State) (o : TileArgs) (hs : s.seen.ok) : (s.tcrateTake o).seen.ok := by
  unfold State.tcrateTake
  exact State.tileInstr_ok _ _ _ _ _ (fun u hu => State.withCauses_ok _ _ _ (State.withHeader_ok _ _ _ _ (fun v h l hv =>
    State.takeStep_ok _ _ hv) hu) hu) hs
theorem State.draining_ok (s : State) (b c : Bool) (hs : s.seen.ok) :
    (({ s with tile := { s.tile with draining := b, stopped := c } } : State)).seen.ok := hs
@[simp] theorem State.tsave_ok (s : State) (o : TileArgs) (err : TileErr) (hs : s.seen.ok) : (s.tsave o err).seen.ok := by
  unfold State.tsave
  refine State.tileInstr_ok _ _ _ _ _ (fun u hu => State.withAligned_ok _ _ _
    (State.withRanges_ok _ _ _ _ (fun v bs hv => ite_state_ok _ _ _ hv (State.commit_ok _ _ ?_)) hu) hu) hs
  exact State.draining_ok _ _ _ (by rw [State.pushTile_seen]; exact hv)

end Sys2Proof.Machine
end

