-- ==== Sys2Proof/Laws/SeenCommand.lean ====
section
/-! SUPPORT. What software sees of a state, and the condition Seen.ok, under the commands that are no instructions. -/

namespace Sys2Proof.Machine

@[simp] theorem State.accessPair_ok (s : State) (x0 : Accessor) (x1 : ℕ) (x2 : DWord) (hs : s.seen.ok) :
    (s.accessPair x0 x1 x2).seen.ok := by simp [State.accessPair, hs]
@[simp] theorem State.accessRead_seen (s : State) (x0 : Accessor) (x1 : ℕ) :
    (s.accessRead x0 x1).seen = s.seen := by simp [State.accessRead]
@[simp] theorem State.answerErr_seen (s : State) (x0 : InMsg) (x1 : ℕ) :
    (s.answerErr x0 x1).seen = s.seen := by simp [State.answerErr]
@[simp] theorem State.noRoute_ok (s : State) (ms : List OutMsg) (hs : s.seen.ok) : (s.noRoute ms).seen.ok := by
  unfold State.noRoute
  refine foldl_ok _ (fun s m hs => ?_) _ _ hs
  repeat' first | assumption | (simp [hs]; done) | split
@[simp] theorem State.settleLost_ok (s : State)  (hs : s.seen.ok) :
    s.settleLost.seen.ok := by
  unfold State.settleLost
  try dsimp only
  repeat' first | assumption | (simp [hs]; done) | split
@[simp] theorem State.serveIn_ok (s : State) (x0 : InMsg) (hs : s.seen.ok) :
    (s.serveIn x0).1.seen.ok := by
  unfold State.serveIn
  dsimp only
  split <;> simp [hs]
@[simp] theorem State.freeFlits_seen (s : State) (x0 : Fin 2) (x1 : Fin 4) (x2 : ℕ) :
    (s.freeFlits x0 x1 x2).seen = s.seen := by
  unfold State.freeFlits
  try dsimp only
  repeat' first | rfl | (simp; done) | split
@[simp] theorem State.freeMsg_seen (s : State) (x0 : InMsg) :
    (s.freeMsg x0).seen = s.seen := by
  unfold State.freeMsg
  try dsimp only
  repeat' first | rfl | (simp; done) | split
@[simp] theorem State.settle_ok (s : State) (k ms : List InMsg) (hs : s.seen.ok) : (s.settle k ms).seen.ok := by
  induction ms generalizing s k with
  | nil => exact hs
  | cons m ms ih =>
    unfold State.settle
    dsimp only
    repeat' first | exact ih _ _ (by first | assumption | (rw [State.xack_seen]; assumption) | exact State.serveIn_ok _ _ hs) | split
@[simp] theorem State.xack_seen (s : State) (x0 : InMsg) (x1 : ℕ) :
    (s.xack x0 x1).seen = s.seen := by simp [State.xack]
@[simp] theorem State.settleXinvs_seen (s : State) (x0 : List (InMsg × BitVec 16)) (x1 : List (InMsg × BitVec 16)) :
    (s.settleXinvs x0 x1).seen = s.seen := by
  induction x1 generalizing s x0 with
  | nil => rfl
  | cons x xs ih =>
    unfold State.settleXinvs
    try dsimp only
    repeat' first | rfl | (simp [ih]; done) | split
@[simp] theorem State.takeHalt_seen (s : State) :
    s.takeHalt.seen = s.seen := by
  unfold State.takeHalt
  rfl
@[simp] theorem State.askHalt_seen (s : State) :
    s.askHalt.seen = s.seen := by simp [State.askHalt]
@[simp] theorem State.awake_seen (s : State) :
    s.awake.seen = s.seen := by
  unfold State.awake
  rfl
@[simp] theorem State.setGroup_seen (s : State) (x0 : Fin 16) (x1 : GroupState) :
    (s.setGroup x0 x1).seen = s.seen := by
  unfold State.setGroup
  rfl
@[simp] theorem State.failRead_ok (s : State) (x0 : SpxRead) (hs : s.seen.ok) :
    (s.failRead x0).seen.ok := by simp [State.failRead, hs]
@[simp] theorem State.bankLoss_ok (s : State) (x0 : ℕ) (hs : s.seen.ok) :
    (s.bankLoss x0).seen.ok := by
  unfold State.bankLoss
  simp (maxDischargeDepth := 8) +contextual [foldl_ok, hs]
@[simp] theorem State.capture'_seen (s : State) :
    s.capture'.seen = s.seen := by
  unfold State.capture'
  rfl
@[simp] theorem State.dbgSr_ok (s : State) (r : SpecialReg) (v : DWord) (hs : s.seen.ok) : (s.dbgSr r v).seen.ok := by
  cases r with
  | ip => unfold State.dbgSr; rw [State.setReg64_seen]; exact hs
  | flags => exact s.setFlags_ok _ hs (mtsrFlags_ok _ _ _ hs.2.2.2.1)
  | vec n => exact s.writeSr_ok (.vec n) v hs
  | xflags m => exact s.writeSr_ok (.xflags m) v hs
  | xip m => exact s.writeSr_ok (.xip m) v hs
  | xcause m => exact s.writeSr_ok (.xcause m) v hs
  | xaddr m => exact s.writeSr_ok (.xaddr m) v hs
  | xbrc m => exact s.writeSr_ok (.xbrc m) v hs
  | brs => exact hs
  | bre => exact hs
  | brc => exact hs
  | veidx => exact hs
  | tprog => exact hs
  | stamp => exact hs
  | tid => exact hs
@[simp] theorem State.noData_seen (s : State) :
    s.noData.seen = s.seen := by
  unfold State.noData
  rfl
@[simp] theorem State.drainOver_seen (s : State) :
    s.drainOver.seen = s.seen := by simp [State.drainOver]
@[simp] theorem State.drained_seen (s : State) :
    s.drained.seen = s.seen := by simp [State.drained]
@[simp] theorem State.pass_ok (s : State) (x0 : ℕ) (hs : s.seen.ok) :
    (s.pass x0).seen.ok := by
  induction x0 generalizing s with
  | zero => exact hs
  | succ n ih =>
    unfold State.pass
    try dsimp only
    repeat' first | assumption | (simp (maxDischargeDepth := 8) [ih, hs]; done) | split
@[simp] theorem State.endWake_ok (s : State)  (hs : s.seen.ok) :
    s.endWake.seen.ok := by
  unfold State.endWake
  split <;> simp [hs]
@[simp] theorem State.enterAsync_ok (s : State) (x0 : ℕ) (x1 : Bool) (x2 : Fin 6) (x3 : ℕ) (x4 : Word) (x5 : DWord) (hs : s.seen.ok) :
    (s.enterAsync x0 x1 x2 x3 x4 x5).seen.ok := by
  unfold State.enterAsync
  try dsimp only
  repeat' first | assumption | (simp [hs]; done) | split
@[simp] theorem State.enterIrq_ok (s : State) (x0 : ℕ) (x1 : ℕ) (x2 : ℕ) (x3 : Word) (hs : s.seen.ok) :
    (s.enterIrq x0 x1 x2 x3).seen.ok := by
  unfold State.enterIrq
  try dsimp only
  repeat' first | assumption | (simp [hs]; done) | split
@[simp] theorem State.enterMchk_ok (s : State)  (hs : s.seen.ok) :
    s.enterMchk.seen.ok := by simp [State.enterMchk, hs]
@[simp] theorem State.exhaustMove_ok (s : State)  (hs : s.seen.ok) :
    s.exhaustMove.seen.ok := by
  unfold State.exhaustMove
  try dsimp only
  repeat' first | assumption | (simp [hs]; done) | split
@[simp] theorem State.negFail_seen (s : State) (x0 : ℕ) (x1 : Hello) :
    (s.negFail x0 x1).seen = s.seen := by simp [State.negFail]
@[simp] theorem State.firstHello_seen (s : State) (x0 : Hello) :
    (s.firstHello x0).seen = s.seen := by
  unfold State.firstHello
  split <;> simp
@[simp] theorem State.laneEvent_seen (s : State) (x0 : Fin 2) :
    (s.laneEvent x0).seen = s.seen := by simp [State.laneEvent]
@[simp] theorem State.flitReject_seen (s : State) (x0 : Fin 2) (x1 : FlitFault) :
    (s.flitReject x0 x1).seen = s.seen := by
  unfold State.flitReject
  repeat' first | rfl | (simp; done) | split
@[simp] theorem State.forgetFlits_seen (s : State) (x0 : Fin 2) :
    (s.forgetFlits x0).seen = s.seen := by
  unfold State.forgetFlits
  try dsimp only
  repeat' first | rfl | (simp; done) | split
@[simp] theorem State.fromNap_seen (s : State) :
    s.fromNap.seen = s.seen := by
  unfold State.fromNap
  try dsimp only
  repeat' first | rfl | (simp; done) | split
@[simp] theorem State.goOn_ok (s : State) (b : Bool) (hs : s.seen.ok) : (s.goOn b).seen.ok := by
  unfold State.goOn
  split <;> exact hs
@[simp] theorem State.goodFlit_seen (s : State) (x0 : Fin 2) :
    (s.goodFlit x0).seen = s.seen := by simp [State.goodFlit]
@[simp] theorem State.groupAck_seen (s : State) (x0 : Fin 16) :
    (s.groupAck x0).seen = s.seen := by simp [State.groupAck]
@[simp] theorem State.groupClose_ok (s : State) (x0 : Fin 16) (hs : s.seen.ok) :
    (s.groupClose x0).seen.ok := by simp [State.groupClose, hs]
@[simp] theorem State.groupOpen_ok (s : State) (x0 : Fin 16) (hs : s.seen.ok) :
    (s.groupOpen x0).seen.ok := by simp [State.groupOpen, hs]
@[simp] theorem State.tookFlits_seen (s : State) (x0 : Fin 2) (x1 : Fin 4) (x2 : ℕ) :
    (s.tookFlits x0 x1 x2).seen = s.seen := by
  unfold State.tookFlits
  try dsimp only
  repeat' first | rfl | (simp; done) | split
@[simp] theorem State.helloIn_seen (s : State) (x0 : Hello) :
    (s.helloIn x0).seen = s.seen := by
  unfold State.helloIn
  dsimp only
  repeat' first | rfl | (simp; done) | split
@[simp] theorem State.helloRetry_seen (s : State) (x0 : Fin 2) :
    (s.helloRetry x0).seen = s.seen := by simp [State.helloRetry]
@[simp] theorem State.holdLow_ok (s : State)  (hs : s.seen.ok) :
    s.holdLow.seen.ok := by simp [State.holdLow, hs]
@[simp] theorem State.holdMsg_seen (s : State) (x0 : InMsg) :
    (s.holdMsg x0).seen = s.seen := by
  unfold State.holdMsg
  rfl
@[simp] theorem State.holeNotice_seen (s : State) :
    s.holeNotice.seen = s.seen := by
  unfold State.holeNotice
  split <;> simp
@[simp] theorem State.laneDown_ok (s : State) (x0 : Fin 2) (hs : s.seen.ok) :
    (s.laneDown x0).seen.ok := by simp [State.laneDown, hs]
@[simp] theorem State.laneUp_seen (s : State) (x0 : Fin 2) :
    (s.laneUp x0).seen = s.seen := by simp [State.laneUp]
@[simp] theorem State.nakRetry_seen (s : State) (x0 : Fin 2) :
    (s.nakRetry x0).seen = s.seen := by simp [State.nakRetry]
@[simp] theorem State.setTaint_seen (s : State) :
    s.setTaint.seen = s.seen := by
  unfold State.setTaint
  rfl
theorem openBytes_wf (k n : Nat) : (openBytes k n).wf := Memory.write_wf _ _ _ Memory.nil_wf
@[simp] theorem State.openPool_ok (s : State) (k n : Nat) (hs : s.seen.ok) : (s.openPool k n).seen.ok := by
  unfold State.openPool
  rw [State.setTaint_seen]
  exact ⟨hs.1, hs.2.1, openBytes_wf _ _, hs.2.2.2⟩
@[simp] theorem State.railsGood_ok (s : State)  (hs : s.seen.ok) :
    s.railsGood.seen.ok := by
  unfold State.railsGood
  split <;> simp [hs]
@[simp] theorem State.powerReq_ok (s : State) (x0 : BitVec 3) (hs : s.seen.ok) :
    (s.powerReq x0).seen.ok := by
  unfold State.powerReq
  dsimp only
  repeat' first | assumption | (simp [hs]; done) | split
@[simp] theorem State.railLoss_ok (s : State) (x0 : Fin 2) (hs : s.seen.ok) :
    (s.railLoss x0).seen.ok := by simp [State.railLoss, hs]
@[simp] theorem State.railRise_ok (s : State) (x0 : Fin 2) (hs : s.seen.ok) :
    (s.railRise x0).seen.ok := by
  unfold State.railRise
  try dsimp only
  repeat' first | assumption | (simp (maxDischargeDepth := 8) [hs]; done) | split
@[simp] theorem State.railsOff_ok (s : State) (x : BitVec 3) (hs : s.seen.ok) : (s.railsOff x).seen.ok :=
  ⟨Memory.nil_wf, hs.2⟩
@[simp] theorem State.rampMove_ok (s : State)  (hs : s.seen.ok) :
    s.rampMove.seen.ok := by
  unfold State.rampMove
  try dsimp only
  repeat' first | assumption | (simp [hs]; done) | split
@[simp] theorem State.rejectMalformed_seen (s : State) (x0 : InMsg) :
    (s.rejectMalformed x0).seen = s.seen := by simp [State.rejectMalformed]
@[simp] theorem State.rejectMisrouted_seen (s : State) (x0 : InMsg) :
    (s.rejectMisrouted x0).seen = s.seen := by simp [State.rejectMisrouted]
@[simp] theorem State.rest_ok (s : State)  (hs : s.seen.ok) :
    s.rest.seen.ok := by
  unfold State.rest
  repeat' first | assumption | (simp [hs]; done) | split
@[simp] theorem State.sample_ok (s : State)  (hs : s.seen.ok) :
    s.sample.seen.ok := by
  unfold State.sample
  repeat' first | assumption | (simp [hs]; done) | split
theorem State.pipe_ok (s : State) (c : Cpu) (hs : s.seen.ok) (h1 : flagsOk c.flags) (h2 : flagsOk c.frameS.xflags)
    (h3 : flagsOk c.frameM.xflags) (h4 : ∀ n : Fin 6, c.vecs[n] &&& 0x3F#64 = 0#64) :
    (({ s with cpu := c } : State)).seen.ok := ⟨hs.1, hs.2.1, hs.2.2.1, h1, h2, h3, h4⟩
@[simp] theorem State.scanned_ok (s : State) (hs : s.seen.ok) : s.scanned.seen.ok := by
  unfold State.scanned
  extract_lets k v fr t
  have h : t.seen.ok := by
    show (State.capture' _).seen.ok
    simpa using hs
  refine State.pipe_ok t _ h (flagsOk_masked _) (flagsOk_masked _) (flagsOk_masked _) fun n => ?_
  simp only [Fin.getElem_fin, Vector.getElem_ofFn, vecs_masked]
@[simp] theorem State.scrubbed_ok (s : State)  (hs : s.seen.ok) :
    s.scrubbed.seen.ok := by simp [State.scrubbed, hs]
@[simp] theorem State.session_ok (s : State) (x0 : SessionOp) (hs : s.seen.ok) :
    (s.session x0).seen.ok := by
  unfold State.session
  split <;> simp [hs]
@[simp] theorem State.setTemp_seen (s : State) (x0 : Byte) :
    (s.setTemp x0).seen = s.seen := by simp [State.setTemp]
@[simp] theorem State.startWake_seen (s : State) :
    s.startWake.seen = s.seen := by
  unfold State.startWake
  split <;> simp
@[simp] theorem State.tallyIn_ok (s : State) (x0 : InMsg) (hs : s.seen.ok) :
    (s.tallyIn x0).seen.ok := by simp [State.tallyIn, hs]
@[simp] theorem State.tapInstr_seen (s : State) (x0 : BitVec 5) (x1 : (State → State)) (hx1 : ∀ u, (x1 u).seen = u.seen) :
    (s.tapInstr x0 x1).seen = s.seen := by simp [State.tapInstr, hx1]
@[simp] theorem State.txCredit_seen (s : State) (x0 : Fin 2) (x1 : Fin 4) :
    (s.txCredit x0 x1).seen = s.seen := by simp [State.txCredit]
@[simp] theorem State.txNak_seen (s : State) (x0 : Fin 2) (x1 : Byte) :
    (s.txNak x0 x1).seen = s.seen := by simp [State.txNak]
@[simp] theorem State.upset_seen (s : State) (x0 : Upset) :
    (s.upset x0).seen = s.seen := by
  unfold State.upset
  try dsimp only
  repeat' first | rfl | (simp; done) | split
@[simp] theorem State.wholeUp_seen (s : State) (x0 : Straps) (x1 x2 : Bool) :
    (s.wholeUp x0 x1 x2).seen = s.seen := by
  unfold State.wholeUp
  try dsimp only
  repeat' first | rfl | (simp; done) | split
@[simp] theorem State.withFetchWord_seen (s : State) (x0 : ℕ) (x1 : ℕ) :
    (s.withFetchWord x0 x1).seen = s.seen := by
  unfold State.withFetchWord
  rfl
@[simp] theorem State.wrapInstr_seen (s : State) (x0 : Byte) (x1 : DbgClass) (x2 : (State → State)) (hx2 : ∀ u, (x2 u).seen = u.seen) :
    (s.wrapInstr x0 x1 x2).seen = s.seen := by simp [State.wrapInstr, hx2]
@[simp] theorem State.xackIn_ok (s : State) (x0 : InMsg) (hs : s.seen.ok) :
    (s.xackIn x0).seen.ok := by
  unfold State.xackIn
  split <;> simp [hs]
@[simp] theorem State.xinvIn_seen (s : State) (x0 : InMsg) :
    (s.xinvIn x0).seen = s.seen := by simp [State.xinvIn]
@[simp] theorem State.openOps_ok (s : State) (k n : Nat) (hs : s.seen.ok) : (s.openOps k n).seen.ok := by
  unfold State.openOps
  rw [State.setTaint_seen]
  exact ⟨hs.1, openBytes_wf _ _, hs.2.2⟩
@[simp] theorem State.settleHeld_ok (s : State)  (hs : s.seen.ok) :
    s.settleHeld.seen.ok := by
  unfold State.settleHeld
  try dsimp only
  repeat' first | assumption | (simp (maxDischargeDepth := 8) [hs]; done) | split
@[simp] theorem State.answerIn_ok (s : State) (x0 : InMsg) (x1 : Ans) (hs : s.seen.ok) :
    (s.answerIn x0 x1).seen.ok := by
  unfold State.answerIn
  split <;> simp [hs]
@[simp] theorem State.dbgRead_ok (s : State) (x0 : ℕ) (hs : s.seen.ok) :
    (s.dbgRead x0).seen.ok := by
  unfold State.dbgRead
  repeat' first | assumption | (simp [hs]; done) | split
@[simp] theorem State.dbgWrite_ok (s : State) (x0 : ℕ) (x1 : DWord) (hs : s.seen.ok) :
    (s.dbgWrite x0 x1).seen.ok := by
  unfold State.dbgWrite
  repeat' first | assumption | (simp [hs]; done) | split
@[simp] theorem State.dbgAccess_ok (s : State) (x0 : DbgOp) (hs : s.seen.ok) :
    (s.dbgAccess x0).seen.ok := by
  unfold State.dbgAccess
  repeat' first | assumption | (simp [hs]; done) | split
@[simp] theorem State.idle_ok (s : State)  (hs : s.seen.ok) :
    s.idle.seen.ok := by simp [State.idle, hs]
@[simp] theorem State.requestIn_ok (s : State) (x0 : InMsg) (hs : s.seen.ok) :
    (s.requestIn x0).seen.ok := by simp [State.requestIn, hs]
@[simp] theorem State.selfTest_ok (s : State) (t : MbistTarget) (hs : s.seen.ok) : (s.selfTest t).seen.ok := by
  unfold State.selfTest
  extract_lets k u
  have hu : u.seen.ok := by
    show (State.capture' ({ s with fresh := s.fresh + 1 } : State)).seen.ok
    simpa using hs
  clear_value u
  cases t with
  | pool => exact State.openPool_ok _ _ _ hu
  | operandTiles => exact State.openOps_ok _ _ _ hu
  | spxInterface => exact hu
  | caches => exact hu
  | tlbs => exact hu

end Sys2Proof.Machine
end

