-- ==== Sys2Proof/Laws/SeenFetch.lean ====
section
/-! SUPPORT. Fetching an instruction changes nothing of what software sees. -/

namespace Sys2Proof.Machine

/-- A request that reads. -/
def OutReq.reads (q : OutReq) : Prop := q.opc = 1 ∨ q.opc = 3

theorem State.serveMem_read (s : State) (r : Req) (h : r.opc ≠ 2) : (s.serveMem r).1.seen = s.seen := by
  unfold State.serveMem
  split
  · simp
  · rw [if_neg h]
    exact State.spxRead_seen _ _ _ _ _

theorem State.serveReg_read (s : State) (r : Req) (h : r.opc = 3) : (s.serveReg r).1.seen = s.seen := by
  unfold State.serveReg
  extract_lets key
  split
  · rfl
  · split
    · rfl
    · exact State.readReg_seen _ _ _

theorem State.serveReq_read (s : State) (r : Req) (h : r.opc = 1 ∨ r.opc = 3) : (s.serveReq r).1.seen = s.seen := by
  unfold State.serveReq
  split
  · rfl
  · rcases h with h | h <;> rw [h]
    · exact s.serveMem_read r (by omega)
    · exact s.serveReg_read r h

theorem State.sendReq_read (s : State) (q : OutReq) (h : q.reads) : (s.sendReq q).1.seen = s.seen := by
  unfold State.sendReq
  dsimp only
  split
  · split
    · rfl
    · rfl
    · exact s.serveReq_read _ h
  · split
    · rfl
    · exact State.sendTagged_seen _ _ _ _

theorem readReq_reads (s : State) (pa len : Nat) (tid : BitVec 16) (dev : Bool) (p : BitVec 16) (u : TagUse) :
    (s.readReq pa len tid dev p u).reads := by
  unfold OutReq.reads State.readReq
  dsimp only
  split
  · exact .inr rfl
  · exact .inl rfl

theorem State.installFill_empty (s : State) (f : Fill) (bs : List Byte) (h : f.pieces = []) : (s.installFill f bs).seen = s.seen := by
  unfold State.installFill
  rw [h]
  dsimp only [List.foldl_nil]
  split <;> simp

theorem State.failFill_empty (s : State) (f : Fill) (hi : f.ic = true) (h : f.pieces = []) : (s.failFill f).seen = s.seen := by
  unfold State.failFill
  rw [h, hi]
  simp only [if_true, Bool.not_true, Bool.false_and, Bool.false_eq_true, if_false, List.isEmpty_nil, Option.isNone_none,
    Bool.and_true, List.foldl_nil]
  split <;> simp

theorem State.issueFill_empty (s : State) (f : Fill) (hi : f.ic = true) (h : f.pieces = []) : (s.issueFill f).seen = s.seen := by
  have e := s.sendReq_read _ (readReq_reads s f.line 64 f.tid false f.tag (.fill f.line f.ic))
  unfold State.issueFill
  dsimp only
  split
  · rw [State.installFill_empty _ _ _ h, e]
  · rw [State.failFill_empty _ _ hi h, e]
  · exact e

theorem State.prefetchNext_instr (s : State) (line page : Nat) (p t : BitVec 16) :
    (s.prefetchNext true line page p t).seen = s.seen := by
  unfold State.prefetchNext
  dsimp only
  split
  · split
    · split
      · rfl
      · rw [State.issueFill_empty _ _ rfl rfl]
        simp
    · rfl
  · rfl

theorem State.requestFill_instr (s : State) (f : Fill) (hi : f.ic = true) (h : f.pieces = []) : (s.requestFill f).seen = s.seen := by
  have e := s.issueFill_empty f hi h
  unfold State.requestFill
  extract_lets t
  split
  · rw [hi, State.prefetchNext_instr]; exact e
  · exact e

theorem State.beginFill_instr (s : State) (f : Fill) (hi : f.ic = true) (h : f.pieces = []) : (s.beginFill f).seen = s.seen := by
  unfold State.beginFill
  extract_lets i
  split
  · rw [State.requestFill_instr _ _ hi h]; simp
  · rw [hi, Bool.true_or, if_pos rfl, State.requestFill_instr _ _ hi h]; simp

theorem State.demandFill_instr (s : State) (way line page : Nat) (p t : BitVec 16) :
    (s.demandFill true way line page p t []).seen = s.seen := State.beginFill_instr _ _ rfl rfl

theorem State.fetchPast_frame (s : State) (p : Part) (pa : Nat) : (s.fetchPast p pa).seen = s.seen := by
  unfold State.fetchPast
  extract_lets n u q r
  have e : r.1.seen = s.seen := s.sendReq_read _ (readReq_reads s _ _ _ _ _ _)
  clear_value r
  split
  · rfl
  · split
    · rename_i a _
      cases a
      · exact (State.keepFetch_seen _ _).trans e
      all_goals exact (State.machineCheck_seen _ _ _ _ _).trans e
    · exact e

theorem State.fetchDirty_frame (s : State) (p : Part) (line : Nat) (l : CLine) : (s.fetchDirty p line l).seen = s.seen := by
  unfold State.fetchDirty
  split
  · dsimp only
    rw [State.gotFetch_seen, State.prefetchNext_instr]
    simp
  · exact State.gotFetch_seen _ _
  · rfl

theorem State.fetchCached_frame (s : State) (p : Part) (pa : Nat) : (s.fetchCached p pa).seen = s.seen := by
  unfold State.fetchCached
  extract_lets -lift line r
  have hr : r.1.seen = s.seen := (State.probe_seen _ _ _ _ _).trans (State.charge_seen _ _ _)
  split
  · exact (State.gotFetch_seen _ _).trans hr
  · rename_i d _ _
   
    have hd : d.1.seen = s.seen := (State.dirtyCopy_seen _ _).trans hr
    clear_value d
    split
    · rw [State.fetchDirty_frame, State.bump_seen]; exact hd
    · split
      · rfl
      · rfl
      · rw [State.demandFill_instr, State.bump_seen]; exact hd
      · rw [State.fetchPast_frame]; exact hd

theorem State.fetchPart_frame (s : State) (p : Part) : (s.fetchPart p).seen = s.seen := by
  unfold State.fetchPart
  extract_lets k
  split
  · rfl
  · split
    · exact State.fetchUnit_seen _ _ _
    · split
      · exact State.fetchCached_frame _ _ _
      · rw [State.fetchPast_frame, State.noteSlip_seen]
    · split <;> rfl
    · exact State.gotFetch_seen _ _

theorem State.fetchFrom_frame (s : State) (va : DWord) (ks : List Nat) : (s.fetchFrom va ks).1.seen = s.seen := by
  induction ks generalizing s with
  | nil => rfl
  | cons k ks ih =>
    unfold State.fetchFrom
    dsimp only
    repeat' first | (simp [ih, State.fetchPart_frame]; done) | split

/-- FETCHING AN INSTRUCTION CHANGES NOTHING THAT SOFTWARE SEES. -/
theorem State.fetch_frame (s : State) (len : Nat) : (s.fetch len).1.seen = s.seen := by
  unfold State.fetch
  split
  · rfl
  · exact State.fetchFrom_frame _ _ _

/-- Nor does loading an entry line. -/
theorem State.fetchLine_frame (s : State) (va : DWord) : (s.fetchLine va).1.seen = s.seen := by
  unfold State.fetchLine
  generalize hr' : State.fetchFrom _ va _ = r
  have hr : r.1.seen = s.seen := hr' ▸ State.fetchFrom_frame _ _ _
  dsimp only
  split
  · exact (State.fetchByte_seen _ _).trans hr
  · exact hr

end Sys2Proof.Machine
end

