-- ==== Sys2Proof/Laws/Shared.lean ====
section
/-! SUPPORT. What the shared operations of the pipeline do to what software sees, and the register map as a map. -/

namespace Sys2Proof.Machine

/-! ## The register map -/

theorem WMap.get?_append (m n : WMap) (k : Nat) : WMap.get? (m ++ n) k = (WMap.get? m k).or (WMap.get? n k) := by
  induction m with
  | nil => rfl
  | cons c m ih =>
    rw [List.cons_append, WMap.get?, WMap.get?]
    split
    · rfl
    · exact ih

theorem WMap.get?_filter_out (m : WMap) (p : Nat → Bool) (k : Nat) (h : p k = false) :
    WMap.get? (m.filter fun c => p c.1) k = none := by
  induction m with
  | nil => rfl
  | cons c m ih =>
    rw [List.filter_cons]
    split
    · rw [WMap.get?, if_neg (fun e => by simp_all), ih]
    · exact ih

theorem WMap.get?_filter_in (m : WMap) (p : Nat → Bool) (k : Nat) (h : p k = true) :
    WMap.get? (m.filter fun c => p c.1) k = WMap.get? m k := by
  induction m with
  | nil => rfl
  | cons c m ih =>
    rw [List.filter_cons]
    split
    · rw [WMap.get?, WMap.get?, ih]
    · rw [WMap.get?, if_neg (fun e => by simp_all), ih]

/-- A key that was written reads as written. -/
theorem WMap.get?_set (m : WMap) (k : Nat) (v : Word) : (m.set k v).get? k = some v := by
  unfold WMap.set
  rw [WMap.get?_append, WMap.get?_filter_out m (fun x => decide (x < k)) k (by simp), WMap.get?, if_pos rfl]
  rfl

/-- Another key reads as before. -/
theorem WMap.get?_set_ne (m : WMap) (k j : Nat) (v : Word) (h : j ≠ k) : (m.set k v).get? j = m.get? j := by
  unfold WMap.set
  rw [WMap.get?_append, WMap.get?, if_neg (Ne.symm h)]
  by_cases hj : j < k
  · rw [WMap.get?_filter_in m (fun x => decide (x < k)) j (by simpa using hj),
      WMap.get?_filter_out m (fun x => decide (k < x)) j (by simp; omega), Option.or_none]
  · rw [WMap.get?_filter_out m (fun x => decide (x < k)) j (by simpa using hj),
      WMap.get?_filter_in m (fun x => decide (k < x)) j (by simp; omega), Option.none_or]

@[simp] theorem State.setReg_reg (s : State) (k : Nat) (v : Word) : (s.setReg k v).reg k = v := by
  unfold State.reg State.setReg
  rw [WMap.get?_set]
  rfl

theorem State.setReg_reg_ne (s : State) (k j : Nat) (v : Word) (h : j ≠ k) : (s.setReg k v).reg j = s.reg j := by
  unfold State.reg State.setReg
  rw [WMap.get?_set_ne _ _ _ _ h]

@[simp] theorem State.setReg_reg_if (s : State) (k j : Nat) (v : Word) :
    (s.setReg k v).reg j = if j = k then v else s.reg j := by
  split
  · rename_i h
    rw [h, State.setReg_reg]
  · exact s.setReg_reg_ne _ _ _ ‹_›

/-! ## Reading what software sees -/

theorem State.g_seen (s : State) (n : Fin 32) : s.g n = s.seen.readG n := rfl
theorem State.f_seen (s : State) (n : Fin 32) : s.f n = s.seen.readF n := rfl
theorem State.view_seen (s : State) (w : Bool) (n : Fin 32) : s.view w n = s.seen.view w n := rfl
theorem State.flags_seen (s : State) : s.cpu.flags = s.seen.flags := rfl
theorem State.ip_seen (s : State) : s.cpu.ip = s.seen.ip := rfl
theorem State.intSrc_seen (s : State) (b : IntSrc) : s.intSrc b = s.seen.src b := by cases b <;> rfl

/-! ## Writing it -/

@[simp] theorem State.setG_sees (s : State) (n : Fin 32) (v : DWord) : (s.setG n v).seen = s.seen.putG n v := by
  unfold State.setG Seen.putG
  split <;> rfl
@[simp] theorem State.setF_sees (s : State) (n : Fin 32) (v : DWord) : (s.setF n v).seen = s.seen.putF n v := rfl
@[simp] theorem State.setFlags_sees (s : State) (v : DWord) : (s.setFlags v).seen = s.seen.putFlags v := rfl
@[simp] theorem State.sticky_sees (s : State) (x : Sticky) : (s.sticky x).seen = s.seen.sticky x := rfl
@[simp] theorem State.setView_sees (s : State) (w : Bool) (n : Fin 32) (v : VView) :
    (s.setView w n v).seen = s.seen.putView w n v := by
  cases w <;> rfl
@[simp] theorem State.syncSet_sees (s : State) (n : Fin 64) (v : Word) : (s.syncSet n v).seen = s.seen.putSync n v := rfl
@[simp] theorem State.syncAdd_sees (s : State) (n : Fin 64) (v : Word) : (s.syncAdd n v).seen = s.seen.addSync n v := rfl

/-- Retiring an instruction changes nothing that software sees. -/
@[simp] theorem State.retireInstr_sees (s : State) : s.retireInstr.seen = s.seen := rfl

/-- A commit in sequence. -/
@[simp] theorem State.commit_sees (s : State) (n : Nat) : (s.commit n).seen = s.seen.next n := by
  unfold State.commit
  rw [State.endStep_seen]
  show _ = s.retireInstr.seen.next n
  generalize s.retireInstr = t
  unfold loopBack Seen.next
  by_cases h : t.cpu.brc ≠ 0#64 ∧ t.cpu.ip + w64 n = t.cpu.bre
  · have h' : t.seen.brc ≠ 0#64 ∧ t.seen.ip + w64 n = t.seen.bre := h
    simp only [if_pos h, if_pos h']
    by_cases k : 1 < t.cpu.brc.toNat
    · have k' : 1 < t.seen.brc.toNat := k
      rw [if_pos k, if_pos k']
      rfl
    · have k' : ¬1 < t.seen.brc.toNat := k
      rw [if_neg k, if_neg k']
      rfl
  · have h' : ¬(t.seen.brc ≠ 0#64 ∧ t.seen.ip + w64 n = t.seen.bre) := h
    simp only [if_neg h, if_neg h']
    rfl

/-- A taken control transfer. -/
@[simp] theorem State.goTo_sees (s : State) (a : DWord) (b : Option (DWord × DWord)) : (s.goTo a b).seen = s.seen.goTo a := by
  unfold State.goTo
  rw [State.endStep_seen]
  rfl

@[simp] theorem State.jump_sees (s : State) (a : DWord) : (s.jump a).seen = s.seen.goTo a := s.goTo_sees a none

/-- An entry. -/
theorem State.enter_sees (s : State) (m : Bool) (v : Fin 6) (a : Bool) (c : Nat) (d : Word) (x r : DWord) :
    (s.enter m v a c d x r).seen = s.seen.entered m v (xcause a s.pl c d) x r := by
  cases m <;> rfl

/-- A synchronous exception. -/
theorem State.except_sees (s : State) (c : Nat) (d : Word) (x : DWord) :
    (s.except c d x).seen
      = s.seen.entered (s.causeToM c) (if s.causeToM c then 2 else 0) (xcause false s.pl c d) x s.cpu.ip := by
  unfold State.except
  rw [State.endStep_seen]
  exact State.enter_sees _ _ _ _ _ _ _ _

/-! ## The shapes of instructions -/

theorem State.arrived_seen (s : State) (len : Nat) : (s.arrived len).seen = s.seen := s.fetch_frame len

/-- An instruction that issues does its work in the state with its bytes there. -/
theorem State.instr_issues (s : State) (len : Nat) (gs fs : List (Fin 32)) (k : State → State) (h : s.issues len gs fs) :
    s.instr len gs fs k = k (s.arrived len) := by
  obtain ⟨h1, h2, h3, h4⟩ := h
  have a : gs.any s.gBusy = false := List.any_eq_false.mpr fun n hn => by simp [h2 n hn]
  have b : fs.any s.fBusy = false := List.any_eq_false.mpr fun n hn => by simp [h3 n hn]
  unfold State.instr State.arrived
  simp only [h1, a, b, Bool.not_false, Bool.and_self, if_true]
  revert h4
  generalize s.fetch len = r
  obtain ⟨u, q⟩ := r
  cases q <;> simp [XOut.there]

/-! ## What is held back -/

/-- WHERE NOTHING IS HELD BACK, letting go what is held back changes nothing. -/
theorem State.settleHeld_settled (s : State) (h : s.settled) : s.settleHeld = s := by
  obtain ⟨h1, h2, h3, h4, h5, h6, h7⟩ := h
  have lost : ({ s.net with lost := [] } : Net) = s.net := by rw [← h2]
  have held : ({ s.net with held := [] } : Net) = s.net := by rw [← h1]
  have xinvs : ({ s.net with xinvs := [] } : Net) = s.net := by rw [← h3]
  have a : (if s.ras.fence.isSome || s.resetting then s.serveWaiting else s) = s := by
    split
    · unfold State.serveWaiting
      simp [h4]
    · rfl
  have b : s.settleLost = s := by
    unfold State.settleLost
    rw [lost, h2]
    rfl
  have c : s.writeLeaving s.caches.leaving.length = s := by rw [h6]; rfl
  have d : s.runM1 s.cpu.m1.length = s := by rw [h5]; rfl
  have e : s.dbgRetry = s := by
    unfold State.dbgRetry
    rw [h7]
  have f : s.settle [] s.net.held = s := by
    rw [h1]
    unfold State.settle
    rw [held]
  have g : s.settleXinvs [] s.net.xinvs = s := by
    rw [h3]
    unfold State.settleXinvs
    rw [xinvs]
  unfold State.settleHeld
  simp only [a, b, c, d, e, f, g]

end Sys2Proof.Machine
end

