-- ==== Sys2Proof/Laws/State.lean ====
section
/-! SUPPORT. Each update of the state leaves every other field of it as it was. -/

namespace Sys2Proof.Machine

@[simp] theorem State.setReg_build (s : State) (k : Nat) (v : Word) : (s.setReg k v).build = s.build := rfl
@[simp] theorem State.setReg_straps (s : State) (k : Nat) (v : Word) : (s.setReg k v).straps = s.straps := rfl
@[simp] theorem State.setReg_staged (s : State) (k : Nat) (v : Word) : (s.setReg k v).staged = s.staged := rfl
@[simp] theorem State.setReg_localHold (s : State) (k : Nat) (v : Word) : (s.setReg k v).localHold = s.localHold := rfl
@[simp] theorem State.setReg_remoteHold (s : State) (k : Nat) (v : Word) : (s.setReg k v).remoteHold = s.remoteHold := rfl
@[simp] theorem State.setReg_busRead (s : State) (k : Nat) (v : Word) : (s.setReg k v).busRead = s.busRead := rfl
@[simp] theorem State.setReg_bell (s : State) (k : Nat) (v : Word) : (s.setReg k v).bell = s.bell := rfl
@[simp] theorem State.setReg_tally (s : State) (k : Nat) (v : Word) : (s.setReg k v).tally = s.tally := rfl
@[simp] theorem State.setReg_sync (s : State) (k : Nat) (v : Word) : (s.setReg k v).sync = s.sync := rfl
@[simp] theorem State.setReg_tile (s : State) (k : Nat) (v : Word) : (s.setReg k v).tile = s.tile := rfl
@[simp] theorem State.setReg_cpu (s : State) (k : Nat) (v : Word) : (s.setReg k v).cpu = s.cpu := rfl
@[simp] theorem State.setReg_spx (s : State) (k : Nat) (v : Word) : (s.setReg k v).spx = s.spx := rfl
@[simp] theorem State.setReg_caches (s : State) (k : Nat) (v : Word) : (s.setReg k v).caches = s.caches := rfl
@[simp] theorem State.setReg_xlat (s : State) (k : Nat) (v : Word) : (s.setReg k v).xlat = s.xlat := rfl
@[simp] theorem State.setReg_net (s : State) (k : Nat) (v : Word) : (s.setReg k v).net = s.net := rfl
@[simp] theorem State.setReg_pitch (s : State) (k : Nat) (v : Word) : (s.setReg k v).pitch = s.pitch := rfl
@[simp] theorem State.setReg_boot (s : State) (k : Nat) (v : Word) : (s.setReg k v).boot = s.boot := rfl
@[simp] theorem State.setReg_rst (s : State) (k : Nat) (v : Word) : (s.setReg k v).rst = s.rst := rfl
@[simp] theorem State.setReg_pwr (s : State) (k : Nat) (v : Word) : (s.setReg k v).pwr = s.pwr := rfl
@[simp] theorem State.setReg_ras (s : State) (k : Nat) (v : Word) : (s.setReg k v).ras = s.ras := rfl
@[simp] theorem State.setReg_life (s : State) (k : Nat) (v : Word) : (s.setReg k v).life = s.life := rfl
@[simp] theorem State.setReg_dbg (s : State) (k : Nat) (v : Word) : (s.setReg k v).dbg = s.dbg := rfl
@[simp] theorem State.setReg_mchkOut (s : State) (k : Nat) (v : Word) : (s.setReg k v).mchkOut = s.mchkOut := rfl
@[simp] theorem State.setReg_fresh (s : State) (k : Nat) (v : Word) : (s.setReg k v).fresh = s.fresh := rfl
@[simp] theorem State.setReg_pending (s : State) (k : Nat) (v : Word) : (s.setReg k v).pending = s.pending := rfl

@[simp] theorem State.setReg64_build (s : State) (k : Nat) (v : DWord) : (s.setReg64 k v).build = s.build := rfl
@[simp] theorem State.setReg64_straps (s : State) (k : Nat) (v : DWord) : (s.setReg64 k v).straps = s.straps := rfl
@[simp] theorem State.setReg64_staged (s : State) (k : Nat) (v : DWord) : (s.setReg64 k v).staged = s.staged := rfl
@[simp] theorem State.setReg64_localHold (s : State) (k : Nat) (v : DWord) : (s.setReg64 k v).localHold = s.localHold := rfl
@[simp] theorem State.setReg64_remoteHold (s : State) (k : Nat) (v : DWord) : (s.setReg64 k v).remoteHold = s.remoteHold := rfl
@[simp] theorem State.setReg64_busRead (s : State) (k : Nat) (v : DWord) : (s.setReg64 k v).busRead = s.busRead := rfl
@[simp] theorem State.setReg64_bell (s : State) (k : Nat) (v : DWord) : (s.setReg64 k v).bell = s.bell := rfl
@[simp] theorem State.setReg64_tally (s : State) (k : Nat) (v : DWord) : (s.setReg64 k v).tally = s.tally := rfl
@[simp] theorem State.setReg64_sync (s : State) (k : Nat) (v : DWord) : (s.setReg64 k v).sync = s.sync := rfl
@[simp] theorem State.setReg64_tile (s : State) (k : Nat) (v : DWord) : (s.setReg64 k v).tile = s.tile := rfl
@[simp] theorem State.setReg64_cpu (s : State) (k : Nat) (v : DWord) : (s.setReg64 k v).cpu = s.cpu := rfl
@[simp] theorem State.setReg64_spx (s : State) (k : Nat) (v : DWord) : (s.setReg64 k v).spx = s.spx := rfl
@[simp] theorem State.setReg64_caches (s : State) (k : Nat) (v : DWord) : (s.setReg64 k v).caches = s.caches := rfl
@[simp] theorem State.setReg64_xlat (s : State) (k : Nat) (v : DWord) : (s.setReg64 k v).xlat = s.xlat := rfl
@[simp] theorem State.setReg64_net (s : State) (k : Nat) (v : DWord) : (s.setReg64 k v).net = s.net := rfl
@[simp] theorem State.setReg64_pitch (s : State) (k : Nat) (v : DWord) : (s.setReg64 k v).pitch = s.pitch := rfl
@[simp] theorem State.setReg64_boot (s : State) (k : Nat) (v : DWord) : (s.setReg64 k v).boot = s.boot := rfl
@[simp] theorem State.setReg64_rst (s : State) (k : Nat) (v : DWord) : (s.setReg64 k v).rst = s.rst := rfl
@[simp] theorem State.setReg64_pwr (s : State) (k : Nat) (v : DWord) : (s.setReg64 k v).pwr = s.pwr := rfl
@[simp] theorem State.setReg64_ras (s : State) (k : Nat) (v : DWord) : (s.setReg64 k v).ras = s.ras := rfl
@[simp] theorem State.setReg64_life (s : State) (k : Nat) (v : DWord) : (s.setReg64 k v).life = s.life := rfl
@[simp] theorem State.setReg64_dbg (s : State) (k : Nat) (v : DWord) : (s.setReg64 k v).dbg = s.dbg := rfl
@[simp] theorem State.setReg64_mchkOut (s : State) (k : Nat) (v : DWord) : (s.setReg64 k v).mchkOut = s.mchkOut := rfl
@[simp] theorem State.setReg64_fresh (s : State) (k : Nat) (v : DWord) : (s.setReg64 k v).fresh = s.fresh := rfl
@[simp] theorem State.setReg64_pending (s : State) (k : Nat) (v : DWord) : (s.setReg64 k v).pending = s.pending := rfl

@[simp] theorem State.addReg_build (s : State) (k n : Nat) : (s.addReg k n).build = s.build := rfl
@[simp] theorem State.addReg_straps (s : State) (k n : Nat) : (s.addReg k n).straps = s.straps := rfl
@[simp] theorem State.addReg_staged (s : State) (k n : Nat) : (s.addReg k n).staged = s.staged := rfl
@[simp] theorem State.addReg_localHold (s : State) (k n : Nat) : (s.addReg k n).localHold = s.localHold := rfl
@[simp] theorem State.addReg_remoteHold (s : State) (k n : Nat) : (s.addReg k n).remoteHold = s.remoteHold := rfl
@[simp] theorem State.addReg_busRead (s : State) (k n : Nat) : (s.addReg k n).busRead = s.busRead := rfl
@[simp] theorem State.addReg_bell (s : State) (k n : Nat) : (s.addReg k n).bell = s.bell := rfl
@[simp] theorem State.addReg_tally (s : State) (k n : Nat) : (s.addReg k n).tally = s.tally := rfl
@[simp] theorem State.addReg_sync (s : State) (k n : Nat) : (s.addReg k n).sync = s.sync := rfl
@[simp] theorem State.addReg_tile (s : State) (k n : Nat) : (s.addReg k n).tile = s.tile := rfl
@[simp] theorem State.addReg_cpu (s : State) (k n : Nat) : (s.addReg k n).cpu = s.cpu := rfl
@[simp] theorem State.addReg_spx (s : State) (k n : Nat) : (s.addReg k n).spx = s.spx := rfl
@[simp] theorem State.addReg_caches (s : State) (k n : Nat) : (s.addReg k n).caches = s.caches := rfl
@[simp] theorem State.addReg_xlat (s : State) (k n : Nat) : (s.addReg k n).xlat = s.xlat := rfl
@[simp] theorem State.addReg_net (s : State) (k n : Nat) : (s.addReg k n).net = s.net := rfl
@[simp] theorem State.addReg_pitch (s : State) (k n : Nat) : (s.addReg k n).pitch = s.pitch := rfl
@[simp] theorem State.addReg_boot (s : State) (k n : Nat) : (s.addReg k n).boot = s.boot := rfl
@[simp] theorem State.addReg_rst (s : State) (k n : Nat) : (s.addReg k n).rst = s.rst := rfl
@[simp] theorem State.addReg_pwr (s : State) (k n : Nat) : (s.addReg k n).pwr = s.pwr := rfl
@[simp] theorem State.addReg_ras (s : State) (k n : Nat) : (s.addReg k n).ras = s.ras := rfl
@[simp] theorem State.addReg_life (s : State) (k n : Nat) : (s.addReg k n).life = s.life := rfl
@[simp] theorem State.addReg_dbg (s : State) (k n : Nat) : (s.addReg k n).dbg = s.dbg := rfl
@[simp] theorem State.addReg_mchkOut (s : State) (k n : Nat) : (s.addReg k n).mchkOut = s.mchkOut := rfl
@[simp] theorem State.addReg_fresh (s : State) (k n : Nat) : (s.addReg k n).fresh = s.fresh := rfl
@[simp] theorem State.addReg_pending (s : State) (k n : Nat) : (s.addReg k n).pending = s.pending := rfl

@[simp] theorem State.raise_build (s : State) (k n : Nat) : (s.raise k n).build = s.build := rfl
@[simp] theorem State.raise_straps (s : State) (k n : Nat) : (s.raise k n).straps = s.straps := rfl
@[simp] theorem State.raise_staged (s : State) (k n : Nat) : (s.raise k n).staged = s.staged := rfl
@[simp] theorem State.raise_localHold (s : State) (k n : Nat) : (s.raise k n).localHold = s.localHold := rfl
@[simp] theorem State.raise_remoteHold (s : State) (k n : Nat) : (s.raise k n).remoteHold = s.remoteHold := rfl
@[simp] theorem State.raise_busRead (s : State) (k n : Nat) : (s.raise k n).busRead = s.busRead := rfl
@[simp] theorem State.raise_bell (s : State) (k n : Nat) : (s.raise k n).bell = s.bell := rfl
@[simp] theorem State.raise_tally (s : State) (k n : Nat) : (s.raise k n).tally = s.tally := rfl
@[simp] theorem State.raise_sync (s : State) (k n : Nat) : (s.raise k n).sync = s.sync := rfl
@[simp] theorem State.raise_tile (s : State) (k n : Nat) : (s.raise k n).tile = s.tile := rfl
@[simp] theorem State.raise_cpu (s : State) (k n : Nat) : (s.raise k n).cpu = s.cpu := rfl
@[simp] theorem State.raise_spx (s : State) (k n : Nat) : (s.raise k n).spx = s.spx := rfl
@[simp] theorem State.raise_caches (s : State) (k n : Nat) : (s.raise k n).caches = s.caches := rfl
@[simp] theorem State.raise_xlat (s : State) (k n : Nat) : (s.raise k n).xlat = s.xlat := rfl
@[simp] theorem State.raise_net (s : State) (k n : Nat) : (s.raise k n).net = s.net := rfl
@[simp] theorem State.raise_pitch (s : State) (k n : Nat) : (s.raise k n).pitch = s.pitch := rfl
@[simp] theorem State.raise_boot (s : State) (k n : Nat) : (s.raise k n).boot = s.boot := rfl
@[simp] theorem State.raise_rst (s : State) (k n : Nat) : (s.raise k n).rst = s.rst := rfl
@[simp] theorem State.raise_pwr (s : State) (k n : Nat) : (s.raise k n).pwr = s.pwr := rfl
@[simp] theorem State.raise_ras (s : State) (k n : Nat) : (s.raise k n).ras = s.ras := rfl
@[simp] theorem State.raise_life (s : State) (k n : Nat) : (s.raise k n).life = s.life := rfl
@[simp] theorem State.raise_dbg (s : State) (k n : Nat) : (s.raise k n).dbg = s.dbg := rfl
@[simp] theorem State.raise_mchkOut (s : State) (k n : Nat) : (s.raise k n).mchkOut = s.mchkOut := rfl
@[simp] theorem State.raise_fresh (s : State) (k n : Nat) : (s.raise k n).fresh = s.fresh := rfl
@[simp] theorem State.raise_pending (s : State) (k n : Nat) : (s.raise k n).pending = s.pending := rfl

@[simp] theorem State.setF_build (s : State) (n : Fin 32) (v : DWord) : (s.setF n v).build = s.build := rfl
@[simp] theorem State.setF_straps (s : State) (n : Fin 32) (v : DWord) : (s.setF n v).straps = s.straps := rfl
@[simp] theorem State.setF_regs (s : State) (n : Fin 32) (v : DWord) : (s.setF n v).regs = s.regs := rfl
@[simp] theorem State.setF_staged (s : State) (n : Fin 32) (v : DWord) : (s.setF n v).staged = s.staged := rfl
@[simp] theorem State.setF_localHold (s : State) (n : Fin 32) (v : DWord) : (s.setF n v).localHold = s.localHold := rfl
@[simp] theorem State.setF_remoteHold (s : State) (n : Fin 32) (v : DWord) : (s.setF n v).remoteHold = s.remoteHold := rfl
@[simp] theorem State.setF_busRead (s : State) (n : Fin 32) (v : DWord) : (s.setF n v).busRead = s.busRead := rfl
@[simp] theorem State.setF_bell (s : State) (n : Fin 32) (v : DWord) : (s.setF n v).bell = s.bell := rfl
@[simp] theorem State.setF_tally (s : State) (n : Fin 32) (v : DWord) : (s.setF n v).tally = s.tally := rfl
@[simp] theorem State.setF_sync (s : State) (n : Fin 32) (v : DWord) : (s.setF n v).sync = s.sync := rfl
@[simp] theorem State.setF_tile (s : State) (n : Fin 32) (v : DWord) : (s.setF n v).tile = s.tile := rfl
@[simp] theorem State.setF_spx (s : State) (n : Fin 32) (v : DWord) : (s.setF n v).spx = s.spx := rfl
@[simp] theorem State.setF_caches (s : State) (n : Fin 32) (v : DWord) : (s.setF n v).caches = s.caches := rfl
@[simp] theorem State.setF_xlat (s : State) (n : Fin 32) (v : DWord) : (s.setF n v).xlat = s.xlat := rfl
@[simp] theorem State.setF_net (s : State) (n : Fin 32) (v : DWord) : (s.setF n v).net = s.net := rfl
@[simp] theorem State.setF_pitch (s : State) (n : Fin 32) (v : DWord) : (s.setF n v).pitch = s.pitch := rfl
@[simp] theorem State.setF_boot (s : State) (n : Fin 32) (v : DWord) : (s.setF n v).boot = s.boot := rfl
@[simp] theorem State.setF_rst (s : State) (n : Fin 32) (v : DWord) : (s.setF n v).rst = s.rst := rfl
@[simp] theorem State.setF_pwr (s : State) (n : Fin 32) (v : DWord) : (s.setF n v).pwr = s.pwr := rfl
@[simp] theorem State.setF_ras (s : State) (n : Fin 32) (v : DWord) : (s.setF n v).ras = s.ras := rfl
@[simp] theorem State.setF_life (s : State) (n : Fin 32) (v : DWord) : (s.setF n v).life = s.life := rfl
@[simp] theorem State.setF_dbg (s : State) (n : Fin 32) (v : DWord) : (s.setF n v).dbg = s.dbg := rfl
@[simp] theorem State.setF_mchkOut (s : State) (n : Fin 32) (v : DWord) : (s.setF n v).mchkOut = s.mchkOut := rfl
@[simp] theorem State.setF_fresh (s : State) (n : Fin 32) (v : DWord) : (s.setF n v).fresh = s.fresh := rfl
@[simp] theorem State.setF_pending (s : State) (n : Fin 32) (v : DWord) : (s.setF n v).pending = s.pending := rfl

@[simp] theorem State.setG_build (s : State) (n : Fin 32) (v : DWord) : (s.setG n v).build = s.build := by unfold State.setG; split <;> rfl
@[simp] theorem State.setG_straps (s : State) (n : Fin 32) (v : DWord) : (s.setG n v).straps = s.straps := by unfold State.setG; split <;> rfl
@[simp] theorem State.setG_regs (s : State) (n : Fin 32) (v : DWord) : (s.setG n v).regs = s.regs := by unfold State.setG; split <;> rfl
@[simp] theorem State.setG_staged (s : State) (n : Fin 32) (v : DWord) : (s.setG n v).staged = s.staged := by unfold State.setG; split <;> rfl
@[simp] theorem State.setG_localHold (s : State) (n : Fin 32) (v : DWord) : (s.setG n v).localHold = s.localHold := by unfold State.setG; split <;> rfl
@[simp] theorem State.setG_remoteHold (s : State) (n : Fin 32) (v : DWord) : (s.setG n v).remoteHold = s.remoteHold := by unfold State.setG; split <;> rfl
@[simp] theorem State.setG_busRead (s : State) (n : Fin 32) (v : DWord) : (s.setG n v).busRead = s.busRead := by unfold State.setG; split <;> rfl
@[simp] theorem State.setG_bell (s : State) (n : Fin 32) (v : DWord) : (s.setG n v).bell = s.bell := by unfold State.setG; split <;> rfl
@[simp] theorem State.setG_tally (s : State) (n : Fin 32) (v : DWord) : (s.setG n v).tally = s.tally := by unfold State.setG; split <;> rfl
@[simp] theorem State.setG_sync (s : State) (n : Fin 32) (v : DWord) : (s.setG n v).sync = s.sync := by unfold State.setG; split <;> rfl
@[simp] theorem State.setG_tile (s : State) (n : Fin 32) (v : DWord) : (s.setG n v).tile = s.tile := by unfold State.setG; split <;> rfl
@[simp] theorem State.setG_spx (s : State) (n : Fin 32) (v : DWord) : (s.setG n v).spx = s.spx := by unfold State.setG; split <;> rfl
@[simp] theorem State.setG_caches (s : State) (n : Fin 32) (v : DWord) : (s.setG n v).caches = s.caches := by unfold State.setG; split <;> rfl
@[simp] theorem State.setG_xlat (s : State) (n : Fin 32) (v : DWord) : (s.setG n v).xlat = s.xlat := by unfold State.setG; split <;> rfl
@[simp] theorem State.setG_net (s : State) (n : Fin 32) (v : DWord) : (s.setG n v).net = s.net := by unfold State.setG; split <;> rfl
@[simp] theorem State.setG_pitch (s : State) (n : Fin 32) (v : DWord) : (s.setG n v).pitch = s.pitch := by unfold State.setG; split <;> rfl
@[simp] theorem State.setG_boot (s : State) (n : Fin 32) (v : DWord) : (s.setG n v).boot = s.boot := by unfold State.setG; split <;> rfl
@[simp] theorem State.setG_rst (s : State) (n : Fin 32) (v : DWord) : (s.setG n v).rst = s.rst := by unfold State.setG; split <;> rfl
@[simp] theorem State.setG_pwr (s : State) (n : Fin 32) (v : DWord) : (s.setG n v).pwr = s.pwr := by unfold State.setG; split <;> rfl
@[simp] theorem State.setG_ras (s : State) (n : Fin 32) (v : DWord) : (s.setG n v).ras = s.ras := by unfold State.setG; split <;> rfl
@[simp] theorem State.setG_life (s : State) (n : Fin 32) (v : DWord) : (s.setG n v).life = s.life := by unfold State.setG; split <;> rfl
@[simp] theorem State.setG_dbg (s : State) (n : Fin 32) (v : DWord) : (s.setG n v).dbg = s.dbg := by unfold State.setG; split <;> rfl
@[simp] theorem State.setG_mchkOut (s : State) (n : Fin 32) (v : DWord) : (s.setG n v).mchkOut = s.mchkOut := by unfold State.setG; split <;> rfl
@[simp] theorem State.setG_fresh (s : State) (n : Fin 32) (v : DWord) : (s.setG n v).fresh = s.fresh := by unfold State.setG; split <;> rfl
@[simp] theorem State.setG_pending (s : State) (n : Fin 32) (v : DWord) : (s.setG n v).pending = s.pending := by unfold State.setG; split <;> rfl

@[simp] theorem State.setFlags_build (s : State) (v : DWord) : (s.setFlags v).build = s.build := rfl
@[simp] theorem State.setFlags_straps (s : State) (v : DWord) : (s.setFlags v).straps = s.straps := rfl
@[simp] theorem State.setFlags_regs (s : State) (v : DWord) : (s.setFlags v).regs = s.regs := rfl
@[simp] theorem State.setFlags_staged (s : State) (v : DWord) : (s.setFlags v).staged = s.staged := rfl
@[simp] theorem State.setFlags_localHold (s : State) (v : DWord) : (s.setFlags v).localHold = s.localHold := rfl
@[simp] theorem State.setFlags_remoteHold (s : State) (v : DWord) : (s.setFlags v).remoteHold = s.remoteHold := rfl
@[simp] theorem State.setFlags_busRead (s : State) (v : DWord) : (s.setFlags v).busRead = s.busRead := rfl
@[simp] theorem State.setFlags_bell (s : State) (v : DWord) : (s.setFlags v).bell = s.bell := rfl
@[simp] theorem State.setFlags_tally (s : State) (v : DWord) : (s.setFlags v).tally = s.tally := rfl
@[simp] theorem State.setFlags_sync (s : State) (v : DWord) : (s.setFlags v).sync = s.sync := rfl
@[simp] theorem State.setFlags_tile (s : State) (v : DWord) : (s.setFlags v).tile = s.tile := rfl
@[simp] theorem State.setFlags_spx (s : State) (v : DWord) : (s.setFlags v).spx = s.spx := rfl
@[simp] theorem State.setFlags_caches (s : State) (v : DWord) : (s.setFlags v).caches = s.caches := rfl
@[simp] theorem State.setFlags_xlat (s : State) (v : DWord) : (s.setFlags v).xlat = s.xlat := rfl
@[simp] theorem State.setFlags_net (s : State) (v : DWord) : (s.setFlags v).net = s.net := rfl
@[simp] theorem State.setFlags_pitch (s : State) (v : DWord) : (s.setFlags v).pitch = s.pitch := rfl
@[simp] theorem State.setFlags_boot (s : State) (v : DWord) : (s.setFlags v).boot = s.boot := rfl
@[simp] theorem State.setFlags_rst (s : State) (v : DWord) : (s.setFlags v).rst = s.rst := rfl
@[simp] theorem State.setFlags_pwr (s : State) (v : DWord) : (s.setFlags v).pwr = s.pwr := rfl
@[simp] theorem State.setFlags_ras (s : State) (v : DWord) : (s.setFlags v).ras = s.ras := rfl
@[simp] theorem State.setFlags_life (s : State) (v : DWord) : (s.setFlags v).life = s.life := rfl
@[simp] theorem State.setFlags_dbg (s : State) (v : DWord) : (s.setFlags v).dbg = s.dbg := rfl
@[simp] theorem State.setFlags_mchkOut (s : State) (v : DWord) : (s.setFlags v).mchkOut = s.mchkOut := rfl
@[simp] theorem State.setFlags_fresh (s : State) (v : DWord) : (s.setFlags v).fresh = s.fresh := rfl
@[simp] theorem State.setFlags_pending (s : State) (v : DWord) : (s.setFlags v).pending = s.pending := rfl

@[simp] theorem State.setPool_build (s : State) (m : Memory) : (s.setPool m).build = s.build := rfl
@[simp] theorem State.setPool_straps (s : State) (m : Memory) : (s.setPool m).straps = s.straps := rfl
@[simp] theorem State.setPool_regs (s : State) (m : Memory) : (s.setPool m).regs = s.regs := rfl
@[simp] theorem State.setPool_staged (s : State) (m : Memory) : (s.setPool m).staged = s.staged := rfl
@[simp] theorem State.setPool_localHold (s : State) (m : Memory) : (s.setPool m).localHold = s.localHold := rfl
@[simp] theorem State.setPool_remoteHold (s : State) (m : Memory) : (s.setPool m).remoteHold = s.remoteHold := rfl
@[simp] theorem State.setPool_busRead (s : State) (m : Memory) : (s.setPool m).busRead = s.busRead := rfl
@[simp] theorem State.setPool_bell (s : State) (m : Memory) : (s.setPool m).bell = s.bell := rfl
@[simp] theorem State.setPool_tally (s : State) (m : Memory) : (s.setPool m).tally = s.tally := rfl
@[simp] theorem State.setPool_sync (s : State) (m : Memory) : (s.setPool m).sync = s.sync := rfl
@[simp] theorem State.setPool_cpu (s : State) (m : Memory) : (s.setPool m).cpu = s.cpu := rfl
@[simp] theorem State.setPool_spx (s : State) (m : Memory) : (s.setPool m).spx = s.spx := rfl
@[simp] theorem State.setPool_caches (s : State) (m : Memory) : (s.setPool m).caches = s.caches := rfl
@[simp] theorem State.setPool_xlat (s : State) (m : Memory) : (s.setPool m).xlat = s.xlat := rfl
@[simp] theorem State.setPool_net (s : State) (m : Memory) : (s.setPool m).net = s.net := rfl
@[simp] theorem State.setPool_pitch (s : State) (m : Memory) : (s.setPool m).pitch = s.pitch := rfl
@[simp] theorem State.setPool_boot (s : State) (m : Memory) : (s.setPool m).boot = s.boot := rfl
@[simp] theorem State.setPool_rst (s : State) (m : Memory) : (s.setPool m).rst = s.rst := rfl
@[simp] theorem State.setPool_pwr (s : State) (m : Memory) : (s.setPool m).pwr = s.pwr := rfl
@[simp] theorem State.setPool_ras (s : State) (m : Memory) : (s.setPool m).ras = s.ras := rfl
@[simp] theorem State.setPool_life (s : State) (m : Memory) : (s.setPool m).life = s.life := rfl
@[simp] theorem State.setPool_dbg (s : State) (m : Memory) : (s.setPool m).dbg = s.dbg := rfl
@[simp] theorem State.setPool_mchkOut (s : State) (m : Memory) : (s.setPool m).mchkOut = s.mchkOut := rfl
@[simp] theorem State.setPool_fresh (s : State) (m : Memory) : (s.setPool m).fresh = s.fresh := rfl
@[simp] theorem State.setPool_pending (s : State) (m : Memory) : (s.setPool m).pending = s.pending := rfl

@[simp] theorem State.setOps_build (s : State) (m : Memory) : (s.setOps m).build = s.build := rfl
@[simp] theorem State.setOps_straps (s : State) (m : Memory) : (s.setOps m).straps = s.straps := rfl
@[simp] theorem State.setOps_regs (s : State) (m : Memory) : (s.setOps m).regs = s.regs := rfl
@[simp] theorem State.setOps_staged (s : State) (m : Memory) : (s.setOps m).staged = s.staged := rfl
@[simp] theorem State.setOps_localHold (s : State) (m : Memory) : (s.setOps m).localHold = s.localHold := rfl
@[simp] theorem State.setOps_remoteHold (s : State) (m : Memory) : (s.setOps m).remoteHold = s.remoteHold := rfl
@[simp] theorem State.setOps_busRead (s : State) (m : Memory) : (s.setOps m).busRead = s.busRead := rfl
@[simp] theorem State.setOps_bell (s : State) (m : Memory) : (s.setOps m).bell = s.bell := rfl
@[simp] theorem State.setOps_tally (s : State) (m : Memory) : (s.setOps m).tally = s.tally := rfl
@[simp] theorem State.setOps_sync (s : State) (m : Memory) : (s.setOps m).sync = s.sync := rfl
@[simp] theorem State.setOps_cpu (s : State) (m : Memory) : (s.setOps m).cpu = s.cpu := rfl
@[simp] theorem State.setOps_spx (s : State) (m : Memory) : (s.setOps m).spx = s.spx := rfl
@[simp] theorem State.setOps_caches (s : State) (m : Memory) : (s.setOps m).caches = s.caches := rfl
@[simp] theorem State.setOps_xlat (s : State) (m : Memory) : (s.setOps m).xlat = s.xlat := rfl
@[simp] theorem State.setOps_net (s : State) (m : Memory) : (s.setOps m).net = s.net := rfl
@[simp] theorem State.setOps_pitch (s : State) (m : Memory) : (s.setOps m).pitch = s.pitch := rfl
@[simp] theorem State.setOps_boot (s : State) (m : Memory) : (s.setOps m).boot = s.boot := rfl
@[simp] theorem State.setOps_rst (s : State) (m : Memory) : (s.setOps m).rst = s.rst := rfl
@[simp] theorem State.setOps_pwr (s : State) (m : Memory) : (s.setOps m).pwr = s.pwr := rfl
@[simp] theorem State.setOps_ras (s : State) (m : Memory) : (s.setOps m).ras = s.ras := rfl
@[simp] theorem State.setOps_life (s : State) (m : Memory) : (s.setOps m).life = s.life := rfl
@[simp] theorem State.setOps_dbg (s : State) (m : Memory) : (s.setOps m).dbg = s.dbg := rfl
@[simp] theorem State.setOps_mchkOut (s : State) (m : Memory) : (s.setOps m).mchkOut = s.mchkOut := rfl
@[simp] theorem State.setOps_fresh (s : State) (m : Memory) : (s.setOps m).fresh = s.fresh := rfl
@[simp] theorem State.setOps_pending (s : State) (m : Memory) : (s.setOps m).pending = s.pending := rfl

@[simp] theorem State.charge_build (s : State) (n m : Nat) : (s.charge n m).build = s.build := rfl
@[simp] theorem State.charge_straps (s : State) (n m : Nat) : (s.charge n m).straps = s.straps := rfl
@[simp] theorem State.charge_regs (s : State) (n m : Nat) : (s.charge n m).regs = s.regs := rfl
@[simp] theorem State.charge_staged (s : State) (n m : Nat) : (s.charge n m).staged = s.staged := rfl
@[simp] theorem State.charge_localHold (s : State) (n m : Nat) : (s.charge n m).localHold = s.localHold := rfl
@[simp] theorem State.charge_remoteHold (s : State) (n m : Nat) : (s.charge n m).remoteHold = s.remoteHold := rfl
@[simp] theorem State.charge_busRead (s : State) (n m : Nat) : (s.charge n m).busRead = s.busRead := rfl
@[simp] theorem State.charge_bell (s : State) (n m : Nat) : (s.charge n m).bell = s.bell := rfl
@[simp] theorem State.charge_tally (s : State) (n m : Nat) : (s.charge n m).tally = s.tally := rfl
@[simp] theorem State.charge_sync (s : State) (n m : Nat) : (s.charge n m).sync = s.sync := rfl
@[simp] theorem State.charge_tile (s : State) (n m : Nat) : (s.charge n m).tile = s.tile := rfl
@[simp] theorem State.charge_cpu (s : State) (n m : Nat) : (s.charge n m).cpu = s.cpu := rfl
@[simp] theorem State.charge_spx (s : State) (n m : Nat) : (s.charge n m).spx = s.spx := rfl
@[simp] theorem State.charge_caches (s : State) (n m : Nat) : (s.charge n m).caches = s.caches := rfl
@[simp] theorem State.charge_xlat (s : State) (n m : Nat) : (s.charge n m).xlat = s.xlat := rfl
@[simp] theorem State.charge_net (s : State) (n m : Nat) : (s.charge n m).net = s.net := rfl
@[simp] theorem State.charge_pitch (s : State) (n m : Nat) : (s.charge n m).pitch = s.pitch := rfl
@[simp] theorem State.charge_boot (s : State) (n m : Nat) : (s.charge n m).boot = s.boot := rfl
@[simp] theorem State.charge_rst (s : State) (n m : Nat) : (s.charge n m).rst = s.rst := rfl
@[simp] theorem State.charge_ras (s : State) (n m : Nat) : (s.charge n m).ras = s.ras := rfl
@[simp] theorem State.charge_life (s : State) (n m : Nat) : (s.charge n m).life = s.life := rfl
@[simp] theorem State.charge_dbg (s : State) (n m : Nat) : (s.charge n m).dbg = s.dbg := rfl
@[simp] theorem State.charge_mchkOut (s : State) (n m : Nat) : (s.charge n m).mchkOut = s.mchkOut := rfl
@[simp] theorem State.charge_fresh (s : State) (n m : Nat) : (s.charge n m).fresh = s.fresh := rfl
@[simp] theorem State.charge_pending (s : State) (n m : Nat) : (s.charge n m).pending = s.pending := rfl

@[simp] theorem State.syncSet_build (s : State) (n : Fin 64) (v : Word) : (s.syncSet n v).build = s.build := rfl
@[simp] theorem State.syncSet_straps (s : State) (n : Fin 64) (v : Word) : (s.syncSet n v).straps = s.straps := rfl
@[simp] theorem State.syncSet_regs (s : State) (n : Fin 64) (v : Word) : (s.syncSet n v).regs = s.regs := rfl
@[simp] theorem State.syncSet_staged (s : State) (n : Fin 64) (v : Word) : (s.syncSet n v).staged = s.staged := rfl
@[simp] theorem State.syncSet_localHold (s : State) (n : Fin 64) (v : Word) : (s.syncSet n v).localHold = s.localHold := rfl
@[simp] theorem State.syncSet_remoteHold (s : State) (n : Fin 64) (v : Word) : (s.syncSet n v).remoteHold = s.remoteHold := rfl
@[simp] theorem State.syncSet_busRead (s : State) (n : Fin 64) (v : Word) : (s.syncSet n v).busRead = s.busRead := rfl
@[simp] theorem State.syncSet_bell (s : State) (n : Fin 64) (v : Word) : (s.syncSet n v).bell = s.bell := rfl
@[simp] theorem State.syncSet_tally (s : State) (n : Fin 64) (v : Word) : (s.syncSet n v).tally = s.tally := rfl
@[simp] theorem State.syncSet_tile (s : State) (n : Fin 64) (v : Word) : (s.syncSet n v).tile = s.tile := rfl
@[simp] theorem State.syncSet_cpu (s : State) (n : Fin 64) (v : Word) : (s.syncSet n v).cpu = s.cpu := rfl
@[simp] theorem State.syncSet_spx (s : State) (n : Fin 64) (v : Word) : (s.syncSet n v).spx = s.spx := rfl
@[simp] theorem State.syncSet_caches (s : State) (n : Fin 64) (v : Word) : (s.syncSet n v).caches = s.caches := rfl
@[simp] theorem State.syncSet_xlat (s : State) (n : Fin 64) (v : Word) : (s.syncSet n v).xlat = s.xlat := rfl
@[simp] theorem State.syncSet_net (s : State) (n : Fin 64) (v : Word) : (s.syncSet n v).net = s.net := rfl
@[simp] theorem State.syncSet_pitch (s : State) (n : Fin 64) (v : Word) : (s.syncSet n v).pitch = s.pitch := rfl
@[simp] theorem State.syncSet_boot (s : State) (n : Fin 64) (v : Word) : (s.syncSet n v).boot = s.boot := rfl
@[simp] theorem State.syncSet_rst (s : State) (n : Fin 64) (v : Word) : (s.syncSet n v).rst = s.rst := rfl
@[simp] theorem State.syncSet_pwr (s : State) (n : Fin 64) (v : Word) : (s.syncSet n v).pwr = s.pwr := rfl
@[simp] theorem State.syncSet_ras (s : State) (n : Fin 64) (v : Word) : (s.syncSet n v).ras = s.ras := rfl
@[simp] theorem State.syncSet_life (s : State) (n : Fin 64) (v : Word) : (s.syncSet n v).life = s.life := rfl
@[simp] theorem State.syncSet_dbg (s : State) (n : Fin 64) (v : Word) : (s.syncSet n v).dbg = s.dbg := rfl
@[simp] theorem State.syncSet_mchkOut (s : State) (n : Fin 64) (v : Word) : (s.syncSet n v).mchkOut = s.mchkOut := rfl
@[simp] theorem State.syncSet_fresh (s : State) (n : Fin 64) (v : Word) : (s.syncSet n v).fresh = s.fresh := rfl
@[simp] theorem State.syncSet_pending (s : State) (n : Fin 64) (v : Word) : (s.syncSet n v).pending = s.pending := rfl

@[simp] theorem State.syncAdd_build (s : State) (n : Fin 64) (v : Word) : (s.syncAdd n v).build = s.build := rfl
@[simp] theorem State.syncAdd_straps (s : State) (n : Fin 64) (v : Word) : (s.syncAdd n v).straps = s.straps := rfl
@[simp] theorem State.syncAdd_regs (s : State) (n : Fin 64) (v : Word) : (s.syncAdd n v).regs = s.regs := rfl
@[simp] theorem State.syncAdd_staged (s : State) (n : Fin 64) (v : Word) : (s.syncAdd n v).staged = s.staged := rfl
@[simp] theorem State.syncAdd_localHold (s : State) (n : Fin 64) (v : Word) : (s.syncAdd n v).localHold = s.localHold := rfl
@[simp] theorem State.syncAdd_remoteHold (s : State) (n : Fin 64) (v : Word) : (s.syncAdd n v).remoteHold = s.remoteHold := rfl
@[simp] theorem State.syncAdd_busRead (s : State) (n : Fin 64) (v : Word) : (s.syncAdd n v).busRead = s.busRead := rfl
@[simp] theorem State.syncAdd_bell (s : State) (n : Fin 64) (v : Word) : (s.syncAdd n v).bell = s.bell := rfl
@[simp] theorem State.syncAdd_tally (s : State) (n : Fin 64) (v : Word) : (s.syncAdd n v).tally = s.tally := rfl
@[simp] theorem State.syncAdd_tile (s : State) (n : Fin 64) (v : Word) : (s.syncAdd n v).tile = s.tile := rfl
@[simp] theorem State.syncAdd_cpu (s : State) (n : Fin 64) (v : Word) : (s.syncAdd n v).cpu = s.cpu := rfl
@[simp] theorem State.syncAdd_spx (s : State) (n : Fin 64) (v : Word) : (s.syncAdd n v).spx = s.spx := rfl
@[simp] theorem State.syncAdd_caches (s : State) (n : Fin 64) (v : Word) : (s.syncAdd n v).caches = s.caches := rfl
@[simp] theorem State.syncAdd_xlat (s : State) (n : Fin 64) (v : Word) : (s.syncAdd n v).xlat = s.xlat := rfl
@[simp] theorem State.syncAdd_net (s : State) (n : Fin 64) (v : Word) : (s.syncAdd n v).net = s.net := rfl
@[simp] theorem State.syncAdd_pitch (s : State) (n : Fin 64) (v : Word) : (s.syncAdd n v).pitch = s.pitch := rfl
@[simp] theorem State.syncAdd_boot (s : State) (n : Fin 64) (v : Word) : (s.syncAdd n v).boot = s.boot := rfl
@[simp] theorem State.syncAdd_rst (s : State) (n : Fin 64) (v : Word) : (s.syncAdd n v).rst = s.rst := rfl
@[simp] theorem State.syncAdd_pwr (s : State) (n : Fin 64) (v : Word) : (s.syncAdd n v).pwr = s.pwr := rfl
@[simp] theorem State.syncAdd_ras (s : State) (n : Fin 64) (v : Word) : (s.syncAdd n v).ras = s.ras := rfl
@[simp] theorem State.syncAdd_life (s : State) (n : Fin 64) (v : Word) : (s.syncAdd n v).life = s.life := rfl
@[simp] theorem State.syncAdd_dbg (s : State) (n : Fin 64) (v : Word) : (s.syncAdd n v).dbg = s.dbg := rfl
@[simp] theorem State.syncAdd_mchkOut (s : State) (n : Fin 64) (v : Word) : (s.syncAdd n v).mchkOut = s.mchkOut := rfl
@[simp] theorem State.syncAdd_fresh (s : State) (n : Fin 64) (v : Word) : (s.syncAdd n v).fresh = s.fresh := rfl
@[simp] theorem State.syncAdd_pending (s : State) (n : Fin 64) (v : Word) : (s.syncAdd n v).pending = s.pending := rfl

@[simp] theorem State.setF_g (s : State) (n : Fin 32) (v : DWord) : (s.setF n v).cpu.g = s.cpu.g := rfl
@[simp] theorem State.setFlags_flags (s : State) (v : DWord) : (s.setFlags v).cpu.flags = v := rfl
@[simp] theorem State.setFlags_g (s : State) (v : DWord) : (s.setFlags v).cpu.g = s.cpu.g := rfl
@[simp] theorem State.setFlags_f (s : State) (v : DWord) : (s.setFlags v).cpu.f = s.cpu.f := rfl
@[simp] theorem State.setPool_pool (s : State) (m : Memory) : (s.setPool m).tile.pool = m := rfl
@[simp] theorem State.setOps_ops (s : State) (m : Memory) : (s.setOps m).tile.ops = m := rfl

end Sys2Proof.Machine
end

