-- ==== Sys2Proof/Tests/Slice0.lean ====
section
/-! SUPPORT. Tests: ill-formed commands are refused by the well-formedness check; values that the spec gives; states that meet the
hypotheses of the obligations. -/

namespace Sys2Proof.Tests

open Sys2Proof Sys2Proof.Machine

set_option Elab.async false

/-! ## States -/

/-- A core that runs at level M, the groups of its scratchpad on, its fetch served from an entry line. -/
def ready : State :=
  { State.reset with
    rst := { Rst.init with phase := .run, wholeLow := false }
    cpu := { State.reset.cpu with fromLine := some 0 }
    spx := { Spx.init with groups := Vector.replicate 16 .on } }

def atS (s : State) : State := s.setFlags 0x400#64
def atU (s : State) : State := s.setFlags 0x0#64
def withG (s : State) (n : Nat) (x : DWord) : State := { s with cpu := { s.cpu with g := s.cpu.g.set! n x } }

/-- A memory access to the start of the scratchpad: G1 and G4 hold its address, G6 a length. -/
def near : State := withG (withG (withG (withG ready 1 0x40000000#64) 4 0x40000000#64) 5 0x40000100#64) 6 8#64

def isParts (ps : List Part) : XOut → Bool
  | .parts qs => decide (ps = qs)
  | _ => false

def onePart : XOut → Part
  | .parts [p] => p
  | _ => ⟨.phys 0, 0, false, false, false, 0⟩

/-- The one unit, of the activation class, that an access to the scratchpad's start touches. -/
def firstUnit (p : Part) : Bool := decide (p.tgt = .spx 0 [false])

/-- Nothing is held back; nor does a register write wait. -/
def isSettled (s : State) : Bool :=
  decide (s.net.held = [] ∧ s.net.lost = [] ∧ s.net.xinvs = [] ∧ s.tally.waiting = [] ∧ s.cpu.m1 = [] ∧ s.caches.leaving = []
    ∧ s.dbg.miss = none)
def isQuiet (s : State) : Bool := isSettled s && decide (s.tile.heldTuse = [] ∧ s.tile.unanswered = [])
theorem settled_of {s : State} (h : isSettled s = true) : s.settled := (of_decide_eq_true h : _ ∧ _)

def tmpl : MemArgs := ⟨false, false, 2, 1, 3, .d16 0, ⟨false, .ok⟩⟩

/-! ## Well-formedness: one ill-formed term for each check -/

def noMsg : InMsg :=
  { lane := 0, vc := 0, flits := 1, ver := 2, cls := 0, opc := 1, rsv := false, pdie := 0, ppitch := 0, ppv := false, pdv := false
    phys := false, su := false, len := 0, tid := 0, src := 0, dst := 0, stamp := 0, addr := 0, tag := 0, data := [] }

theorem test_wf_message_without_header : (Instr.reqRd { noMsg with flits := 0 }).wf = false := by decide
theorem test_wf_message_longer_than_its_flits : (Instr.reqWr { noMsg with data := [1#8] }).wf = false := by decide
theorem test_wf_message : (Instr.reqWr { noMsg with flits := 2, data := List.replicate 32 1#8 }).wf = true := by decide
theorem test_wf_hello_without_flit : (Instr.ctrlHello ⟨0, 3, 0, 0, 2, 1, 0, 0⟩).wf = false := by decide
theorem test_wf_register_not_aligned : (Instr.regWrite .remote 1 0x102#12 0).wf = false := by decide
theorem test_wf_walk_of_eight_reads : (Instr.pageWalkDone (List.replicate 8 (0, 0))).wf = false := by decide
theorem test_wf_unit_of_ten_flips : (Instr.moveUnitPerform (List.replicate 10 0)).wf = false := by decide
theorem test_wf_store_of_ten_flips : (Instr.storeBufferPerform ⟨List.replicate 10 0, false⟩).wf = false := by decide
theorem test_wf_tsave_flips_outside : (Instr.tsave ⟨⟨0, 0⟩, ⟨none, none, [(262144, 1)], 0⟩⟩).wf = false := by decide
theorem test_wf_flips_outside_the_scratchpad : (Instr.tileInstrStart ⟨none, none, [(262144, 1)], 0⟩).wf = false := by decide

/-! ## Values that the spec gives -/

/-- R266: SUB sets C where a borrow is taken, and V where the signed difference overflows. -/
theorem test_sub_borrow : condSub 0#64 1#64 = ⟨false, true, false, true⟩ := by decide
theorem test_sub_overflow : (condSub 0x8000000000000000#64 1#64).v = true := by decide
theorem test_add_wraps : condAdd 0xFFFFFFFFFFFFFFFF#64 1#64 = ⟨false, false, true, true⟩ := by decide

/-- 11's worked CRC: CRC-32C of the nine digits, in steps of 4, 4 and 1 bytes. -/
def digits : List Byte := [0x31#8, 0x32#8, 0x33#8, 0x34#8, 0x35#8, 0x36#8, 0x37#8, 0x38#8, 0x39#8]
def noCrc : CrcParam := ⟨8, 0#32, true⟩
theorem test_crc32c : crcStep (crcParam 1 noCrc) 0xFFFFFFFF#64 digits ^^^ 0xFFFFFFFF#64 = 0xE3069283#64 := by decide +kernel
theorem test_crc16 : crcStep (crcParam 2 noCrc) 0xFFFF#64 digits = 0x29B1#64 := by decide +kernel

/-- 03's worked conversions. -/
theorem test_pf8_nearest : (toPF8 .rne (dec32 0x3E99999A#32)).1 = 0x32#8 := by decide +kernel
theorem test_pf8_toward_zero : (toPF8 .tz (dec32 0x3E99999A#32)).1 = 0x31#8 := by decide +kernel
theorem test_pf16_nearest : (toPF16 .rne (dec32 0x3E99999A#32)).1 = 0x3A66#16 := by decide +kernel
theorem test_pf8_back : (to32 .rne (decPF8 0x32#8)).1 = 0x3EA00000#32 := by decide +kernel
theorem test_pf16_back : (to32 .rne (decPF16 0x3A66#16)).1 = 0x3E998000#32 := by decide +kernel
theorem test_pf8_too_large : toPF8 .rne (FVal.ofInt (-300)) = (0xFF#8, { sat := true, inexact := true }) := by decide +kernel
theorem test_pf8_below_midpoint : (toPF8 .rne (FVal.ofInt 247)).1 = 0x7F#8 ∧ (toPF8 .rne (FVal.ofInt 247)).2.sat = false := by decide +kernel
theorem test_pf8_midpoint : (toPF8 .rne (FVal.ofInt 248)).1 = 0x7F#8 ∧ (toPF8 .rne (FVal.ofInt 248)).2.sat = true := by decide +kernel
theorem test_pf8_minus_zero : (toPF8 .rne (dec32 0x80000000#32)).1 = 0x00#8 := by decide +kernel

/-- 05's worked cancellation: +2^30, 1, 1, -2^30 leave the pair (2, +0). -/
theorem test_acc_keeps_what_cancels :
    let add (p : Pair) (c : BitVec 32) : Pair := (acc p (dec32g c)).1
    add (add (add (add (pairOf 0) 0x4E800000#32) 0x3F800000#32) 0x3F800000#32) 0xCE800000#32 = pairOf 0x40000000 := by decide +kernel

/-- R269: the most negative value by -1 gives itself, with remainder 0. -/
theorem test_div_most_negative : divResult .div false 0x8000000000000000#64 0xFFFFFFFFFFFFFFFF#64 = 0x8000000000000000#64 := by decide +kernel
/-- G0 discards writes (R258). -/
theorem test_g0_discards : (ready.setG 0 5#64).g 0 = 0#64 := by decide +kernel


/-! ## States that meet the hypotheses of the obligations -/

theorem witness_StepRunsTheFrontCommand : ({ ready with pending := [.nop] } : State).pending = .nop :: [] := by decide +kernel
theorem witness_EmptyQueuePassesOneCycle : ready.pending = [] := by decide +kernel
theorem witness_EveryStepKeepsTheForm : ready.seen.ok ∧ ∃ t, step { ready with pending := [.nop] } = .next t :=
  ⟨by unfold Seen.ok; decide +kernel, _, rfl⟩

/-- An instruction of any length that names any registers issues in `s`. -/
abbrev everIssues (s : State) : Prop :=
  s.canIssue = true ∧ (∀ n, s.gBusy n = false) ∧ (∀ n, s.fBusy n = false) ∧ ∀ len : Fin 12, (s.fetch len.val).2.there = true

theorem issues_of {s : State} (h : everIssues s) (len : Nat) (hl : len ≤ 11) (gs fs : List (Fin 32)) : s.issues len gs fs :=
  ⟨h.1, fun n _ => h.2.1 n, fun n _ => h.2.2.1 n, h.2.2.2 ⟨len, by omega⟩⟩

theorem ready_open : everIssues ready := by decide +kernel
theorem near_open : everIssues near := by decide +kernel
theorem ready_issues (len : Nat) (hl : len ≤ 11) (gs fs : List (Fin 32)) : ready.issues len gs fs := issues_of ready_open len hl gs fs
theorem near_issues (len : Nat) (hl : len ≤ 11) (gs fs : List (Fin 32)) : near.issues len gs fs := issues_of near_open len hl gs fs

theorem ready_vissues (len : Nat) (h : len ≤ 11) (gs : List (Fin 32)) (vs : List (Bool × FReg)) (hv : ∀ x ∈ vs, viewOk x.1 x.2 = true) :
    ready.vissues len gs vs := ⟨hv, ready_issues len h _ _⟩

theorem witness_IntegerOperationsAndCompares :
    (ready.issues (srcLen (.reg 31)) ([31, 0] ++ srcRegs (.reg 31)) [])
      ∧ ready.issues (srcLen (.imm8 0x80)) ([0, 31] ++ srcRegs (.imm8 0x80)) []
      ∧ ready.issues (srcLen (.imm32 0x80000000)) ([31, 31] ++ srcRegs (.imm32 0x80000000)) [] :=
  ⟨ready_issues _ (by decide) _ _, ready_issues _ (by decide) _ _, ready_issues _ (by decide) _ _⟩
theorem witness_MovesWriteOneRegister :
    ready.issues 3 [0, 31] [] ∧ ready.issues 5 [0] [] ∧ ready.issues 7 [31] [] ∧ ready.issues 11 [0] []
      ∧ ready.issues (memLen tmpl) [tmpl.d, tmpl.b, tmpl.a] [] :=
  ⟨ready_issues _ (by decide) _ _, ready_issues _ (by decide) _ _, ready_issues _ (by decide) _ _, ready_issues _ (by decide) _ _,
    ready_issues _ (by decide) _ _⟩
theorem witness_BitAndCrcInstructions :
    ready.issues 5 [0, 31] [] ∧ ready.issues 4 [0, 31] [] ∧ (1 ≤ (1#8).toNat ∧ (1#8).toNat ≤ 64) ∧ (1 ≤ (64#8).toNat ∧ (64#8).toNat ≤ 64)
      ∧ 8#8 ∈ [8#8, 16#8, 32#8, 64#8] ∧ 64#8 ∈ [8#8, 16#8, 32#8, 64#8] ∧ (15#8).toNat < 16 :=
  ⟨ready_issues _ (by decide) _ _, ready_issues _ (by decide) _ _, by decide, by decide, by decide, by decide, by decide⟩
theorem witness_CrcStepsCompose : (crcParam 2 noCrc).w = 16 ∧ (crcParam 0 noCrc).w = 32 ∧ noCrc.w = 8 := by decide
theorem witness_Divisions :
    ready.issues 3 [31, 0, 1] [] ∧ (ready.arrived 3).cpu.div = none ∧ divByZero false ((withG ready 1 1#64).seen.readG 1) = false
      ∧ divByZero false (ready.seen.readG 0) = true ∧ divByZero true ((withG ready 1 0x100000000#64).seen.readG 1) = true
      ∧ ({ ready with cpu := { ready.cpu with div := some ⟨true, 0, 5#64, 0⟩ } } : State).cpu.div = some ⟨true, 0, 5#64, 0⟩ :=
  ⟨ready_issues _ (by decide) _ _, by decide +kernel, by decide +kernel, by decide +kernel, by decide +kernel, rfl⟩
theorem witness_QuotientAndRemainderBelongTogether : (0xFFFFFFFFFFFFFFFF#64 : DWord) ≠ 0#64 := by decide
theorem witness_BranchesAndCallsGoWhereTheySay :
    ready.issues (branchLen (.d16 0x8000)) [] [] ∧ ready.issues (branchLen (.d32 0)) [] [] ∧ ready.issues 3 [31, 31] []
      ∧ ready.issues 5 [31] [] ∧ ready.issues 1 [31] [] :=
  ⟨ready_issues _ (by decide) _ _, ready_issues _ (by decide) _ _, ready_issues _ (by decide) _ _, ready_issues _ (by decide) _ _,
    ready_issues _ (by decide) _ _⟩
theorem witness_BlockRepeatBegins : ready.issues 5 [31] [] ∧ (0xFFFF#16 : BitVec 16) ≠ 0#16 := ⟨ready_issues _ (by decide) _ _, by decide⟩
theorem witness_FloatArithmetic : ready.issues 3 [] [0, 31, 31] := ready_issues _ (by decide) _ _
theorem witness_FloatMovesAndConversions :
    ready.issues 3 [31] [0] ∧ ready.issues 3 [] [0, 31] ∧ ready.issues 4 [0] [31] :=
  ⟨ready_issues _ (by decide) _ _, ready_issues _ (by decide) _ _, ready_issues _ (by decide) _ _⟩
theorem witness_FloatDivisionsGoToTheUnit : (ready.arrived 3).cpu.div = none ∧ ready.issues 3 [] [0, 31, 31] :=
  ⟨by decide +kernel, ready_issues _ (by decide) _ _⟩
theorem witness_ConversionToIntegerClamps :
    (1 : Int) * 2 ^ (62 : Int).toNat < 2 ^ 63 ∧ (1 : Int) * 2 ^ (64 : Int).toNat > 2 ^ 63 ∧ (3 : Int) * 2 ^ (62 : Int).toNat > 2 ^ 63 := by decide
theorem witness_VectorIntegerOperations :
    ready.vissues (vLen 4 true) [] [(true, 15), (true, 0), (true, 15)] ∧ ready.vissues (vLen 4 false) [] [(false, 31), (false, 0), (false, 31)] :=
  ⟨ready_vissues _ (by decide) _ _ (by decide), ready_vissues _ (by decide) _ _ (by decide)⟩
theorem witness_VectorElementsAndBits :
    ready.vissues (vLen 5 true) [] [(true, 15), (true, 0)] ∧ ready.vissues (vLen 4 true) [31] [(true, 15)]
      ∧ ready.vissues (vLen 5 false) [0] [(false, 31)] ∧ (7#8).toNat < vWidth 0 ∧ (63#8).toNat < vWidth 3
      ∧ (15#8).toNat < viewBits true / vWidth 0 ∧ (0#8).toNat < viewBits false / vWidth 3 :=
  ⟨ready_vissues _ (by decide) _ _ (by decide), ready_vissues _ (by decide) _ _ (by decide), ready_vissues _ (by decide) _ _ (by decide),
    by decide, by decide, by decide, by decide⟩
theorem witness_VectorFixedPoint :
    ready.vissues (vLen 4 true) [] [(true, 15), (true, 0), (true, 15)] ∧ ready.vissues (vLen 5 false) [] [(false, 31), (false, 0)]
      ∧ (1 ≤ (1#8).toNat ∧ (8#8).toNat ≤ vWidth 0 ∧ (64#8).toNat ≤ vWidth 3) ∧ (63#8).toNat < vWidth 3 :=
  ⟨ready_vissues _ (by decide) _ _ (by decide), ready_vissues _ (by decide) _ _ (by decide), by decide, by decide⟩
theorem witness_VectorFloat :
    (2 ≤ (2 : Fin 4).val ∧ 2 ≤ (3 : Fin 4).val) ∧ ready.vissues (vLen 4 true) [] [(true, 15), (true, 0), (true, 15)] :=
  ⟨by decide, ready_vissues _ (by decide) _ _ (by decide)⟩
theorem witness_VectorNarrowingAndConversions :
    (2 : Fin 4) ≠ 3 ∧ ready.vissues 4 [] [(false, 31), (true, 15)] ∧ ready.vissues 5 [] [(false, 0), (true, 0)]
      ∧ ready.vissues 4 [] [(true, 15), (false, 31)] ∧ ready.vissues (vLen 5 true) [] [(true, 0), (true, 15)]
      ∧ ready.vissues 5 [] [(false, 31), (true, 15), (true, 0)] :=
  ⟨by decide, ready_vissues _ (by decide) _ _ (by decide), ready_vissues _ (by decide) _ _ (by decide),
    ready_vissues _ (by decide) _ _ (by decide), ready_vissues _ (by decide) _ _ (by decide), ready_vissues _ (by decide) _ _ (by decide)⟩
theorem witness_UndefinedFormsRaiseUndef :
    ready.issues 1 [] [] ∧ ready.issues 5 [0, 31] [] ∧ 16 ≤ (16 : Fin 32).val ∧ (1 : Fin 4).val < 2 ∧ vWidth 3 ≤ (64#8).toNat
      ∧ viewBits true / vWidth 0 ≤ (16#8).toNat ∧ (0#8).toNat = 0 ∧ 64 < (65#8).toNat ∧ 16 ≤ (16#8).toNat :=
  ⟨ready_issues _ (by decide) _ _, ready_issues _ (by decide) _ _, by decide, by decide, by decide, by decide, by decide, by decide, by decide⟩

/-! Loads and stores of the scratchpad's first unit. -/

def ldA : Acc := near.seen.scalar tmpl 0 8 false
def stA : Acc := near.seen.scalar tmpl 1 8 true
def ldP : Part := onePart ((near.arrived 6).access ldA).2
def stP : Part := onePart ((near.arrived 6).access stA).2

theorem witness_LoadsReadTheScratchpad :
    firstUnit ldP = true ∧ near.issues (memLen tmpl) [2, 1, 3] [] ∧ (near.arrived (memLen tmpl)).admits ldA false [ldP]
      ∧ ((near.arrived (memLen tmpl)).access ldA).1.build.s2 = true
      ∧ ((near.arrived (memLen tmpl)).access ldA).1.cpu.m1 = [] := by
  refine ⟨by decide +kernel, near_issues _ (by decide) _ _, ?_, by decide +kernel, by decide +kernel⟩
  unfold State.admits
  decide +kernel

def vtmpl : VMemArgs := ⟨false, 15, 1, 3, 0, ⟨false, .ok⟩⟩
def gaA : Acc := near.seen.elementAcc true 2 1 0 3 ⟨false, .ok⟩ 0 0

theorem witness_LoadsReadTheScratchpad_vectors :
    let a := near.seen.vectorAcc vtmpl true 0
    let p := onePart ((near.arrived 7).access a).2
    let q := onePart ((near.arrived 6).access gaA).2
    (firstUnit p = true ∧ near.vissues 7 [1, 3] [(true, 15)] ∧ (near.arrived 7).admits a false [p]
        ∧ ((near.arrived 7).access a).1.cpu.m1 = [])
      ∧ firstUnit q = true ∧ near.vissues 6 [1] [(true, 0)] ∧ viewOk true 15 = true ∧ (3#8).toNat ≤ 3
      ∧ (∀ x ∈ viewRegs true 15, x ∉ viewRegs true 0) ∧ (near.arrived 6).gatherBusy true 15 = false
      ∧ near.seen.veidx.toNat < viewBits true / vWidth 2 ∧ (near.arrived 6).admits gaA false [q]
      ∧ ((near.arrived 6).access gaA).1.cpu.m1 = [] := by
  refine ⟨⟨by decide +kernel, ⟨by decide, near_issues _ (by decide) _ _⟩, ?_, by decide +kernel⟩, by decide +kernel,
    ⟨by decide, near_issues _ (by decide) _ _⟩, by decide, by decide, by decide, by decide +kernel, by decide +kernel, ?_, by decide +kernel⟩
  all_goals unfold State.admits; decide +kernel

def aJob : LoadJob := ⟨0, 0, .g 2 true, List.replicate 8 0#8, 8, false, [(0, [1#8])]⟩
def aRead : SpxRead := ⟨⟨0, 0, 8, 8⟩, 0, List.replicate 32 0x80#8, ⟨0, 0#4, 0#4, 0#288, none⟩, false⟩
def reading : State := { near with cpu := { near.cpu with loads := [aJob] }, spx := { near.spx with reads := [aRead] } }

theorem witness_ScratchpadDataReachesTheRegister :
    reading.spx.reads = aRead :: [] ∧ reading.cpu.loads.find? (fun j => j.id == aRead.piece.job) = some aJob ∧ aJob.missing = aRead.piece.len
      ∧ aJob.bad = false ∧ (∀ n c, aJob.dest ≠ .crc n c) ∧ aRead.weight = false ∧ aRead.mark = ⟨aRead.unit, 0#4, 0#4, 0#288, none⟩
      ∧ reading.unitDown aRead.unit = false ∧ aRead.data.length = 32 :=
  ⟨rfl, by decide, rfl, rfl, fun _ _ => nofun, rfl, rfl, by decide +kernel, rfl⟩

theorem witness_StoresEnterTheStoreBuffer :
    let u := ((near.arrived (memLen tmpl)).access stA).1
    firstUnit stP = true ∧ near.issues (memLen tmpl) [2, 1, 3] [] ∧ (near.arrived (memLen tmpl)).admits stA true [stP]
      ∧ u.storeAtOnce [stP] (leBytes 5 8) = none ∧ u.cpu.sb.length < 8 := by
  refine ⟨by decide +kernel, near_issues _ (by decide) _ _, ?_, by decide +kernel, by decide +kernel⟩
  unfold State.admits
  decide +kernel

theorem witness_StoresEnterTheStoreBuffer_vectors :
    let a := near.seen.vectorAcc vtmpl true 1
    let p := onePart ((near.arrived 7).access a).2
    let c := near.seen.elementAcc true 3 1 0 0 ⟨false, .ok⟩ 1 0
    let q := onePart ((near.arrived 6).access c).2
    (near.vissues 7 [1, 3] [(true, 15)] ∧ (near.arrived 7).admits a true [p] ∧ ((near.arrived 7).access a).1.storeAtOnce [p] (leBytes 0 16) = none)
      ∧ near.vissues 6 [1] [(true, 15), (true, 0)] ∧ (0#8).toNat ≤ 3 ∧ near.seen.veidx.toNat < viewBits true / vWidth 3
      ∧ (near.arrived 6).admits c true [q] ∧ ((near.arrived 6).access c).1.storeAtOnce [q] (leBytes 0 8) = none := by
  refine ⟨⟨⟨by decide, near_issues _ (by decide) _ _⟩, ?_, by decide +kernel⟩, ⟨by decide, near_issues _ (by decide) _ _⟩, by decide,
    by decide +kernel, ?_, by decide +kernel⟩
  all_goals unfold State.admits; decide +kernel

def storing (k : SbKind) : State := { near with cpu := { near.cpu with sb := [⟨0, 0, k, false⟩] } }

theorem witness_PerformedStoresWriteTheirBytes :
    let bs := leBytes 5 8
    let s := storing (.store [(stP, bs)] false)
    s.cpu.sb = ⟨0, 0, .store [(stP, bs)] false, false⟩ :: [] ∧ firstUnit stP = true ∧ bs ≠ [] ∧ [false].length = unitsIn 0 bs.length
      ∧ s.build.s2 = true ∧ s.unitDown 0 = false ∧ s.settled := by
  refine ⟨rfl, by decide +kernel, by decide +kernel, by decide +kernel, rfl, by decide +kernel, ?_⟩
  unfold State.settled
  decide +kernel

theorem witness_OneFlippedBitIsCorrectedTwoAreFound : 2 ^ 64 - 1 < 2 ^ 64 ∧ 71 < 72 ∧ (70 < 71 ∧ 71 < 72) := by decide


/-! System instructions. -/

def someParts (a : XOut) : Bool :=
  match a with
  | .parts (_ :: _) => true
  | _ => false

theorem witness_SpecialRegistersReadAndWrite :
    specialReg 0x01 = some .flags ∧ ready.issues 5 [31] [] ∧ srLevel .flags ≤ ready.pl ∧ srWritable .flags = true
      ∧ specialReg 0x25 = some (.vec 5)
      ∧ someParts ((near.arrived 5).fetchLine (near.seen.readG 1 &&& ~~~0x3F#64)).2 = true
      ∧ (ready.arrived 5).cpu.div = none :=
  ⟨rfl, ready_issues _ (by decide) _ _, by decide +kernel, rfl, rfl, by decide +kernel, by decide +kernel⟩

def user : State := atU ready
def sup : State := atS ready
theorem user_open : everIssues user := by decide +kernel
theorem sup_open : everIssues sup := by decide +kernel

theorem witness_HandlersAreEnteredAndLeft :
    ready.issues 2 [] [] ∧ 1 ≤ ready.pl ∧ sup.issues 2 [] [] ∧ sup.pl = 1
      ∧ (ready.pl = 2 ∧ ready.cpu.frameM.xflags.toNat / 1024 % 4 ≤ ready.pl ∧ (ready.arrived 2).cpu.div = none)
      ∧ (sup.cpu.frameS.xflags.toNat / 1024 % 4 ≤ sup.pl ∧ (sup.arrived 2).cpu.div = none) :=
  ⟨ready_issues _ (by decide) _ _, by decide +kernel, issues_of sup_open _ (by decide) _ _, by decide +kernel, by decide +kernel,
    by decide +kernel⟩
theorem witness_GuardedInstructionsTrap :
    user.pl = 0 ∧ user.issues 5 [0, 31] [] ∧ user.issues 2 [] [] ∧ user.issues 4 [31] [] ∧ (0#8).toNat < (user.arrived 5).ways false
      ∧ (0#8).toNat < (user.arrived 5).ways true ∧ ((7#8).toNat < 8 ∧ (7#8).toNat % 4 = 3)
      ∧ specialReg 0x09 = none ∧ specialReg 0x08 = some .tid ∧ user.pl < srLevel .tid ∧ srWritable .ip = false
      ∧ 64 ≤ (64#8).toNat ∧ (let s := user.setReg 0xB200 0x1000#32
                           s.pl < (s.arrived 5).syncLevel 0 ∧ everIssues s) :=
  ⟨by decide +kernel, issues_of user_open _ (by decide) _ _, issues_of user_open _ (by decide) _ _, issues_of user_open _ (by decide) _ _,
    by decide +kernel, by decide +kernel, by decide, rfl, rfl, by decide +kernel, rfl, by decide, by decide +kernel⟩
theorem witness_FencesWindowsAndWait :
    ready.issues 2 [] [] ∧ (ready.arrived 2).cpu.sb.length < 8 ∧ 1 ≤ ready.pl ∧ ((ready.arrived 2).reloadLines [0, 1, 2, 3, 4, 5]).2 = true :=
  ⟨ready_issues _ (by decide) _ _, by decide +kernel, by decide +kernel, by decide +kernel⟩
theorem witness_SyncInstructionsUseTheirCounter :
    (63#8).toNat = (63 : Fin 64).val ∧ ready.issues 5 [31, 0] [] ∧ (ready.arrived 5).syncLevel 63 ≤ ready.pl ∧ (ready.arrived 5).cpu.sb.length < 8
      ∧ (0#32).toNat ≤ (ready.seen.sync[(63 : Fin 64)]).toNat
      ∧ (ready.seen.sync[(63 : Fin 64)]).toNat < (((withG ready 1 1#64).seen.readG 1).setWidth 32).toNat
      ∧ (let s : State := { ready with cpu := { ready.cpu with wait := .syncwait 63 0#32 } }; s.cpu.wait = .syncwait 63 0#32) :=
  ⟨rfl, ready_issues _ (by decide) _ _, by decide +kernel, by decide +kernel, by decide +kernel, by decide +kernel, rfl⟩

/-! String units, maintenance, translation. -/

def partsOf : XOut → List Part
  | .parts ps => ps
  | _ => []

theorem witness_StringUnitsCommit :
    let v := near.seen
    v.readG 6 ≠ 0#64 ∧ ready.seen.readG 6 = 0#64
      ∧ (let src := unitPieces (v.readG 4) 0 (misplaced [v.readG 4, v.readG 5] 8) 2 8
         let dst := unitPieces (v.readG 5) 1 (misplaced [v.readG 4, v.readG 5] 8) 1 8
         let a := (near.arrived 2).accessAll src
         let u := a.1.accessAll dst
         near.issues 2 [4, 5, 6] [] ∧ (near.arrived 2).admitsUnit src dst (partsOf a.2) (partsOf u.2) ∧ u.1.cpu.sb.length < 8
           ∧ partsOf a.2 ≠ [] ∧ partsOf u.2 ≠ [])
      ∧ (let dst := unitPieces (v.readG 5) 1 (misplaced [v.readG 5] 8) 1 8
         let u := (near.arrived 2).accessAll dst
         near.issues 2 [5, 6, 7] [] ∧ (near.arrived 2).admitsUnit [] dst [] (partsOf u.2) ∧ u.1.cpu.sb.length < 8)
      ∧ (let s := withG near 5 0x40000100#64
         let src := unitPieces (s.seen.readG 4) 0 (misplaced [s.seen.readG 4] 8) 5 8
         let u := (s.arrived 2).accessAll src
         (s.arrived 2).admitsUnit src [] (partsOf u.2) [] ∧ u.1.cpu.sb.length < 8 ∧ (∀ p ∈ partsOf u.2, p.outside = false)
           ∧ (s.seen.readG 5).toNat / 2 ^ 21 % 32 = 0) := by
  refine ⟨by decide +kernel, by decide +kernel, ⟨near_issues _ (by decide) _ _, ?_, by decide +kernel, by decide +kernel, by decide +kernel⟩,
    ⟨near_issues _ (by decide) _ _, ?_, by decide +kernel⟩, ?_, by decide +kernel, by decide +kernel, by decide +kernel⟩
  all_goals unfold State.admitsUnit; decide +kernel

theorem witness_CrcStepReadsMemory :
    let a : Acc := ⟨near.seen.readG 4, 4, 0, .v, false, false, true, misplaced [near.seen.readG 4] 4, false⟩
    let u := (near.arrived 5).access a
    let p := onePart u.2
    (9#8).toNat < 16 ∧ near.issues 5 [4, 6, 2] [] ∧ near.seen.readG 6 ≠ 0#64 ∧ firstUnit p = true ∧ (near.arrived 5).admits a false [p]
      ∧ u.1.build.s2 = true ∧ u.1.cpu.m1 = [] := by
  refine ⟨by decide, near_issues _ (by decide) _ _, by decide +kernel, by decide +kernel, ?_, by decide +kernel, by decide +kernel⟩
  unfold State.admits
  decide +kernel

/-- Both caches on, their maps' core at an ID. -/
def lineHere (s : State) (len kind : Nat) (x : DWord) : Bool :=
  let r := (s.arrived len).checkAt x kind
  match r.2 with
  | .inr (pa, mt) => (r.1.lineAt pa).isSome && r.1.effType pa mt == 0
  | _ => false
def placeHere (s : State) (len kind : Nat) (x : DWord) : Bool :=
  match ((s.arrived len).checkAt x kind).2 with
  | .inr _ => true
  | _ => false

def cached : State := (withG (withG (withG ready 1 0x80000040#64) 4 0x80000040#64) 6 128#64).setReg 0x2100 3#32

theorem witness_CacheFormsAct :
    everIssues cached ∧ 1 ≤ cached.pl ∧ (cached.arrived 4).cpu.sb.length < 8 ∧ cached.seen.readG 6 ≠ 0#64
      ∧ (15#8).toNat % 16 = 15 ∧ (0#8).toNat < (cached.arrived 5).ways false ∧ (0#8).toNat < (cached.arrived 5).ways true
      ∧ placeHere near 4 0 0x40000000#64 = true ∧ lineHere cached 4 0 0x80000040#64 = true ∧ lineHere cached 4 1 0x80000040#64 = true
      ∧ lineHere cached 4 2 0x80000040#64 = true ∧ (cached.cache true).lines = [] ∧ cached.cacheOn true = true ∧ cached.cacheOn false = true
      ∧ (cached.arrived 5).freeTag.isSome = true ∧ (cached.arrived 5).wayOff true 0 = false ∧ (cached.arrived 5).caches.fills = [] ∧ (cached.arrived 4).wayOff true 1 = false := by
  decide +kernel

def te : TlbEntry := ⟨0x1000#64, 12, 0, 5, false, true, true, true, true, 0, 0x5000#64, false⟩
def xinvS : State :=
  let s : State := { ready with xlat := { ready.xlat with itlb := [te], dtlb := [te], l2 := [(0, te)], ovf := [te] } }
  s.setReg 0x3100 8#32
def bcasting : State :=
  { ready with cpu := { ready.cpu with wait := .xinv }, xlat := { ready.xlat with bcast := some ⟨[0xFFFC1006#32], [0xFFFC1007#32]⟩ } }
def aWalk : Walk := ⟨0, 0x123456#64, 1, 0, false, none, none, none⟩
/-- A table at the scratchpad's start whose first entry leads to a table at 4096, whose first entry is a leaf of 2^39 bytes. -/
def walking : State :=
  let s : State := { ready with
    spx := { ready.spx with mem := [(1, 0x10#8), (3, 0x40#8), (4096, 0x07#8), (4103, 0x27#8)] |> ((0, 0x01#8) :: ·) }
    xlat := { ready.xlat with root := some (1, 0x40000001#64), walk := some aWalk } }
  s.setReg 0x310C 2#32
/-- At level S under TID 1, its address space table where no memory answers. -/
def faulting : State :=
  let s := atS { walking with xlat := { walking.xlat with root := none }, cpu := { walking.cpu with tid := 1#16 } }
  s.setReg 0x3100 1#32
def isLeaf : WalkEnd → Bool
  | .leaf .. => true
  | _ => false
def walkFault : WalkEnd → Option (Nat × Nat)
  | .fault a b => some (a, b)
  | _ => none

theorem witness_TranslationsComeAndGo :
    everIssues xinvS ∧ xinvBad 0 0 0 0 = false ∧ xinvBad 3 31 31 31 = false ∧ xinvBad 4 0 0 0 = false ∧ xinvBad 7 1 2 3 = false
      ∧ (xinvS.arrived 5).cpu.sb = [] ∧ (xinvS.arrived 5).storesOut = false
      ∧ 1 ≤ xinvS.pl ∧ (4 ≤ (4#8).toNat ∧ xinvS.pl = 2) ∧ ((atS xinvS).pl = 1 ∧ ((xinvS.arrived 5).reg 0x3100).getLsbD 3 = true)
      ∧ bcasting.xlat.bcast = some ⟨[0xFFFC1006#32], [0xFFFC1007#32]⟩
      ∧ walking.xlat.walk = some aWalk ∧ isLeaf (walking.walkOn aWalk [] 7).2 = true
      ∧ walkFault (faulting.walkOn aWalk [] 7).2 = some (12, 5)
      ∧ (let r := faulting.walkOn aWalk [] 7
         r.1.untranslated = false ∧ canonical aWalk.va = true ∧ r.1.noSpace = false) := by decide +kernel

/-! Register accesses. -/

theorem witness_CommonAndPlainRegisters :
    (∀ p : Fin 16, ready.reaches .local p.val = true) ∧ (∀ p : Fin 16, ready.reaches .remote p.val = true) ∧ ready.net.held = []
      ∧ regKey 6 0x104 = 0x6104 ∧ isPairLow 0x6104 = true ∧ pairWritable 0x6104 = true ∧ isPairLow 0x6108 = false
      ∧ ready.writeWaits .remote 0x6108 5#32 = false ∧ 0x6104 ∉ [0x4128, 0x5108]
      ∧ (regSpec 0x1104).isSome = true ∧ isPairLow 0x1104 = false ∧ isPairLow 0x1100 = false ∧ 0x1104 ∉ ownWrites
      ∧ 0x104#12 ∉ [0x010#12, 0x01C#12, 0x020#12, 0xF00#12, 0xF04#12] ∧ ready.writeWaits .local 0x1104 1#32 = false := by decide +kernel

theorem witness_TileCoreAndScratchpadPages :
    ready.reaches .local 4 = true ∧ ready.tileBusy = false ∧ ready.reaches .remote 4 = true
      ∧ (let s : State := { ready with tile := { ready.tile with queue := [(ready.newEntry .tmask 0)] } }
         s.reaches .remote 4 = true ∧ s.tileBusy = true)
      ∧ ready.reaches .local 5 = true ∧ (1 ≤ (16#32).toNat % 32 ∧ (16#32).toNat % 32 ≤ 16)
      ∧ (ready.reaches .local (0x1100 / 0x1000) = true ∧ ready.writeWaits .local 0x1100 1#32 = false)
      ∧ ready.writeWaits .local 0x2100 1#32 = false ∧ ready.writeWaits .remote 0x3100 1#32 = false
      ∧ ready.writeWaits .local 0x6108 0#32 = false ∧ ready.reaches .remote 6 = true ∧ ready.build.s2 = true := by decide +kernel

theorem witness_FabricPowerAndReliabilityPages :
    ready.reaches .local 7 = true ∧ ready.net.held = [] ∧ ready.tile.heldTuse = [] ∧ (ready.reg 0x7F00).getLsbD 0 = false
      ∧ ready.reaches .local 8 = true ∧ ready.reaches .remote 9 = true ∧ ready.reaches .local 0xB = true ∧ ready.reaches .local 0xC = true
      ∧ ready.reaches .remote 0xD = true ∧ ready.rst.phase = .run ∧ ready.ras.fence = none
      ∧ ready.hasChannel 0x80 = true ∧ ready.retired 0x80 = false ∧ ready.ras.ledger.length < 16
      ∧ (ready.reg 0xDF00).getLsbD 0 = false ∧ (ready.setReg 0xD11C 0x80#32).hasChannel (fld ((ready.setReg 0xD11C 0x80#32).reg 0xD11C) 0 8) = true := by
  decide +kernel

/-! Messages. -/

def lane0 : Lane :=
  { Lane.init with up := true, en := true, neg := true, credits := Vector.replicate 4 20, peer := some (2, 1, 0, 0) }
/-- A running core with ID 0xFFFC1005, whose neighbour 0xFFFC1006 is reached by lane 0. -/
def netS : State := { ready with
  pitch := ⟨[], [], [(5, 0x40000000#32), (6, 0x40000009#32)], [(2, 0x80000000#32)]⟩
  net := { ready.net with lanes := ready.net.lanes.set 0 lane0, link := some ⟨2, 0, 2, 1, 0⟩ } }
def msg (cls : BitVec 2) (opc : BitVec 6) (len addr : Nat) (data : List Byte) : InMsg :=
  { noMsg with
    vc := Fin.ofNat 4 cls.toNat, flits := 1 + (payloadLen cls opc len + 31) / 32, cls := cls, opc := opc, len := BitVec.ofNat 9 len
    src := 0xFFFC1006#32, dst := 0xFFFC1005#32, addr := BitVec.ofNat 56 addr, tag := 3, data := data }
abbrev got (s : State) (cls : BitVec 2) (opc : BitVec 6) (m : InMsg) : Prop :=
  s.laneOpen m.lane = true ∧ s.bufferFits m = true ∧ m.cls = cls ∧ m.opc = opc ∧ (s.took m).malformed m = false ∧ (s.took m).accepts (s.content m) = true
theorem gets_of {s : State} {cls : BitVec 2} {opc : BitVec 6} {m : InMsg} (h : got s cls opc m) : s.gets cls opc m := h

theorem witness_RequestsAreServedAndAnswered :
    (isQuiet netS = true ∧ netS.ras.fence = none ∧ netS.rst.phase = .run)
      ∧ (let m := msg 0 1 8 0x40 []
         got netS 0 1 m ∧ (netS.took m).rangeCheck ⟨.fabric 0, .d, 0⟩ 0x40 8 = none ∧ (∀ w ∈ netS.classes 0x40 8, w = false)
           ∧ netS.spx.marks = [] ∧ netS.build.s2 = true)
      ∧ (let m := msg 0 2 8 0x40 (leBytes 5 8)
         got netS 0 2 m ∧ (netS.took m).rangeCheck ⟨.fabric 0, .d, 1⟩ 0x40 8 = none)
      ∧ (let m := msg 0 2 8 0x7FFFFF8 (leBytes 5 8)
         ((netS.took m).rangeCheck ⟨.fabric 0, .d, 1⟩ 0x7FFFFF8 8).isSome = true)
      ∧ (let m := msg 0 3 4 0x1104 []
         got netS 0 3 m)
      ∧ (let m := msg 0 4 4 0x1104 (leBytes 1 4)
         got netS 0 4 m ∧ (netS.took m).writeWaits .remote 0x1104 1#32 = false)
      ∧ (let m := msg 0 5 4 63 (leBytes 1 4)
         got netS 0 5 m ∧ ((netS.setReg 0xB2FC 0xC000#32).reg (0xB200 + 4 * 63)).getLsbD 14 = true) := by decide +kernel

/-- A scratchpad without a wrong bit. -/
theorem clean_of {s : State} (h : s.spx.marks = []) (k : Nat) : s.mark k = ⟨k, 0#4, 0#4, 0#288, none⟩ := by
  unfold State.mark
  rw [h]
  rfl

/-! Answers. -/

def tagged (use : TagUse) (absorbed : Bool) : TagEntry := ⟨3, use, 0xFFFC1006#32, false, 9, 0x80000004#64, false, absorbed⟩
def asked (use : TagUse) (absorbed : Bool) : State :=
  { netS with net := { netS.net with tags := [tagged use absorbed] }, cpu := { netS.cpu with loads := [aJob] } }
abbrev namesIt (s : State) (m : InMsg) (e : TagEntry) : Prop := s.net.tags.find? (fun t => (s.took m).fromTarget t (s.content m)) = some e
def aPiece : Piece := ⟨0, 0, 4, 8⟩

theorem witness_AnswersAndMessagesTakeEffect_answers :
    (let s := asked (.load aPiece) false
     let m := msg 1 1 12 0 (List.replicate 12 7#8)
     isSettled s = true ∧ namesIt s m (tagged (.load aPiece) false) ∧ s.cpu.loads.find? (fun j => j.id == aPiece.job) = some aJob
       ∧ aJob.missing = aPiece.len ∧ got s 1 1 m ∧ (s.content m).data.length = aPiece.off + aPiece.len
       ∧ got s 1 3 (msg 1 3 0 2 []) ∧ namesIt s (msg 1 3 0 2 []) (tagged (.load aPiece) false))
      ∧ (let s := asked .store false
         got s 1 2 (msg 1 2 0 0 []) ∧ namesIt s (msg 1 2 0 0 []) (tagged .store false))
      ∧ (let s := asked .store true
         namesIt s (msg 1 2 0 0 []) (tagged .store true) ∧ got s 1 1 (msg 1 1 12 0 (List.replicate 12 7#8)) ∧ got s 1 2 (msg 1 2 0 0 [])
           ∧ got s 1 3 (msg 1 3 0 2 [])) := by decide +kernel

/-! Contributions: a slot that adds binary32 elements of two rows. -/

def aDesc : TallyDesc :=
  { dest := 0x1000, arena := 0x2000, idLo := 0xFFFC1000#32, idHi := 0xFFFC1FFF#32, count := 2, expect := 2, replace := true, op := 0, fmt := 0
    doneEn := true, done := 12, wbase := 0 }
def slot0 : TallySlot := { TallySlot.init with desc := some aDesc, armedAt := 1 }
def tallyS : State := { netS with
  bell := { netS.bell with tick := 5, unsync := false, splitDone := true, applyDone := false, c := 10 }
  tally := { netS.tally with slots := netS.tally.slots.set 0 slot0 } }
def contrib (src : Word) (stamp : Nat) : InMsg :=
  { msg 2 1 8 0 (leBytes 0x3F800000 4 ++ leBytes 0x40000000 4) with src := src, stamp := w64 stamp }
def judged (s : State) (m : InMsg) : Judgement := (s.took m).judge (tallyMsg (s.content m)) false

def old (n : Nat) : InMsg := contrib 0xFFFC1006#32 (n * 2 ^ 24)
def xinvM : InMsg := { msg 3 2 16 2 (leBytes 0x1000 8 ++ leBytes 64 8) with tid := 5 }
def group : State :=
  let s : State := { netS with xlat := { xinvS.xlat with root := none } }
  (((s.setReg 0x3110 0x7F00#32).setReg 0x3114 0x7FF0000#32).setReg 0x311C 0x03000000#32)
def acking : State := { group with
  cpu := { group.cpu with wait := .xinv }
  xlat := { group.xlat with bcast := some ⟨[0xFFFC1006#32], []⟩ } }

theorem witness_AnswersAndMessagesTakeEffect_messages :
    tallyS.ras.fence = none ∧ tallyS.rst.phase = .run ∧ got tallyS 1 4 (msg 1 4 0 0 []) ∧ tallyS.tally.waiting = []
      ∧ (got tallyS 2 1 (old 4) ∧ judged tallyS (old 4) = .stage none false)
      ∧ judged tallyS (old 6) = .reject 2 ∧ judged tallyS (old 3) = .reject 1
      ∧ judged { tallyS with tally := { tallyS.tally with slots := tallyS.tally.slots.set 0 { slot0 with unread := true } } } (old 4) = .wait false
      ∧ (let b := bufOf 4
         let off := aDesc.rowAt b 0
         (tallyS.slot 0).desc = some aDesc ∧ 0 < tallyS.tally.slots.length ∧ tallyS.rangeCheck ⟨.internal, .d, 1⟩ off 64 = none
           ∧ tallyS.rangeCheck ⟨.internal, .d, 1⟩ (off + 64) 8 = none)
      ∧ (got group 3 2 xinvM ∧ (group.content xinvM).su = false ∧ (group.took xinvM).inBcastGroup 0xFFFC1006#32 = true ∧ group.doneBefore group.cpu.ptag = true
        ∧ ({ group with cpu := { group.cpu with ptag := 1, sb := [⟨0, 0, .fence, false⟩] } } : State).doneBefore 1 = false)
      ∧ (let m := msg 3 3 0 0 []
         got acking 3 3 m ∧ (acking.content m).tag.toNat = fld (acking.reg 0x311C) 24 8 ∧ (acking.content m).su = false
           ∧ (acking.content m).src ∈ [0xFFFC1006#32] ∧ group.xlat.bcast = none)
      ∧ got netS 3 4 (msg 3 4 0 0 [])
      ∧ (let m := { msg 3 4 0 0 [] with dst := 0xFFFC1007#32 }
         netS.laneOpen m.lane = true ∧ m.cls = 3#2 ∧ m.opc = 4#6 ∧ (netS.took m).malformed m = false
           ∧ (netS.took m).accepts (netS.content m) = false) := by decide +kernel

/-! Lanes. -/


def withLane (s : State) (l : Lane) : State := { s with net := { s.net with lanes := s.net.lanes.set 0 l } }
abbrev isLive (s : State) (n : Fin 2) : Prop := s.net.lanes[n].up = true ∧ s.net.lanes[n].en = true ∧ s.pwr.state.toNat < 3
def sentMsg : OutMsg := ⟨0, 1, 0, 0, false, false, false, false, 8, 0, 0, 0, 0, 0, 3, []⟩

theorem witness_LanesFollowTheirSignals :
    (1 : Fin 2) ≠ 0 ∧ isSettled ready = true ∧ isSettled netS = true ∧ (ready.net.lanes[(0 : Fin 2)].up = false ∧ ready.rst.wholeLow = false ∧ ready.pwr.state.toNat < 3)
      ∧ (let s : State := { netS with net := { netS.net with lanes := netS.net.lanes.set 1 { lane0 with credits := Vector.replicate 4 0 } } }
         s.net.lanes[(0 : Fin 2)].up = true ∧ s.net.lanes[(0 : Fin 2)].retired = false ∧ s.net.lanes[(1 : Fin 2)].active = true)
      ∧ (isLive netS 0 ∧ netS.net.lanes[(0 : Fin 2)].txq = [] ∧ lane0.helloSent = false)
      ∧ (let s := withLane netS { lane0 with txq := [(sentMsg, 0)], credits := Vector.replicate 4 0 }
         isLive s 0 ∧ chan sentMsg.cls = 0 ∧ s.net.lanes[(0 : Fin 2)].active = true ∧ 0 < sentMsg.flits)
      ∧ (let s := withLane netS { lane0 with peer := none, neg := false, helloSent := true }
         isLive s 0 ∧ 0 < s.net.lanes[(0 : Fin 2)].credits[(3 : Fin 4)] ∧ s.net.lanes[(0 : Fin 2)].txq = []
           ∧ s.laneOpen 0 = true ∧ s.net.lanes[(1 : Fin 2)].active = false ∧ max 1 1 ≤ min 2 2 ∧ min 2 0 < max 1 0)
      ∧ (netS.level 0 + 1 < netS.thresh ∧ netS.net.lanes[(0 : Fin 2)].rxBad = false)
      ∧ (let s := withLane netS { lane0 with rxBad := true, sent := [⟨7, none, 0⟩], nakSeq := some 7, nakCount := 7 }
         isLive s 0 ∧ s.net.lanes[(0 : Fin 2)].rxBad = true ∧ (∃ f ∈ s.net.lanes[(0 : Fin 2)].sent, f.seq = 7)
           ∧ (∀ f ∈ s.net.lanes[(0 : Fin 2)].sent, f.seq ≠ 8))
      ∧ (let s : State := { netS with net := { netS.net with holeDue := true }, ras := { netS.ras with fence := some 4 } }
         s.ras.fence = some 4 ∧ s.net.lanes[(0 : Fin 2)].active = true ∧ 0 < s.net.lanes[(0 : Fin 2)].credits[(3 : Fin 4)]) := by decide +kernel

/-! The scratchpad's groups, S1, BOOT. -/

def groupS (g : GroupState) : State := { ready with spx := { ready.spx with groups := ready.spx.groups.set 0 g } }
def flipped : State := { ready with spx := { ready.spx with corr := [2], marks := [⟨2, 0#4, 0#4, 1#288, none⟩], mem := [(64, 1#8)] } }
def s1Q (we : Bool) : S1Req := ⟨we, 64, List.replicate 64 0#8, 0, some aPiece⟩
def bootQ (header : Option Nat) : BootReq := ⟨false, 8, 0, some aPiece, header, false, 0, false, none⟩
def porterS : State :=
  { ready with build := { ready.build with porterCapable := true }, straps := ⟨true, 0, 0⟩, boot := { ready.boot with offered := [bootQ none] } }

theorem witness_WriteBacksHandshakesAndGroups :
    (flipped.spx.corr = 2 :: [] ∧ flipped.weightClass 2 = false ∧ flipped.unitDown 2 = false
        ∧ (decodeUnit false (flipped.mark 2) (flipped.unitData 2) (flipped.mark 2).flips).bad = 0#4)
      ∧ ((s1Q false).we = false ∧ (s1Q false).piece = some aPiece ∧ (s1Q true).we = true)
      ∧ (porterS.boot.offered = bootQ none :: [] ∧ porterS.porter = true ∧ porterS.boot.out.length < 4)
      ∧ ((bootQ none).header = none ∧ (bootQ (some 3)).header = some 3)
      ∧ ready.build.s2 = true ∧ (groupS .opening).spx.groups[(0 : Fin 16)] = .opening
      ∧ (let s : State := { groupS .opening with spx := { (groupS .opening).spx with filling := 1 } }
         s.spx.filling.getLsbD 0 = true ∧ s.rst.releaseKept = false)
      ∧ ((groupS .closing).spx.groups[(0 : Fin 16)] = .closing ∧ (groupS .closing).groupBusy 0 = false)
      ∧ ((7 : Fin 128).val < ready.build.nBanks ∧ (7 : Fin 128).val / 8 = (0 : Fin 16).val ∧ ready.spx.reads = []) := by decide +kernel

/-! Time and the Tally. -/

def timeS (s : State) : State := (((s.setReg 0x9104 4096#32).setReg 0x9108 2048#32).setReg 0xA100 64#32).setReg 0xC100 0#32
def bellS : State := timeS { ready with bell := { ready.bell with tick := 5, splitDone := false, applyDone := true, c := 2047, unsync := false } }
def twoRows : List TallyRow := [⟨0xFFFC1006#32, 8, 0⟩, ⟨0xFFFC1007#32, 8, 0⟩]
def fullSlot : TallySlot := { slot0 with rows0 := twoRows, rows1 := twoRows }
def applyS : State := timeS { tallyS with
  bell := { tallyS.bell with splitDone := true, applyDone := false, c := 63 }
  tally := { tallyS.tally with slots := tallyS.tally.slots.set 0 fullSlot } }

theorem witness_BellsAndTheirOffsets :
    ready.clockOn = true ∧ (bellS.clockOn = true ∧ bellS.serving = true ∧ bellS.bell.c < bellS.split ∧ bellS.split < bellS.period)
      ∧ (bellS.enRamp = false ∧ bellS.enAllow = false ∧ applyS.enRamp = false ∧ applyS.enAllow = false ∧ applyS.bell.ot = 0 ∧ applyS.tally.apply = none)
      ∧ (let s : State := { bellS with bell := { bellS.bell with splitDone := true } }
         s.bell.splitDone = true ∧ s.bell.applyDone = true ∧ s.bell.ot = 0 ∧ s.enRamp = false ∧ s.enAllow = false ∧ 0 < s.period ∧ s.bell.c ≤ s.period - 1)
      ∧ (applyS.clockOn = true ∧ applyS.serving = true ∧ applyS.bell.unsync = false ∧ applyS.bell.c < applyS.applyAt ∧ applyS.applyAt < applyS.period
        ∧ applyS.armedSlots (applyS.bell.tick - 1#40) = [0] ∧ (applyS.slot 0).desc = some aDesc
        ∧ aDesc.expect ≤ (completeRows aDesc ((applyS.slot 0).rows (bufOf (applyS.bell.tick - 1#40)))).length)
      ∧ bellS.armedSlots (bellS.bell.tick - 1#40) = []
      ∧ (let s : State := (({ ready with ras := { ready.ras with levels := [(2, 3#32)], leakDue := true } } : State).setReg 0xD104 10#32).setReg 0xD108 10#32
         s.ras.leakDue = true ∧ (s.ras.levels.map Prod.fst).Nodup) := by decide +kernel

/-- The units are of the activation class where no window is enabled. -/
theorem class_of {s : State} (h : ∀ n : Fin 16, (s.winAttr n.val).getLsbD 15 = false) (u : Nat) : s.weightClass u = false := by
  have : s.winList = [] := by
    unfold State.winList
    rw [List.map_eq_nil_iff, List.filter_eq_nil_iff]
    intro n hn
    rw [h ⟨n, List.mem_range.1 hn⟩]
    simp
  unfold State.weightClass
  rw [this]
  rfl

/-- The units have power where no group lacks it. -/
theorem powered_of {s : State} (h : ∀ g : Fin 16, s.spx.groups[g] ≠ .off ∧ s.spx.groups[g] ≠ .opening) (u : Nat) : s.unitDown u = false := by
  have k := h (Fin.ofNat 16 (32 * u / s.build.groupBytes))
  unfold State.unitDown
  dsimp only
  generalize s.spx.groups[Fin.ofNat 16 (32 * u / s.build.groupBytes)] = g at k
  cases g <;> simp at k ⊢

/-- The slot's descriptor, as it stands in memory: DEST 0x1000, ARENA 0x2000, every ID, 2 binary32 elements, 1 row, REPLACE, DONE counter 12. -/
def descBytes : List (Nat × Byte) :=
  [(1, 0x10#8), (9, 0x20#8), (20, 0xFF#8), (21, 0xFF#8), (22, 0xFF#8), (23, 0xFF#8), (24, 0x01#8), (28, 0x40#8), (29, 0x4C#8)]
def unreadS (mem : Memory) : State := timeS { tallyS with
  bell := { tallyS.bell with c := 100, applyDone := true }
  spx := { tallyS.spx with mem := mem }
  tally := { tallyS.tally with slots := tallyS.tally.slots.set 0 { TallySlot.init with unread := true, armedAt := 1 } } }
def anApply : TallyApply := ⟨4, ⟨0, { aDesc with expect := 1 }, [(0, ⟨0xFFFC1006#32, 8, 0⟩)]⟩, [], 10⟩
def applying : State := timeS { tallyS with
  tally := { tallyS.tally with apply := some anApply } }
def heldS : State := { tallyS with tally := { tallyS.tally with waiting := [(tallyMsg (old 4), true)] } }

theorem witness_TallySlotsAndApplies :
    (let s := unreadS descBytes
     s.serving = true ∧ s.nextUnread = some 0 ∧ s.tally.waiting = [] ∧ s.build.s2 = true ∧ (s.reg64 0xA104).toNat = 0
       ∧ s.rangeCheck ⟨.internal, .d, 0⟩ 0 32 = none ∧ s.weightClass 0 = false ∧ s.mark 0 = ⟨0, 0#4, 0#4, 0#288, none⟩
       ∧ ((parseDesc (s.spx.mem.read 0 32)).map s.descRanges = some true)
       ∧ parseDesc ((unreadS [(30, 0xFF#8), (31, 0xFF#8)]).spx.mem.read 0 32) = none)
      ∧ (applying.tally.waiting = [] ∧ applying.build.s2 = true ∧ applying.tally.due = none ∧ (∀ u, applying.mark u = ⟨u, 0#4, 0#4, 0#288, none⟩) ∧ (∀ u, applying.weightClass u = false)
        ∧ (∀ u, applying.unitDown u = false)
        ∧ applying.tally.apply = some anApply ∧ anApply.todo = [] ∧ anApply.cur.rows = [(0, ⟨0xFFFC1006#32, 8, 0⟩)]
        ∧ anApply.cur.desc.replace = true)
      ∧ (heldS.tally.waiting = [(tallyMsg (old 4), true)] ∧ heldS.ras.fence = none ∧ heldS.resetting = false
        ∧ heldS.judge (tallyMsg (old 4)) true = .stage none true)
      ∧ (let m := tallyMsg (old 6)
         ({ tallyS with tally := { tallyS.tally with waiting := [(m, false)] } } : State).judge m false = .reject 2) :=
  ⟨by decide +kernel, ⟨rfl, rfl, rfl, clean_of rfl, class_of (by decide +kernel), powered_of (by decide +kernel), rfl, rfl, rfl, rfl⟩, by decide +kernel, by decide +kernel⟩


/-! Resets, power, the life cycle. -/

def phaseS (p : Phase) : State := { ready with rst := { ready.rst with phase := p } }

theorem witness_ResetsRunTheirPhases :
    State.reset.rst.wholeLow = true
      ∧ (let s := phaseS .fuse
         s.rst.phase = .fuse ∧ s.rst.wholeLow = false ∧ s.rst.fuseIdx < 16
           ∧ ({ s with rst := { s.rst with fuseIdx := 15 } } : State).rst.fuseIdx < 16)
      ∧ (isQuiet ready = true ∧ ready.rst.wholeLow = false ∧ ready.rst.phase = .run ∧ ready.pwr.state.toNat < 2 ∧ (2#2 : BitVec 2) ≠ 3#2
        ∧ ready.reaches .local 0xF = true)
      ∧ (isQuiet (phaseS .drain) = true ∧ (phaseS .drain).accessesDone = true)
      ∧ (isQuiet (phaseS .scrub) = true ∧ (phaseS .scrub).scrubOut = true ∧ ready.build.s2 = true ∧ ready.inService 0 = true
        ∧ (phaseS .scrub).spx.groups[(0 : Fin 16)] = .on)
      ∧ (let s : State := { phaseS .scrub with build := { ready.build with s2 := false } }
         isQuiet s = true ∧ s.rst.phase = .scrub ∧ s.scrubOut = false)
      ∧ (isQuiet (phaseS .held) = true ∧ ready.life.taint = false ∧ ready.ras.fence = none ∧ ready.pwr.railOk = 3#2)
      ∧ (let s : State := { phaseS .held with pwr := { ready.pwr with railOk := 1 } }
         isQuiet s = true ∧ s.rst.phase = .held ∧ s.pwr.railOk ≠ 3#2)
      ∧ (let s : State := { phaseS .wait with net := netS.net }
         s.reaches .remote 0xF = true ∧ s.rst.phase = .wait ∧ s.rst.wholeLow = false ∧ s.life.taint = false ∧ s.ras.fence = none
           ∧ s.pwr.railOk = 3#2 ∧ s.groupsOn = true)
      ∧ (let s : State := { phaseS .wait with net := netS.net, spx := Spx.init }
         s.reaches .remote 0xF = true ∧ s.groupsOn = false) := by decide +kernel

def spentS : State :=
  let s : State := { ready with pwr := { ready.pwr with unsampled := false, energy := 2 ^ 29 } }
  (s.setReg 0xC100 3#32).setReg 0xC114 1#32
def rampS : State :=
  let s : State := { ready with pwr := { ready.pwr with level := 3, since := 300, unsampled := false }
                                bell := { ready.bell with splitDone := true, applyDone := true } }
  s.setReg 0xC100 2#32
def restS (req : BitVec 3) : State :=
  { ready with cpu := { ready.cpu with wait := .wfi }, pwr := { ready.pwr with req := req } }
def lowS (st : BitVec 3) : State := { restS st with pwr := { ready.pwr with state := st, req := 0, railEn := 1, railOk := 1 } }

theorem witness_PowerFollowsItsInputs :
    (ready.clockOn = true ∧ isQuiet ready = true)
      ∧ (spentS.clockOn = true ∧ spentS.enAllow = true ∧ spentS.pwr.unsampled = false ∧ spentS.spent = true ∧ spentS.pwr.exhausted = false)
      ∧ (rampS.clockOn = true ∧ isQuiet rampS = true ∧ rampS.enRamp = true ∧ rampS.enAllow = false ∧ rampS.bell.splitDone = true
        ∧ rampS.bell.applyDone = true ∧ rampS.bell.c ≤ rampS.period - 1 ∧ rampS.target < rampS.pwr.level
        ∧ rampS.age + max 1 (rampS.rampStep - rampS.pwr.since) ≤ rampS.period - 1 + 1024)
      ∧ (ready.pwr.state = 0#3 ∧ ready.pwr.waking = none)
      ∧ ((restS 1).clockOn = true ∧ (restS 1).canRest = true ∧ (restS 1).canSleep = true)
      ∧ ((lowS 1).clockOn = true ∧ (lowS 1).pwr.state = 1#3 ∧ reqState (lowS 1).pwr.req = 0 ∧ (lowS 1).pwr.waking = none)
      ∧ ((lowS 2).clockOn = true ∧ (lowS 2).pwr.state = 2#3)
      ∧ (ready.rst.railWait = none ∧ ready.rst.releaseKept = false)
      ∧ (let s : State := { lowS 2 with pwr := { (lowS 2).pwr with waking := some 0, railUp := some 0, railOk := 3 } }
         s.clockOn = true ∧ s.pwr.waking.isSome = true ∧ s.pwr.railUp.isSome = true ∧ s.pwr.railOk.getLsbD 1 = true)
      ∧ (ready.rst.phase = .run ∧ ready.pwr.state.toNat < 2) := by decide +kernel

def lifeS (shadow : BitVec 3) : State := { ready with life := { ready.life with shadow := shadow } }

theorem witness_LifeCycleRequestsAndSessions :
    isQuiet (lifeS 2) = true ∧ (lifeS 2).rst.wholeLow = false ∧ (lifeS 2).rst.phase = .run ∧ (lifeS 2).pwr.state.toNat < 2
      ∧ (lifeS 2).reaches .local 0xE = true ∧ (lifeS 2).life.verifying = false ∧ (lifeS 2).life.lockout = false ∧ (lifeS 2).life.granted = none
      ∧ ((0x4C430003#32).toNat / 2 ^ 16 = 0x4C43 ∧ (0x4C430003#32).toNat % 8 = 3 ∧ transitionOk 2 3 = true)
      ∧ (transitionOk (lifeS 0).life.shadow.toNat 1 = true ∧ transitionOk 0 3 = false)
      ∧ (let s : State := { lifeS 2 with life := { (lifeS 2).life with verifying := true, chal := some [] } }
         s.life.verifying = true ∧ s.life.chal = some [] ∧ isQuiet s = true) := by decide +kernel

/-! Debug ports, asynchronous entries. -/

def haltedS : State := { ready with cpu := { ready.cpu with halted := true } }

def atStart : Target → Bool
  | .spx 0 _ => true
  | _ => false

theorem witness_DebugInstructions :
    ready.pwr.state.toNat < 3
      ∧ (ready.dbgAllows .control = true ∧ ready.dbgAllows .access = true ∧ ready.dbgAllows .internal = true ∧ ready.dbgAllows .request = true)
      ∧ ((lifeS 2).dbgAllows .control = false ∧ (lifeS 2).dbgAllows .session = true ∧ (lifeS 2).dbgAllows .free = true)
      ∧ isQuiet ready = true ∧ ready.dbg.trstn = true ∧ ready.wrapped = true
      ∧ (let s : State := { ready with dbg := { ready.dbg with trstn := false, wsel := false } }
         s.dbg.trstn = false ∧ s.wrapped = false ∧ isSettled s = true)
      ∧ (ready.cpu.halted = false ∧ ready.canSample = true ∧ ready.cpu.mchkDue = false ∧ ready.repDelays = false)
      ∧ (haltedS.cpu.halted = true ∧ specialReg 0x25 = some (.vec 5))
      ∧ atStart (ready.physTarget (0x40000000#56).toNat) = true ∧ dbgAligned (0x40000000#56).toNat = true ∧ ready.build.s2 = true ∧ ready.spx.marks = []
      ∧ ready.rangeCheck ⟨.core 2 [0#16], .v, 0⟩ 0 8 = none ∧ ready.rangeCheck ⟨.core 2 [0#16], .v, 1⟩ 0 8 = none
      ∧ (∀ w ∈ ready.classes 0 8, w = false)
      ∧ (ready.life.verifying = false ∧ ready.life.lockout = false ∧ (lifeS 2).life.shadow = 2#3 ∧ ready.life.granted = none) := by
  decide +kernel

def asyncS (nmi mchk halt : Bool) (ext : Byte) (en : Word) : State :=
  let s : State := { ready with cpu := { ready.cpu with nmi := nmi, mchkDue := mchk, haltDue := halt, ext := ext, flags := 0x900#64 } }
  s.setReg 0x1108 en

theorem witness_AsynchronousSources :
    ready.clockOn = true ∧ ready.canSample = true
      ∧ ((asyncS true true true 0xFF 0x1FF).cpu.mchkDue = true ∧ (asyncS true true true 0xFF 0x1FF).canSample = true)
      ∧ (let s : State := { asyncS true false true 0xFF 0x1FF with cpu := { (asyncS true false true 0xFF 0x1FF).cpu with repOpen := true } }
         (s.setReg 0x1104 1#32).repDelays = true)
      ∧ ((asyncS false false true 0 0).cpu.haltDue = true ∧ (asyncS false false true 0 0).repDelays = false)
      ∧ ((asyncS true false false 0 0).cpu.nmi = true)
      ∧ (flagIE (asyncS false false false 0x80 0xFF).cpu.flags = true ∧ (asyncS false false false 0x80 0xFF).topExt = some 7
        ∧ (asyncS false false false 1 1).topExt = some 0)
      ∧ (let s := (((asyncS false false false 0 0x100).setReg 0x1010 0xFFFFFFFF#32).setReg 0x1014 0xFFFFFFFF#32).setReg 0x1008 1#32
         s.topExt = none ∧ s.pageIrq = true) := by decide +kernel

/-! Tile instructions at issue. -/

def spec (kcnt opb opa : Nat) : BitVec 16 := BitVec.ofNat 16 (kcnt * 1024 + opb * 32 + opa)
def i32Tile : NameInfo := ⟨.s32x32, .i32, 0, false⟩
def liveView : TileView := { TileView.init with names := TileView.init.names.set 0 (some i32Tile) }
/-- The descriptor of a stream: lanes 128 bytes apart, K-blocks 32, scale bytes 0x4000 behind the elements. -/
def strideWord : DWord := w64 (2 ^ 44 + 4 * 2 ^ 24 + 0x4000)
/-- Tile instructions enabled, tile 0 live, G2 = 1 K-block, G4 and G5 the descriptor of a stream, G6 and G7 that of another. -/
def tileS : State :=
  let s := withG (withG (withG (withG (withG ready 2 1#64) 4 0x40000000#64) 5 strideWord) 6 0x40010000#64) 7 strideWord
  let s : State := { s with tile := { s.tile with issue := liveView, engine := liveView } }
  s.setReg 0x4100 7#32
theorem tileS_open : everIssues tileS := by decide +kernel

def rangesOk (s : State) (sub : SubPort) (rs : List TRange) : Bool :=
  match (s.checkRanges sub rs).2 with
  | .ok _ => true
  | _ => false
theorem free_of {s : State} (h : s.cpu.sb = []) (rs : List (Nat × Nat)) : s.sbStores rs = false := by
  unfold State.sbStores
  rw [h]
  rfl

def tmmaCtl : Word := 0x66880000#32
def segCtl : Word := 0x66080000#32
def aCrate : Crate := ⟨[⟨1#32, 0, 0x40000300#64, 0x40010000#64, strideWord⟩], 0x100, 0, 1⟩
def seggedS : State := { tileS with tile := { tileS.tile with issue := { liveView with crate := some aCrate } } }

theorem witness_TileAndConversionInstructionsQueue :
    let u := tileS.arrived 8
    let d := streamDesc (tileS.seen.readG 4) (tileS.seen.readG 5)
    let db := streamDesc (tileS.seen.readG 6) (tileS.seen.readG 7)
    let me := [tileS.cpu.tid]
    everIssues tileS ∧ tileS.tileFull = false ∧ u.tileOn = true ∧ (spec 2 6 4).msb = false ∧ u.cpu.sb = []
      ∧ (u.tile.issue.name (ctlCd 0#32) = some i32Tile ∧ fld 0#32 5 27 = 0)
      ∧ (fld 0x1000#32 14 18 = 0 ∧ tewOp 0x1000#32 = 4 ∧ tewOp 0#32 ≤ 6 ∧ tewMismatch u.tile.issue 0#32 = false)
      ∧ fld 3#32 2 30 = 0
      ∧ (let c : Word := w32 (9 * 2 ^ 7 + 3 * 2 ^ 11)
         tbeginBad c = false ∧ fld c 11 2 = 3 ∧ rangesOk u .m [⟨0, me, preloadPieces c 0x40000000 128⟩] = true)
      ∧ (pairOdd 4 = false ∧ fld 0x18#32 3 2 + 1 ≤ 4 ∧ (0x40000000#64).toNat % 32 = 0 ∧ rangesOk u .m (d.ranges 0 me 32 1) = true
        ∧ rangesOk u .m (d.ranges 1 me 32 1) = true ∧ (u.checkRanges .m (d.ranges 0 me 32 1)).1.cpu.sb = [])
      ∧ (shapeBad tmmaCtl i32Tile.shape = false ∧ u.tmmaBad ⟨spec 2 6 4, tmmaCtl⟩ = false ∧ tmmaCtl.getLsbD 23 = true
        ∧ tmmaCtl.getLsbD 19 = true ∧ rangesOk u .m (d.ranges 0 me 32 1 ++ db.ranges 0 me 32 1) = true)
      ∧ ((seggedS.arrived 8).tile.issue.crate = some aCrate ∧ u.build.s2 = true ∧ u.tmmaBad ⟨spec 2 6 4, segCtl⟩ = false
        ∧ shapeBad segCtl i32Tile.shape = false ∧ fld segCtl 16 3 = 0 ∧ segCtl.getLsbD 14 = false ∧ fld segCtl 10 2 + 1 ≤ 4
        ∧ (∀ g ∈ aCrate.segs, g.bgn.toNat % 32 = 0)
        ∧ rangesOk (seggedS.arrived 8) .m (aCrate.segs.flatMap fun g => (g.desc 0).ranges 0 (u.tenantTids g.btid) 32 1) = true)
      ∧ (tconvBad ⟨spec 0 0 4, 0#32⟩ = false ∧ fitBad 0#32 i32Tile.shape = false ∧ needsRecord 0#32 = false ∧ (∀ x ∈ convAligned 0#32 d [], x.2.2 = true)
        ∧ rangesOk u .m (u.convRanges 0#32 i32Tile.shape d []) = true) := by decide +kernel

/-- A TCONV that clips: its record at G6. -/
def clipCtl : Word := 0x00200000#32
def recordS (mem : Memory) : State := { tileS with spx := { tileS.spx with mem := mem } }
def recordRead (s : State) : State × List Byte × List Nat :=
  ((s.arrived 8).checkRanges .v [⟨0, [s.cpu.tid], [(0x40010000, 64)]⟩]).1.spxRead 2 [] 0x10000 64

theorem witness_TileAndConversionInstructionsQueue_record :
    tconvBad ⟨spec 0 6 4, clipCtl⟩ = false ∧ needsRecord clipCtl = true ∧ fitBad clipCtl i32Tile.shape = false
      ∧ (let s := recordS []
         let a := (s.arrived 8).checkRanges .v [⟨0, [s.cpu.tid], [(0x40010000, 64)]⟩]
         let r := recordRead s
         a.2 = .ok [some (0x40010000, 0x10000)] ∧ a.1.tileBlocks false 0x10000 64 = [] ∧ a.1.cpu.sb = [] ∧ r.2.2 = []
           ∧ recordBad clipCtl r.2.1 = false
           ∧ (let d := streamDesc (s.seen.readG 4) (s.seen.readG 5)
              (∀ x ∈ convAligned clipCtl d r.2.1, x.2.2 = true) ∧ rangesOk r.1 .m (r.1.convRanges clipCtl i32Tile.shape d r.2.1) = true))
      ∧ recordBad clipCtl (recordRead (recordS [(0x1001B, 1#8)])).2.1 = true := by decide +kernel

theorem witness_TileInstructionsAreGuarded :
    tileS.tileFull = false ∧ everIssues tileS ∧ (spec 32 0 0).msb = true ∧ (0x20#32 &&& 0xFFFFFFE0#32 ≠ 0#32) ∧ (0x4000#32 &&& 0xFFFFC000#32 ≠ 0#32)
      ∧ 6 < tewOp 0x1C00#32 ∧ (4#32 &&& 0xFFFFFFFC#32 ≠ 0#32) ∧ (8#32 &&& 0xFFFFFFF8#32 ≠ 0#32) ∧ (8#32 &&& 0xFFFF00C8#32 ≠ 0#32)
      ∧ (atU tileS).pl < fld 1#32 0 2 ∧ (0x20#32 &&& 0x000003E0#32 ≠ 0#32) ∧ (ready.arrived 2).tileOn = false ∧ (ready.arrived 8).tileOn = false
      ∧ ready.tileFull = false
      ∧ (let u := tileS.arrived 8
         u.tileOn = true ∧ 4 < fld 0x18#32 3 2 + (((withG tileS 2 2#64).arrived 8).tileKb ⟨spec 2 6 4, 0x18#32⟩)
           ∧ u.tile.issue.name (ctlCd 5#32) = none ∧ tconvBad ⟨spec 0 0 4, 5#32⟩ = false
           ∧ u.tile.issue.crate = none ∧ (let c : Word := 0x66000000#32
                                         u.tmmaBad ⟨spec 2 6 4, c⟩ = false ∧ shapeBad c i32Tile.shape = false ∧ c.getLsbD 19 = false)
           ∧ segCtl.getLsbD 23 = false)
      ∧ (let v : TileView := { liveView with names := liveView.names.set 4 (some { i32Tile with fmt := .f32c }) }
         let s : State := { tileS with tile := { tileS.tile with issue := v } }
         tewMismatch (s.arrived 8).tile.issue 0x80#32 = true ∧ tewOp 0x80#32 ≠ 4) := by decide +kernel


/-! The check of an image's range, 166,144 bytes from the scratchpad's start. -/

def imgS : State := tileS.arrived 8
def imgA : SpxAcc := ⟨.core imgS.pl [imgS.cpu.tid], .m, 1⟩

theorem img_on : (imgS.spx.groups[Fin.ofNat 16 0] != .on) = false := by decide +kernel

/-- Every unit of the first group passes the check. -/
theorem img_unit (u : Nat) (h : u < 16384) : imgS.unitCheck imgA u = none := by
  have hc : 524288 ≤ imgS.build.capacity := by decide +kernel
  have hb : imgS.build.groupBytes = 524288 := by decide +kernel
  have hg : 32 * u / 524288 = 0 := by omega
  have hp : imgS.pl = 2 := by decide +kernel
  have hq : imgS.porter = false := by decide +kernel
  unfold State.unitCheck
  simp only [hb, hg, img_on]
  rw [if_neg (by omega), if_pos (by decide +kernel), if_neg (by decide +kernel), if_neg (by decide +kernel), if_neg (by decide +kernel)]
  unfold State.permCheck imgA
  simp [hp, hq]

theorem img_units (n u : Nat) (h : u + n ≤ 16384) : imgS.unitsCheck imgA u n = none := by
  induction n generalizing u with
  | zero => rfl
  | succ n ih => unfold State.unitsCheck; rw [img_unit u (by omega)]; exact ih (u + 1) (by omega)

theorem img_range (off len : Nat) (h : off + len ≤ 524288) : imgS.rangeCheck imgA off len = none := by
  unfold State.rangeCheck
  rw [img_units _ _ (by unfold unitsIn; split <;> omega)]
  rfl

theorem img_piece (va : Nat) (h1 : 0x40000000 ≤ va) (h2 : va < 0x40080000) :
    imgS.translate (w64 va) 1 false = (imgS, .pa va 0 64) ∧ imgS.physTarget va = .spx (va - 0x40000000) [] := by
  have hv : (w64 va).toNat = va := by simp [w64]; omega
  have hq : imgS.porter = false := by decide +kernel
  have hb : imgS.spxBase = 0x40000000 := by decide +kernel
  constructor
  · unfold State.translate
    rw [if_pos (by decide +kernel), if_pos, hv]
    apply BitVec.eq_of_toNat_eq
    simp [w64, Nat.shiftRight_eq_div_pow]
    omega
  · unfold State.physTarget State.inBoot State.spxOffset
    simp [hq, hb]
    have : 1073741824 ≤ va ∧ va < 1082130432 := ⟨h1, by omega⟩
    simp [this]

theorem img_pieces (r : TRange) (hr : r.kind = 1 ∧ r.tids = [imgS.cpu.tid]) (start : Nat) (b : RBase)
    (hb : b = none ∨ b = some (0x40000000, 0)) (ps : List (Nat × Nat)) (h : ∀ p ∈ ps, 0x40000000 ≤ p.1 ∧ p.1 < 0x40080000 ∧ p.1 + p.2 ≤ 0x40080000)
    (h0 : b = none → ∃ n t, ps = (0x40000000, n) :: t) :
    imgS.checkPieces r .m start b ps = (imgS, .ok [some (0x40000000, 0)]) := by
  induction ps generalizing b with
  | nil =>
    rcases hb with rfl | rfl
    · obtain ⟨_, _, h⟩ := h0 rfl
      cases h
    · rfl
  | cons p ps ih =>
    obtain ⟨va, len⟩ := p
    obtain ⟨h1, h2, h3⟩ := h (va, len) (by simp)
    obtain ⟨ht, hp⟩ := img_piece va h1 h2
    have hd : (b.getD (va, va - 0x40000000)) = (0x40000000, 0) ∨ (b.getD (va, va - 0x40000000)) = (va, va - 0x40000000) ∧ va = 0x40000000 := by
      rcases hb with rfl | rfl
      · obtain ⟨_, _, h⟩ := h0 rfl
        cases h
        exact .inl rfl
      · exact .inl rfl
    have hd : b.getD (va, va - 0x40000000) = (0x40000000, 0) := by
      rcases hd with hd | ⟨hd, rfl⟩
      · exact hd
      · rw [hd]
    unfold State.checkPieces
    simp only [hr.1, ht, hp, hd, hr.2]
    rw [if_neg (by omega)]
    have := img_range (va - 0x40000000) len (by omega)
    unfold imgA at this
    rw [this]
    exact ih (some (0x40000000, 0)) (.inr rfl) (fun q hq => h q (by simp [hq])) (by simp)

theorem ranges_one {s : State} {sub : SubPort} {r : TRange} {b : RBase}
    (h : ∀ start, s.checkPieces r sub start none r.pieces = (s, .ok [b])) : s.checkRanges sub [r] = (s, .ok [b]) := by
  unfold State.checkRanges
  simp only [h]
  rfl

theorem img_ranges : imgS.checkRanges .m [⟨1, [imgS.cpu.tid], contiguous 0x40000000 imageBytes⟩] = (imgS, .ok [some (0x40000000, 0)]) :=
  ranges_one fun start => img_pieces _ ⟨rfl, rfl⟩ start none (.inl rfl) _ (by decide +kernel)
    (fun _ => ⟨4096, (contiguous 0x40000000 imageBytes).tail, by decide +kernel⟩)

/-! An image whose control area is in order and whose queue is empty: a magic number, a CRC, zeros. -/

def img0 : State := recordS [(2, 1#8), (3, 1#8), (4, 133#8), (5, 241#8), (6, 219#8), (7, 197#8)]
def imgHead : List Byte := [0#8, 0#8, 1#8, 1#8, 133#8, 241#8, 219#8, 197#8]
def imgBytes : List Byte := imgHead ++ List.replicate 1272 0#8
def imgCheck : State × TOut := (img0.arrived 8).checkRanges .m [⟨0, [img0.cpu.tid], contiguous 0x40000000 1280⟩]
def imgRead : State × List Byte × List Nat := imgCheck.1.spxRead 1 [] 0 1280
theorem img0_reads : imgRead.2.1 = imgBytes := by decide +kernel

/-- The CRC register after 4 bytes, and after each further 29 zero bytes. -/
def crcs : Vector DWord 45 :=
  #v[0x5651AF4C#64, 0x09BD8182#64, 0x29796521#64, 0xC5C211B9#64, 0xDF268469#64, 0xC335C59A#64, 0xD3AB72AC#64, 0xFBC080BB#64, 0xF22BA5B0#64,
    0x85B79424#64, 0xFC209B14#64, 0xC0DE83CE#64, 0x603722DA#64, 0x50CADE60#64, 0xC2AA986C#64, 0x508E37F1#64, 0x09622867#64, 0xACF45A91#64,
    0x66729B8F#64, 0x9263B9BB#64, 0x64418663#64, 0x83FE2D63#64, 0x18B21DE8#64, 0xE82C3B05#64, 0xB8376F5D#64, 0x9F4C17AE#64, 0x9D8B38A6#64,
    0xCB755030#64, 0xF20CFF5E#64, 0xDE5DDD2A#64, 0xAEAE8D8E#64, 0x3FD92065#64, 0x447B9E89#64, 0xD03A6A08#64, 0xA76F85FC#64, 0x65D72709#64,
    0x7F524FB0#64, 0xE87331A3#64, 0x5B941068#64, 0x81A782EC#64, 0xA250FA34#64, 0x29594093#64, 0x6FA41B40#64, 0x865D6060#64, 0x3A240E7A#64]
def crcK : CrcParam := crcParam 1 ⟨32, 0#32, true⟩
theorem crcs_step : ∀ n : Fin 44, (List.replicate 29 0#8).foldl (crcByte crcK) crcs[n.val] = crcs[n.val + 1] := by decide +kernel
theorem crcs_all (n : Nat) (h : n < 45) : (List.replicate (29 * n) 0#8).foldl (crcByte crcK) crcs[0] = crcs[n] := by
  induction n with
  | zero => rfl
  | succ n ih =>
    rw [Nat.mul_succ, List.replicate_add, List.foldl_append, ih (by omega)]
    exact crcs_step ⟨n, by omega⟩

theorem img_crc : crc32c ([0#8, 0#8, 1#8, 1#8] ++ List.replicate 1276 0#8) = 0xC5DBF185#32 := by
  have h := crcs_all 44 (by decide)
  have h0 : [0#8, 0#8, 1#8, 1#8].foldl (crcByte crcK) (0xFFFFFFFF#64 &&& BitVec.ofNat 64 (2 ^ crcK.w - 1)) = crcs[0] := by decide +kernel
  unfold crc32c crcStep
  rw [List.foldl_append]
  unfold crcK at h h0
  rw [h0, h]
  decide +kernel

theorem img_control : controlOk (imgBytes.take 256) (imgBytes.drop 256) = true := by
  have hl : (imgBytes.take 256).take 4 ++ leBytes 0 4 ++ (imgBytes.take 256).drop 8 ++ imgBytes.drop 256 = [0#8, 0#8, 1#8, 1#8] ++ List.replicate 1276 0#8 := by
    decide +kernel
  unfold controlOk
  rw [hl, img_crc]
  decide +kernel

theorem img_rereads (w : State) :
    w.rereads ((w.atLevel 0).setFlags w.cpu.flags) 0 (imgBytes.take 256) (imgBytes.drop 256) (imageView (imgBytes.take 256)) [] := by
  have h0 : recNum (imgBytes.take 256) 0x38 4 / 2 ^ 20 % 64 = 0 := by decide +kernel
  have hc : (imageView (imgBytes.take 256)).crate = none := by decide +kernel
  unfold State.rereads
  rw [h0, hc]
  exact ⟨rfl, w.atLevel 0, w.atLevel 0, ⟨rfl, rfl⟩, rfl, rfl, by simp⟩

theorem witness_ImagesJoinTheQueue :
    (everIssues tileS ∧ tileS.tileFull = false ∧ (tileS.arrived 8).tileOn = true ∧ (spec 0 0 4).msb = false)
      ∧ ((tileS.arrived 8).saving = false ∧ fld 4#32 3 29 = 0 ∧ (4#32).getLsbD 2 = true ∧ (0#32).getLsbD 2 = false
        ∧ (tileS.seen.readG 4).toNat % 256 = 0)
      ∧ imgS.checkRanges .m [⟨1, [imgS.cpu.tid], contiguous 0x40000000 imageBytes⟩] = (imgS, .ok [some (0x40000000, 0)])
      ∧ (everIssues img0 ∧ img0.tileQuiet = true ∧ fld 0#32 0 2 ≤ (img0.arrived 8).pl ∧ imgCheck.2 = .ok [some (0x40000000, 0)] ∧ imgCheck.1.cpu.sb = [])
      ∧ (controlOk (imgRead.2.1.take 256) (imgRead.2.1.drop 256) = true ∧ imageAreas (imgRead.2.1.take 256) = []
        ∧ imgRead.1.rereads ((imgRead.1.atLevel 0).setFlags imgRead.1.cpu.flags) 0 (imgRead.2.1.take 256) (imgRead.2.1.drop 256)
          (imageView (imgRead.2.1.take 256)) [])
      ∧ controlOk (((((recordS []).arrived 8).spxRead 1 [] 0 1280).2.1).take 256) (((((recordS []).arrived 8).spxRead 1 [] 0 1280).2.1).drop 256) = false := by
  rw [img0_reads]
  exact ⟨by decide +kernel, by decide +kernel, img_ranges, by decide +kernel, ⟨img_control, by decide +kernel, img_rereads _⟩, by decide +kernel⟩

/-! Crates, TSYNC. -/

/-- A header at 0x100 (32 slots from 0x200, HEAD 0), one valid slot (A data at 0x1000, scales at 0x2000, B record at 0x300), the B record. -/
def crateMem : Memory :=
  [(0x101, 0x02#8), (0x103, 0x40#8), (0x108, 0x20#8), (0x201, 0x10#8), (0x203, 0x40#8), (0x209, 0x20#8), (0x20B, 0x40#8), (0x211, 0x03#8),
    (0x213, 0x40#8), (0x21C, 0x01#8), (0x302, 0x01#8), (0x303, 0x40#8)]
/-- Counter 0 holds one row, and the deadline has passed; G4 names the header, G5 the place for the result. -/
def crateS : State :=
  let s := withG (withG (recordS crateMem) 4 0x40000100#64) 5 1#64
  let s : State := { s with sync := s.sync.set 0 1#32, bell := { s.bell with c := 5 } }
  s.setReg 0x5110 1#32
def hdr : CrateHdr := ⟨0x40000100, 0x100, 0x40000200, 32, 0⟩
def hdrCheck (take : Bool) : State × TOut :=
  (crateS.arrived 8).checkRanges .v (⟨0, [0], [(0x40000100, 32)]⟩ :: if take then [⟨1, [0], [(0x4000010C, 4)]⟩] else [])
def hdrRead (take : Bool) : State × List Byte × List Nat := (hdrCheck take).1.spxRead 2 [] 0x100 32
def crateArgs : TileArgs := ⟨spec 2 5 4, 0⟩
def crateWait (count : Option Nat) : TakeWait := ⟨crateArgs, hdr, [], 1, count⟩
/-- The state in which the rows are scanned: the header read, and by a TAKE the counter too. -/
def crateW (take : Bool) : State :=
  let w := (hdrRead take).1
  if take then { w with cpu := { w.cpu with wait := .take (crateWait (some 1)) } } else w
def scan (take : Bool) : State × ScanOut := (crateW take).scanRows hdr take 0 0 1 0 ⟨[], [], if take then 2 else 0, []⟩ 1
def row0 : CrateRow := ⟨0x40000200, 0x200, 0x1000, 0x2000⟩
def seg0 : Segment := ⟨1#32, 0, 0x40000300#64, 0, 0⟩
def aScan (take : Bool) : CrateScan := ⟨[row0], [{ seg0 with bgn := 0x40010000#64 }], if take then 2 else 0, []⟩

theorem crate_header (take : Bool) :
    (0x40000100#64).toNat % 32 = 0 ∧ (hdrCheck take).2 = .ok (some (0x40000100, 0x100) :: if take then [some (0x4000010C, 0x10C)] else [])
      ∧ (hdrCheck take).1.cpu.sb = [] ∧ (hdrCheck take).1.tileBlocks false 0x100 32 = []
      ∧ (hdrRead take).2.2 = [] ∧ recNum (hdrRead take).2.1 0x10 16 = 0
      ∧ hdr = ⟨(0x40000100#64).toNat, hdr.off, recNum (hdrRead take).2.1 0 8, recNum (hdrRead take).2.1 8 4, recNum (hdrRead take).2.1 0xC 4⟩
      ∧ sizeOk hdr.size = true ∧ hdr.head < hdr.size := by cases take <;> decide +kernel

theorem crate_has_header (take : Bool) : (crateS.arrived 8).hasHeader (hdrRead take).1 0x40000100#64 0 take hdr := by
  obtain ⟨h1, h2, h3, h4, h5, h6, h7, h8, h9⟩ := crate_header take
  exact ⟨h1, ⟨_, h2⟩, free_of h3 _, h4, rfl, h5, h6, h7, h8, h9⟩

theorem crate_scan (take : Bool) :
    (scan take).2 = .done ⟨[row0], [seg0], if take then 2 else 0, []⟩
      ∧ ((scan take).1.readBrecs [seg0]).2 = .done ⟨[], [{ seg0 with bgn := 0x40010000#64 }], 0, []⟩ := by
  cases take <;> decide +kernel

theorem hasCrate_of {s : State} {h : CrateHdr} {take : Bool} {first kstart kb n reason : Nat} {x y : CrateScan}
    (h1 : (s.scanRows h take first kstart kb 0 ⟨[], [], reason, []⟩ n).2 = .done x)
    (h2 : ((s.scanRows h take first kstart kb 0 ⟨[], [], reason, []⟩ n).1.readBrecs x.segs).2 = .done y) :
    s.hasCrate ((s.scanRows h take first kstart kb 0 ⟨[], [], reason, []⟩ n).1.readBrecs x.segs).1 h take first kstart kb n reason
      { x with segs := y.segs, bad := x.bad ++ y.bad } := ⟨x, y, h1, Prod.ext rfl h2, rfl⟩

theorem crate_has_crate (take : Bool) :
    (crateW take).hasCrate ((scan take).1.readBrecs [seg0]).1 hdr take 0 0 1 1 (if take then 2 else 0) (aScan take) :=
  hasCrate_of (crate_scan take).1 (crate_scan take).2

/-- A TAKE that waits, its counter read or not. -/
def waitS (count : Option Nat) : State := { crateS with cpu := { crateS.cpu with wait := .take (crateWait count) } }
def scanFrom (s : State) : State × ScanOut := s.scanRows hdr true 0 0 1 0 ⟨[], [], 2, []⟩ 1
theorem wait_scan :
    (scanFrom (waitS (some 1))).2 = .done ⟨[row0], [seg0], 2, []⟩
      ∧ ((scanFrom (waitS (some 1))).1.readBrecs [seg0]).2 = .done ⟨[], [{ seg0 with bgn := 0x40010000#64 }], 0, []⟩ := by decide +kernel
theorem from_has_crate (s : State) (h1 : (scanFrom s).2 = .done ⟨[row0], [seg0], 2, []⟩)
    (h2 : ((scanFrom s).1.readBrecs [seg0]).2 = .done ⟨[], [{ seg0 with bgn := 0x40010000#64 }], 0, []⟩) :
    s.hasCrate ((scanFrom s).1.readBrecs [seg0]).1 hdr true 0 0 1 1 2 (aScan true) := hasCrate_of h1 h2

theorem witness_CratesAndTsync_crates :
    (everIssues crateS ∧ crateS.tileFull = false ∧ (crateS.arrived 8).tileOn = true ∧ (spec 2 5 4).msb = false ∧ tcrateBad 0#32 = false
        ∧ tcrateBad 0x8000#32 = false ∧ fld 0#32 4 2 + (crateS.seen.readG 2).toNat % 65536 ≤ 4 ∧ crateS.cpu.tid = 0)
      ∧ ((crateS.arrived 8).hasHeader (hdrRead true).1 (crateS.seen.readG 4) 0 true hdr
        ∧ (crateS.arrived 8).hasHeader (hdrRead false).1 (crateS.seen.readG 4) 0 false hdr)
      ∧ ((hdrRead true).1.takeReady 0#32 = true ∧ (crateS.setReg 0x5110 0#32).takeReady 0#32 = false ∧ (0x8000#32).getLsbD 15 = true
        ∧ min 32 ((crateS.seen.sync[(0 : Fin 64)]).toNat) = 1 ∧ (crateS.seen.readG 5).toNat % 64 = 1)
      ∧ (crateW true).hasCrate ((scan true).1.readBrecs [seg0]).1 hdr true 0 0 1 1 2 (aScan true)
      ∧ (hdrRead false).1.hasCrate ((scan false).1.readBrecs [seg0]).1 hdr false 0 0 1 1 0 (aScan false)
      ∧ (((scan true).1.readBrecs [seg0]).1.cpu.sb = [] ∧ ((scan false).1.readBrecs [seg0]).1.cpu.sb = [])
      ∧ ((waitS (some 1)).coreRuns = true ∧ (waitS (some 1)).xlat.walk = none ∧ (waitS none).takeReady 0#32 = true
        ∧ ((waitS none).setReg 0x5110 0#32).takeReady 0#32 = false
        ∧ ¬(((waitS none).setReg 0x5110 0#32).bell.c < fld (((waitS none).setReg 0x5110 0#32).reg 0x5110) 0 24))
      ∧ (waitS (some 1)).hasCrate ((scanFrom (waitS (some 1))).1.readBrecs [seg0]).1 hdr true 0 0 1 1 2 (aScan true) ∧ ((scanFrom (waitS (some 1))).1.readBrecs [seg0]).1.cpu.sb = [] := by
  have h : crateS.seen.readG 4 = 0x40000100#64 := by decide +kernel
  rw [h]
  exact ⟨by decide +kernel, ⟨crate_has_header true, crate_has_header false⟩, by decide +kernel, crate_has_crate true, crate_has_crate false,
    by decide +kernel, by decide +kernel, from_has_crate _ wait_scan.1 wait_scan.2, by decide +kernel⟩

theorem witness_CratesAndTsync_tsync :
    (everIssues tileS ∧ (tileS.arrived 2).tileOn = true ∧ (tileS.arrived 2).tileQuiet = true ∧ (tileS.arrived 2).trapMine = false)
      ∧ (let s : State := { tileS with cpu := { tileS.cpu with wait := .tsync } }; s.tileQuiet = true ∧ s.trapMine = false)
      ∧ (let s := tileS.setReg 0x4148 0x82000000#32; (s.arrived 2).trapMine = true)
      ∧ (let s : State := { tileS with tile := { tileS.tile with queue := [tileS.newEntry .tmask 0] } }; (s.arrived 2).tileQuiet = false) := by
  decide +kernel

/-! The tile engine. -/

def queued (e : TileEntry) (busy : Bool) : State := { tileS with tile := { tileS.tile with queue := [e], busy := busy } }
def tmmaE : TileEntry := { tileS.newEntry .tmma tmmaCtl with kb := 1, a := ⟨0, 0x4000, 128, 32⟩, b := ⟨0x10000, 0x14000, 128, 32⟩ }

theorem spx_clean {s : State} {e : TileEntry} (h1 : s.build.s2 = true) (h2 : s.spx.marks = []) (h3 : e.wins = [])
    (h4 : ∀ g : Fin 16, s.spx.groups[g] ≠ .off ∧ s.spx.groups[g] ≠ .opening) : s.spxClean e :=
  ⟨h1, fun k => ⟨clean_of h2 k, by rw [h3]; rfl, powered_of h4 k⟩⟩

theorem witness_BlockEndAddsItsGroup :
    (let s := (queued tmmaE true).setReg 0xC100 0#32
     s.tile.queue = tmmaE :: [] ∧ s.tile.busy = true ∧ tmmaE.op = .tmma ∧ tmmaE.allAdded = false ∧ s.act ≠ 0
       ∧ (s.tile.draining && s.tile.stopped) = false ∧ s.tile.engine.name (ctlCd tmmaE.ctl) = some i32Tile)
      ∧ ((queued tmmaE true).setReg 0xC100 0#32).spxClean tmmaE :=
  ⟨by decide +kernel, spx_clean rfl rfl (by decide +kernel) (by decide +kernel)⟩

def ended (op : TileOp) (c : Word) : TileEntry := { tileS.newEntry op c with kb := 1, a := ⟨0, 0x4000, 128, 32⟩ }
theorem ended_clean (op : TileOp) (h : (tileS.newEntry op 0).wins = []) : (queued (ended op 0) true).spxClean (ended op 0) :=
  spx_clean rfl rfl h (show ∀ g : Fin 16, tileS.spx.groups[g] ≠ .off ∧ tileS.spx.groups[g] ≠ .opening by decide +kernel)
theorem queued_settled (e : TileEntry) (busy : Bool) : (queued e busy).settled := settled_of (by rfl)

theorem witness_TileInstructionsStartAndComplete :
    (∀ op ∈ [TileOp.tbegin, .tclose, .tconv, .tload, .tstore, .tew, .tmask, .tcrate],
        let e := ended op 0
        let s := queued e true
        s.tile.queue = e :: [] ∧ (queued e false).tile.busy = false ∧ (queued e false).tile.draining = false ∧ s.tile.busy = true
          ∧ e.op ≠ .tsave ∧ e.allAdded = true ∧ s.tile.heldTuse = [] ∧ s.tile.late = [])
      ∧ (∀ op, (queued (ended op 0) true).settled)
      ∧ tileS.tile.queue = []
      ∧ { ended .tmma 0 with kdone := 1 }.allAdded = true
      ∧ (queued (ended .tload 0) true).spxClean (ended .tload 0) ∧ fld 0#32 3 2 + (ended .tload 0).kb ≤ 4
      ∧ (fld 0#32 11 2 = 0 ∧ tewOp 0x1000#32 = 4 ∧ (queued (ended .tew 0x1000#32) true).tile.engine.name (ctlCd 0x1000#32) = some i32Tile)
      ∧ ((queued (ended .tstore 0) true).tile.poisonOp.getLsbD 0 = false ∧ (queued (ended .tstore 0) true).spxClean (ended .tstore 0)
        ∧ (ended .tstore 0).kb = 1
        ∧ (∀ m : Fin 32, m.val ≠ 0 → 0 + 0 * 128 + 32 ≤ 0 + m.val * 128) ∧ ∀ m : Fin 32, 0 + 0 * 128 + 32 ≤ 0x4000 + m.val * 128 / 32) :=
  ⟨by decide +kernel, fun _ => queued_settled _ _, rfl, by decide, ended_clean _ (by decide +kernel), by decide, ⟨by decide, by decide, by decide +kernel⟩,
    by decide +kernel, ended_clean _ (by decide +kernel), rfl, by decide, by decide⟩

def tsaveE : TileEntry := tileS.newEntry .tsave 4
def savingS (busy : Bool) (q : List TileEntry) : State :=
  { tileS with tile := { tileS.tile with queue := q, busy := busy, draining := true } }
def restoreE : TileEntry := { tileS.newEntry .trestore 0 with rows := [(0, 0x8000), (8, 0xA000)] }
def restored : Restored := ⟨liveView, List.replicate 256 0#8, [tmmaE]⟩
def restoring : State := { tileS with tile := { tileS.tile with queue := [restoreE], busy := true, restored := some restored } }

theorem witness_SavesDrainAndComplete :
    (let s := savingS true [tmmaE, tsaveE, ended .tmask 0]
     s.tile.queue = [tmmaE] ++ tsaveE :: [ended .tmask 0] ∧ (∀ x ∈ [tmmaE], x.op ≠ .tsave) ∧ s.tile.late = [] ∧ s.tile.heldTuse = []
       ∧ tsaveE.op = .tsave ∧ s.tile.draining = true ∧ (∀ h, [tmmaE].head? = some h → h.op = .tmma ∨ h.op = .tmmaSeg))
      ∧ (let s := queued tsaveE true
         s.tile.busy = true ∧ s.tile.queue = tsaveE :: [] ∧ s.settled ∧ tsaveE.invalid = false ∧ s.tile.late = [] ∧ s.tile.heldTuse = [])
      ∧ (restoreE.op = .trestore ∧ restoring.tile.restored = some restored ∧ restoring.tile.busy = true ∧ restoring.tile.queue = restoreE :: []
        ∧ restoring.spxClean restoreE ∧ restoring.settled ∧ restoring.tile.late = [] ∧ restoring.tile.heldTuse = [] ∧ (∀ r ∈ restoreE.rows, r.1 < 40) ∧ (restoreE.rows.map Prod.fst).Nodup) :=
  ⟨⟨rfl, by decide, rfl, rfl, rfl, rfl, fun h hh => by cases hh; exact .inl rfl⟩, ⟨rfl, rfl, settled_of rfl, by decide +kernel, rfl, rfl⟩,
    rfl, rfl, rfl, rfl, spx_clean rfl rfl (by decide +kernel) (by decide +kernel), settled_of rfl, rfl, rfl, by decide, by decide⟩

end Sys2Proof.Tests
end

section
/-! PROOF. The values after the whole reset (O4): what a register reads while the map does not list it, and what the pipeline and the
tile engine hold at their initial values. -/

namespace Sys2Proof.Machine

/-- A register that no write has listed reads its reset value (R46, R47). -/
theorem State.reg_eq_regInit {s : State} {k : Nat} (h : s.regs.get? k = none) : s.reg k = regInit k := by
  rw [State.reg, h, Option.getD_none]

/-- After the whole reset the register map lists nothing. -/
theorem State.reset_reg (k : Nat) : State.reset.reg k = regInit k := State.reg_eq_regInit rfl

/-- Level M, DET and the user-access window off (R262), whatever the release address and the F registers are. -/
@[simp] theorem Cpu.init_flags (ip : DWord) (f : Vector DWord 32) : (Cpu.init ip f).flags = 0x800#64 := rfl
@[simp] theorem Cpu.init_g (ip : DWord) (f : Vector DWord 32) : (Cpu.init ip f).g = Vector.replicate 32 0#64 := rfl
@[simp] theorem Cpu.init_f (ip : DWord) (f : Vector DWord 32) : (Cpu.init ip f).f = f := rfl

@[simp] theorem Tile.init_queue (ops pool : Memory) : (Tile.init ops pool).queue = [] := rfl
@[simp] theorem Tile.init_maskr (ops pool : Memory) : (Tile.init ops pool).maskr = 0xFFFFFFFF#32 := rfl
@[simp] theorem Tile.init_maskc (ops pool : Memory) : (Tile.init ops pool).maskc = 0xFFFFFFFFFFFFFFFF#64 := rfl

/-- The bell unit starts with its tick not known to match the system (R207). -/
@[simp] theorem Bell.init_unsync : Bell.init.unsync = true := rfl
@[simp] theorem Bell.init_tick : Bell.init.tick = 0 := rfl

/-- Settles O4: the register map by `State.reset_reg`, each unit by what its initial value holds. -/
theorem resetLeavesTheseValues : Obligations.ResetLeavesTheseValues := by
  unfold Obligations.ResetLeavesTheseValues
  exact ⟨State.reset_reg, Cpu.init_flags _ _, Bell.init_unsync, Bell.init_tick, rfl, Tile.init_queue _ _, rfl, rfl,
    Tile.init_maskr _ _, Tile.init_maskc _ _, Cpu.init_g _ _, Cpu.init_f _ _⟩

end Sys2Proof.Machine
end

section
/-! PROOF. Register pages (O40): what a write by the access codes changes, how a write of an accessor is served, the common layout of a
page, pairs and plain registers. -/

namespace Sys2Proof.Machine

/-! ## A register map that differs at some keys -/

theorem KeepsRegs.refl (s : State) (ks : List Nat) : KeepsRegs s s ks := fun _ _ => rfl

theorem KeepsRegs.trans {s t u : State} {ks : List Nat} (h : KeepsRegs s t ks) (h' : KeepsRegs t u ks) : KeepsRegs s u ks :=
  fun k hk => (h' k hk).trans (h k hk)

theorem KeepsRegs.mono {s t : State} {ks js : List Nat} (h : KeepsRegs s t ks) (hs : ks ⊆ js) : KeepsRegs s t js :=
  fun k hk => h k fun hk' => hk (hs hk')

theorem State.setReg_keepsRegs (s : State) (k : Nat) (v : Word) : KeepsRegs s (s.setReg k v) [k] :=
  fun _ hj => s.setReg_reg_ne k _ v (by simpa using hj)

/-- Nothing but registers of the map has changed, and of them only the keys given. -/
def OnlyRegs (s t : State) (ks : List Nat) : Prop := (∃ m, t = { s with regs := m }) ∧ KeepsRegs s t ks

theorem OnlyRegs.refl (s : State) (ks : List Nat) : OnlyRegs s s ks := ⟨⟨s.regs, rfl⟩, KeepsRegs.refl s ks⟩

theorem OnlyRegs.trans {s t u : State} {ks : List Nat} (h : OnlyRegs s t ks) (h' : OnlyRegs t u ks) : OnlyRegs s u ks := by
  obtain ⟨⟨m, rfl⟩, hk⟩ := h
  obtain ⟨⟨n, rfl⟩, hk'⟩ := h'
  exact ⟨⟨n, rfl⟩, hk.trans hk'⟩

theorem State.setReg_onlyRegs (s : State) {k : Nat} (v : Word) {ks : List Nat} (h : k ∈ ks) : OnlyRegs s (s.setReg k v) ks :=
  ⟨⟨_, rfl⟩, (s.setReg_keepsRegs k v).mono (by simpa using h)⟩

/-! ## Events and error capture (R49 to R51) -/

@[simp] theorem State.orReg_reg (s : State) (k j : Nat) (m : Word) :
    (s.orReg k m).reg j = if j = k then s.reg k ||| m else s.reg j := by simp [State.orReg]

@[simp] theorem State.raise_reg (s : State) (p b j : Nat) :
    (s.raise p b).reg j = if j = p + 0x10 then s.reg (p + 0x10) ||| w32 (2 ^ b) else s.reg j := by simp [State.raise]

/-- The keys that an event of a page whose keys begin at `p` can change: EVT_RAW and the capture registers. -/
def eventKeys (p : Nat) : List Nat := [p + 0x10, p + 0x20, p + 0x24, p + 0x28, p + 0x2C, p + 0x30]

theorem State.raise_onlyRegs (s : State) (p b : Nat) : OnlyRegs s (s.raise p b) (eventKeys p) :=
  s.setReg_onlyRegs _ (by simp [eventKeys])

theorem State.orErrInfo_onlyRegs (s : State) (p : Nat) (m : Word) : OnlyRegs s (s.orReg (p + 0x20) m) (eventKeys p) :=
  s.setReg_onlyRegs _ (by simp [eventKeys])

theorem State.setReg64_onlyRegs (s : State) {k : Nat} (v : DWord) {ks : List Nat} (h : k ∈ ks) (h' : k + 4 ∈ ks) :
    OnlyRegs s (s.setReg64 k v) ks :=
  (s.setReg_onlyRegs _ h).trans (State.setReg_onlyRegs _ _ h')

theorem State.capture_onlyRegs (s : State) (p : Nat) (e : ErrEvt) : OnlyRegs s (s.capture p e) (eventKeys p) := by
  unfold State.capture
  dsimp only
  split
  · exact s.orErrInfo_onlyRegs p _
  · exact ((s.setReg_onlyRegs _ (by simp [eventKeys])).trans (State.setReg64_onlyRegs _ _ (by simp [eventKeys]) (by simp [eventKeys]))).trans
      (State.setReg64_onlyRegs _ _ (by simp [eventKeys]) (by simp [eventKeys]))

/-- ERR_INFO after a capture: with FREEZE and VALID set only OVFL is added, else the event is written (R51). -/
theorem State.capture_errInfo (s : State) (p : Nat) (e : ErrEvt) :
    (s.capture p e).reg (p + 0x20)
      = if (s.reg (p + 0x20)).msb && (s.reg (p + 0x8)).getLsbD 1 then s.reg (p + 0x20) ||| 0x40000000#32
        else 0x80000000#32 ||| (if (s.reg (p + 0x20)).msb then 0x40000000#32 else 0#32) ||| w32 (e.bit * 2 ^ 16) ||| w32 (e.code % 2 ^ 16) := by
  unfold State.capture
  simp only [BitVec.msb_eq_getLsbD_last]
  split <;> simp [State.setReg64]

theorem State.capture_valid (s : State) (p : Nat) (e : ErrEvt) : ((s.capture p e).reg (p + 0x20)).msb = true := by
  rw [State.capture_errInfo]
  split
  · rename_i h
    simp [(Bool.and_eq_true _ _ ▸ h).1]
  · simp [show (0x80000000#32).msb = true from rfl]

theorem fld_or (x y : Word) (n : Nat) : fld (x ||| y) 0 n = fld x 0 n ||| fld y 0 n := by
  simp [fld, Nat.or_mod_two_pow]

/-- Where nothing was captured, ERR_INFO takes the event's CODE. -/
theorem State.capture_code (s : State) (p : Nat) (e : ErrEvt) (h : (s.reg (p + 0x20)).msb = false) :
    fld ((s.capture p e).reg (p + 0x20)) 0 16 = e.code % 2 ^ 16 := by
  have bitPart : fld (w32 (e.bit * 2 ^ 16)) 0 16 = 0 := by simp [fld, w32]
  have codePart : fld (w32 (e.code % 2 ^ 16)) 0 16 = e.code % 2 ^ 16 := by simp [fld, w32]
  rw [State.capture_errInfo, h]
  simp only [Bool.false_and, Bool.false_eq_true, if_false, fld_or, bitPart, codePart]
  simp [fld]

theorem State.capture_evtRaw (s : State) (p : Nat) (e : ErrEvt) : (s.capture p e).reg (p + 0x10) = s.reg (p + 0x10) := by
  unfold State.capture
  dsimp only
  split <;> simp [State.setReg64]

theorem lowestEvt_mem {es : List ErrEvt} {e : ErrEvt} (h : lowestEvt es = some e) : e ∈ es := by
  induction es generalizing e with
  | nil => simp [lowestEvt] at h
  | cons x xs ih =>
    rw [lowestEvt] at h
    split at h
    · simp_all
    · rename_i y hy
      have hy := ih hy
      split at h <;> simp_all

theorem lowestEvt_isSome {es : List ErrEvt} (h : es ≠ []) : ∃ e, lowestEvt es = some e := by
  cases es with
  | nil => exact absurd rfl h
  | cons x xs =>
    rw [lowestEvt]
    split
    · exact ⟨x, rfl⟩
    · split <;> exact ⟨_, rfl⟩

/-- The bits that the events of `es` set in EVT_RAW, on top of `w`. -/
def raisedBits (w : Word) (es : List ErrEvt) : Word := es.foldl (fun w e => w ||| w32 (2 ^ e.bit)) w

theorem State.foldl_raise_evtRaw (es : List ErrEvt) (s : State) (p : Nat) :
    (es.foldl (fun s e => s.raise p e.bit) s).reg (p + 0x10) = raisedBits (s.reg (p + 0x10)) es := by
  induction es generalizing s with
  | nil => rfl
  | cons e es ih => simp [ih, raisedBits]

theorem State.foldl_raise_errInfo (es : List ErrEvt) (s : State) (p : Nat) :
    (es.foldl (fun s e => s.raise p e.bit) s).reg (p + 0x20) = s.reg (p + 0x20) := by
  induction es generalizing s with
  | nil => rfl
  | cons e es ih => simp [ih]

theorem State.foldl_raise_onlyRegs (es : List ErrEvt) (s : State) (p : Nat) :
    OnlyRegs s (es.foldl (fun s e => s.raise p e.bit) s) (eventKeys p) := by
  induction es generalizing s with
  | nil => exact OnlyRegs.refl s _
  | cons e es ih => exact (s.raise_onlyRegs p e.bit).trans (ih _)

theorem State.raiseErrs_onlyRegs (s : State) (p : Nat) (es : List ErrEvt) : OnlyRegs s (s.raiseErrs p es) (eventKeys p) := by
  have raised := s.foldl_raise_onlyRegs es p
  unfold State.raiseErrs
  dsimp only
  split
  · exact raised
  · rename_i e _
    have captured := raised.trans (State.capture_onlyRegs _ p e)
    split
    · exact captured
    · exact captured.trans (State.orErrInfo_onlyRegs _ p _)

theorem State.raiseErrs_evtRaw (s : State) (p : Nat) (es : List ErrEvt) :
    (s.raiseErrs p es).reg (p + 0x10) = raisedBits (s.reg (p + 0x10)) es := by
  unfold State.raiseErrs
  dsimp only
  split
  · exact State.foldl_raise_evtRaw es s p
  · split <;> simp [State.capture_evtRaw, State.foldl_raise_evtRaw]

/-- Several error events of one cycle: ERR_INFO is that of the lowest one's capture, OVFL added where there are others (R51). -/
theorem State.raiseErrs_errInfo (s : State) (p : Nat) {es : List ErrEvt} (h : es ≠ []) :
    ∃ e ∈ es, ∃ u : State, u.reg (p + 0x20) = s.reg (p + 0x20) ∧ ∃ ovfl ∈ [0#32, 0x40000000#32],
      (s.raiseErrs p es).reg (p + 0x20) = (u.capture p e).reg (p + 0x20) ||| ovfl := by
  obtain ⟨e, he⟩ := lowestEvt_isSome h
  refine ⟨e, lowestEvt_mem he, _, State.foldl_raise_errInfo es s p, ?_⟩
  simp only [State.raiseErrs, he]
  split
  · exact ⟨0#32, by simp, by simp⟩
  · exact ⟨0x40000000#32, by simp, by simp⟩

theorem State.raiseErrs_valid (s : State) (p : Nat) {es : List ErrEvt} (h : es ≠ []) : ((s.raiseErrs p es).reg (p + 0x20)).msb = true := by
  obtain ⟨e, -, u, -, ovfl, -, eq⟩ := s.raiseErrs_errInfo p h
  rw [eq, BitVec.msb_or, u.capture_valid, Bool.true_or]

theorem State.raiseErrs_code (s : State) (p c : Nat) {es : List ErrEvt} (h : es ≠ []) (hc : ∀ e ∈ es, e.code % 2 ^ 16 = c)
    (hv : (s.reg (p + 0x20)).msb = false) : fld ((s.raiseErrs p es).reg (p + 0x20)) 0 16 = c := by
  obtain ⟨e, he, u, hu, ovfl, ho, eq⟩ := s.raiseErrs_errInfo p h
  have noCode : fld ovfl 0 16 = 0 := by
    simp only [List.mem_cons, List.not_mem_nil, or_false] at ho
    rcases ho with rfl | rfl <;> rfl
  rw [eq, fld_or, u.capture_code p e (by rw [hu, hv]), hc e he, noCode, Nat.or_zero]

theorem raisedBits_getLsbD (es : List ErrEvt) (w : Word) (i : Nat) (hi : i < 32) :
    (raisedBits w es).getLsbD i = (w.getLsbD i || es.any fun e => e.bit == i) := by
  induction es generalizing w with
  | nil => simp [raisedBits]
  | cons e es ih =>
    have one : (w32 (2 ^ e.bit)).getLsbD i = (e.bit == i) := by
      rw [w32, BitVec.getLsbD_ofNat, Nat.testBit_two_pow, decide_eq_true hi, Bool.true_and, beq_eq_decide]
    have step : raisedBits w (e :: es) = raisedBits (w ||| w32 (2 ^ e.bit)) es := rfl
    rw [step, ih, BitVec.getLsbD_or, one, List.any_cons, Bool.or_assoc]

/-- The test events that EVT_SET makes of the error events `m` (R49). -/
def testEvts (s : State) (m : Word) : List ErrEvt :=
  ((List.range 32).filter fun b => m.getLsbD b).map fun b => ⟨b, 0xFFFF, s.stamp, Config.testAddr s.fresh⟩

/-- One test event for every bit: together they set those bits. -/
theorem raisedBits_testEvts (s : State) (w m : Word) : raisedBits w (testEvts s m) = w ||| m := by
  refine BitVec.eq_of_getLsbD_eq fun i hi => ?_
  rw [raisedBits_getLsbD _ _ _ hi, BitVec.getLsbD_or, testEvts, List.any_map, List.any_filter, Bool.eq_iff_iff]
  simp [hi]

theorem testEvts_ne_nil (s : State) {m : Word} (h : m ≠ 0#32) : testEvts s m ≠ [] := by
  intro e
  have := raisedBits_testEvts s 0#32 m
  rw [e, BitVec.zero_or] at this
  exact h this.symm

theorem testEvts_code (s : State) (m : Word) : ∀ e ∈ testEvts s m, e.code % 2 ^ 16 = 0xFFFF := by
  intro e he
  obtain ⟨b, -, rfl⟩ := List.mem_map.mp he
  rfl

theorem State.testErrs_eq (s : State) (page : Nat) {m : Word} (h : m ≠ 0#32) :
    s.testErrs page m = ({ s with fresh := s.fresh + 1 } : State).raiseErrs (page * 0x1000) (testEvts s m) := by
  rw [State.testErrs, if_neg h]
  rfl

@[simp] theorem State.testErrs_zero (s : State) (page : Nat) : s.testErrs page 0#32 = s := by simp [State.testErrs]

theorem State.testErrs_evtRaw (s : State) (page : Nat) (m : Word) :
    (s.testErrs page m).reg (page * 0x1000 + 0x10) = s.reg (page * 0x1000 + 0x10) ||| m := by
  by_cases h : m = 0#32
  · simp [h]
  · rw [s.testErrs_eq page h, State.raiseErrs_evtRaw, raisedBits_testEvts]
    rfl

/-- A test of error events changes registers of the page, and the model's own counter. -/
theorem State.testErrs_onlyRegs (s : State) (page : Nat) (m : Word) :
    ∃ n, OnlyRegs { s with fresh := n } (s.testErrs page m) (eventKeys (page * 0x1000)) := by
  by_cases h : m = 0#32
  · subst h
    rw [State.testErrs_zero]
    exact ⟨s.fresh, OnlyRegs.refl s _⟩
  · rw [s.testErrs_eq page h]
    exact ⟨s.fresh + 1, State.raiseErrs_onlyRegs _ _ _⟩

/-- The error events of a page are among its defined events. -/
theorem errMask_and_evtMask : ∀ page : Fin 16, evtMask page.val &&& errMask page.val = errMask page.val := by decide

theorem andNot_or_and (m e : Word) : m &&& ~~~e ||| m &&& e = m := by
  rw [← BitVec.and_or_distrib_left, BitVec.or_comm, BitVec.or_not_self, BitVec.and_allOnes]

/-- EVT_SET (R49). -/
theorem State.writeEvtSet_spec (s : State) (page : Fin 16) (v : Word) :
    let p := page.val * 0x1000
    let t := s.writeEvtSet page.val v
    t.reg (p + 0x10) = s.reg (p + 0x10) ||| (v &&& evtMask page.val)
      ∧ (v &&& errMask page.val ≠ 0#32 → (t.reg (p + 0x20)).msb = true
        ∧ ((s.reg (p + 0x20)).msb = false → fld (t.reg (p + 0x20)) 0 16 = 0xFFFF))
      ∧ KeepsRegs s t (eventKeys p) ∧ { t with regs := s.regs, fresh := s.fresh } = s := by
  intro p t
  let u := s.orReg (p + 0x10) (v &&& evtMask page.val &&& ~~~errMask page.val)
  have ht : t = u.testErrs page.val (v &&& errMask page.val) := by
    change u.testErrs page.val (v &&& evtMask page.val &&& errMask page.val) = _
    rw [BitVec.and_assoc v, errMask_and_evtMask]
  have raw : u.reg (p + 0x10) = s.reg (p + 0x10) ||| (v &&& evtMask page.val &&& ~~~errMask page.val) := by simp [u]
  have info : u.reg (p + 0x20) = s.reg (p + 0x20) := by simp [u]
  refine ⟨?_, fun hm => ?_, ?_⟩
  · change (u.testErrs page.val (v &&& evtMask page.val &&& errMask page.val)).reg (p + 0x10) = _
    rw [u.testErrs_evtRaw, raw, BitVec.or_assoc, andNot_or_and]
  · rw [ht, u.testErrs_eq page.val hm]
    refine ⟨State.raiseErrs_valid _ _ (testEvts_ne_nil u hm), fun hv => ?_⟩
    exact State.raiseErrs_code _ _ _ (testEvts_ne_nil u hm) (testEvts_code u _) (info ▸ hv)
  · obtain ⟨n, ⟨m, hm⟩, keeps⟩ := u.testErrs_onlyRegs page.val (v &&& errMask page.val)
    refine ⟨?_, ?_⟩
    · have raised : KeepsRegs s u (eventKeys p) := (s.setReg_keepsRegs _ _).mono (by simp [eventKeys])
      exact ht ▸ raised.trans keeps
    · rw [ht, hm]
      rfl

/-! ## A write by the access codes (R47) -/

theorem State.legal_of_frame {s t : State} (h : { t with regs := s.regs, staged := s.staged } = s) : t.legal = s.legal := by
  rw [← h]
  rfl

theorem State.plainWrite_frame (s : State) (k : Nat) (v : Word) :
    { s.plainWrite k v with regs := s.regs, staged := s.staged } = s := by
  unfold State.plainWrite
  split
  · rfl
  · dsimp only
    split_ifs <;> rfl

/-- The word that a write of `v` leaves in a register with the access codes `r` (R47). -/
def State.codeWord (s : State) (k : Nat) (r : RegSpec) (v : Word) : Word :=
  let m := r.rw ||| (if s.locked (k / 0x1000) then 0#32 else r.rwl)
  s.legal k (s.reg k) (((s.reg k &&& ~~~m) ||| (v &&& m)) &&& ~~~(v &&& r.w1c))

/-- The word that it leaves in the staged copy. -/
def State.codeStaged (s : State) (k : Nat) (r : RegSpec) (v : Word) : Word :=
  legalStaged k (s.stagedReg k) ((s.stagedReg k &&& ~~~r.rwb) ||| (v &&& r.rwb))

theorem State.setReg_unless_same_reg (s : State) (k j : Nat) (w : Word) :
    (if w = s.reg k then s else s.setReg k w).reg j = if j = k then w else s.reg j := by
  by_cases h : w = s.reg k
  · rw [if_pos h]
    by_cases hj : j = k
    · rw [if_pos hj, hj, h]
    · rw [if_neg hj]
  · rw [if_neg h, State.setReg_reg_if]

/-- A write by the access codes: the register takes its word, EVT_RAW takes LOCKED_WRITE where a lock refuses RWL bits. -/
theorem State.plainWrite_reg {k : Nat} {r : RegSpec} (h : regSpec k = some r) (hk : k ≠ k / 0x1000 * 0x1000 + 0x10) (s : State) (v : Word)
    (j : Nat) :
    (s.plainWrite k v).reg j = if j = k then s.codeWord k r v
      else if j = k / 0x1000 * 0x1000 + 0x10 ∧ r.rwl ≠ 0#32 ∧ s.locked (k / 0x1000) = true then s.reg j ||| 0x80000000#32
      else s.reg j := by
  let new := s.codeWord k r v
  let u : State := if new = s.reg k then s else s.setReg k new
  let w : State := if r.rwb = 0#32 then u else { u with staged := u.staged.set k (s.codeStaged k r v) }
  have hw : ∀ i, w.reg i = if i = k then new else s.reg i := fun i => by
    rw [← s.setReg_unless_same_reg k i new]
    change (if r.rwb = 0#32 then u else { u with staged := u.staged.set k (s.codeStaged k r v) }).reg i = u.reg i
    split <;> rfl
  have eq : s.plainWrite k v = if s.locked (k / 0x1000) && r.rwl != 0#32 then w.raise (k / 0x1000 * 0x1000) 31 else w := by
    unfold State.plainWrite
    rw [h]
    rfl
  have set31 : w32 (2 ^ 31) = 0x80000000#32 := rfl
  rw [eq]
  by_cases hl : s.locked (k / 0x1000) = true ∧ r.rwl ≠ 0#32
  · rw [if_pos (by simpa using hl), State.raise_reg, set31]
    by_cases hj : j = k / 0x1000 * 0x1000 + 0x10
    · subst hj
      rw [if_pos rfl, hw, if_neg hk.symm, if_neg hk.symm, if_pos ⟨rfl, hl.symm⟩]
    · rw [if_neg hj, hw]
      exact if_congr Iff.rfl rfl (if_neg fun c => hj c.1).symm
  · rw [if_neg (by simpa using hl), hw]
    exact if_congr Iff.rfl rfl (if_neg fun c => hl c.2.symm).symm

theorem State.plainWrite_staged {k : Nat} {r : RegSpec} (h : regSpec k = some r) (s : State) (v : Word) :
    (s.plainWrite k v).staged = if r.rwb = 0#32 then s.staged else s.staged.set k (s.codeStaged k r v) := by
  unfold State.plainWrite
  rw [h]
  dsimp only
  split_ifs <;> rfl

theorem State.plainWrite_none {k : Nat} (h : regSpec k = none) (s : State) (v : Word) : s.plainWrite k v = s := by
  unfold State.plainWrite
  rw [h]

theorem State.plainWrite_keepsRegs {k : Nat} (hk : k ≠ k / 0x1000 * 0x1000 + 0x10) (s : State) (v : Word) :
    KeepsRegs s (s.plainWrite k v) [k, k / 0x1000 * 0x1000 + 0x10] := by
  intro j hj
  obtain ⟨hjk, hje⟩ : j ≠ k ∧ j ≠ k / 0x1000 * 0x1000 + 0x10 := by simpa using hj
  cases h : regSpec k with
  | none => rw [State.plainWrite_none h]
  | some r => rw [State.plainWrite_reg h hk, if_neg hjk, if_neg fun c => hje c.1]

theorem State.plainWrite_staged_get?_ne {k j : Nat} (hj : j ≠ k) (s : State) (v : Word) :
    (s.plainWrite k v).staged.get? j = s.staged.get? j := by
  cases h : regSpec k with
  | none => rw [State.plainWrite_none h]
  | some r =>
    rw [State.plainWrite_staged h]
    split
    · rfl
    · rw [WMap.get?_set_ne _ _ _ _ hj]

theorem State.plainWrite_written {k : Nat} (hk : k ≠ k / 0x1000 * 0x1000 + 0x10) (s : State) (v : Word) :
    Written s (s.plainWrite k v) k v := by
  intro r h
  refine ⟨?_, fun hb => ?_⟩
  · rw [State.plainWrite_reg h hk, if_pos rfl]
    rfl
  · rw [State.stagedReg, State.plainWrite_staged h, if_neg hb, WMap.get?_set]
    rfl

/-! ## The offsets of pairs (R55) -/

theorem isPairLow_off {k : Nat} (h : isPairLow k = true) : 0x24 ≤ k % 0x1000 ∧ k % 0x1000 < 0x300 := by
  unfold isPairLow at h
  dsimp only at h
  split at h <;> simp at h <;> omega

theorem isPairLow_eq_false {k : Nat} (h : k % 0x1000 < 0x24 ∨ 0x300 ≤ k % 0x1000) : isPairLow k = false := by
  refine Bool.eq_false_iff.mpr fun hk => ?_
  have := isPairLow_off hk
  omega

/-! ## How a write of an accessor is served -/

/-- Remembering the end of a WFI changes the wait at TR alone. -/
theorem State.latchWfi_eq (s : State) :
    s.latchWfi = s ∨ s.cpu.wait = .wfi ∧ s.latchWfi = { s with cpu := { s.cpu with wait := .none } } := by
  unfold State.latchWfi
  split
  · rename_i h
    exact .inr ⟨eq_of_beq (Bool.and_eq_true _ _ ▸ h).1, rfl⟩
  · exact .inl rfl

@[simp] theorem State.latchWfi_reaches (s : State) (who : Accessor) (page : Nat) : s.latchWfi.reaches who page = s.reaches who page := by
  obtain e | ⟨-, e⟩ := s.latchWfi_eq
  · rw [e]
  · rw [e]
    rfl

@[simp] theorem State.latchWfi_writeWaits (s : State) (who : Accessor) (k : Nat) (v : Word) :
    s.latchWfi.writeWaits who k v = s.writeWaits who k v := by
  obtain e | ⟨-, e⟩ := s.latchWfi_eq
  · rw [e]
  · rw [e]
    rfl

theorem State.accessWrite_of_serves {s : State} {who : Accessor} {k : Nat} {v : Word} (h : s.latchWfi.serves who k v) :
    s.accessWrite who k v = s.writeReg who k v := by
  obtain ⟨hr, hw⟩ := h
  rw [State.latchWfi_reaches] at hr
  rw [State.latchWfi_writeWaits] at hw
  simp [State.accessWrite, hr, hw]

/-- The registers whose writes can have to wait: those of R249 and of R117. -/
def waitKeys : List Nat := [0x1100, 0x2100, 0x3100, 0x3108, 0x310C, 0x6108, 0x4118, 0x411C]

theorem waitKeys_off : ∀ k ∈ waitKeys, 0x100 ≤ k % 0x1000 ∧ k % 0x1000 < 0x200 := by decide

theorem State.serialising_eq_false {k : Nat} (h : k ∉ waitKeys) (s : State) (v : Word) : s.serialising k v = false := by
  unfold State.serialising
  split
  case h_7 => rfl
  all_goals exact absurd (by decide) h

theorem State.writeWaits_eq_false {k : Nat} (h : k ∉ waitKeys) (s : State) (who : Accessor) (v : Word) : s.writeWaits who k v = false := by
  have h1 : k ≠ 0x4118 := fun e => h (e ▸ by decide)
  have h2 : k ≠ 0x411C := fun e => h (e ▸ by decide)
  simp [State.writeWaits, State.serialising_eq_false h, h1, h2]

theorem State.writeReg_word {k : Nat} (h : isPairLow k = false) (h' : isPairLow (k - 4) = false) (s : State) (who : Accessor) (v : Word) :
    s.writeReg who k v = s.latchWfi.wordWrite k v none := by
  simp [State.writeReg, h, h']

theorem State.writeReg_pairLow {k : Nat} (h : isPairLow k = true) (hw : pairWritable k = true) (s : State) (who : Accessor) (v : Word) :
    s.writeReg who k v = s.latchWfi.pairWriteLow who k v := by
  simp [State.writeReg, h, hw]

theorem State.writeReg_pairHigh {k : Nat} (hk : 4 ≤ k) (h : isPairLow k = false) (h' : isPairLow (k - 4) = true)
    (hw : pairWritable (k - 4) = true) (s : State) (who : Accessor) (v : Word) :
    s.writeReg who k v = s.latchWfi.pairWriteHigh who (k - 4) v none := by
  simp [State.writeReg, hk, h, h', hw]

theorem regKey_page (page : Fin 16) (off : BitVec 12) : regKey page off / 0x1000 = page.val := by
  have := off.isLt
  unfold regKey
  omega

theorem regKey_off (page : Fin 16) (off : BitVec 12) : regKey page off % 0x1000 = off.toNat := by
  have := off.isLt
  unfold regKey
  omega

/-! ## The common layout -/

/-- The registers of the common layout whose writes have an effect of their own. -/
def commonOwn : List (BitVec 12) := [0x010#12, 0x01C#12, 0x020#12, 0xF00#12, 0xF04#12]

theorem commonOwn_off {off : BitVec 12} (h : off ∈ commonOwn) : 4 ≤ off.toNat ∧ off.toNat ≤ 0x20 ∨ 0xF00 ≤ off.toNat := by
  simp only [commonOwn, List.mem_cons, List.not_mem_nil, or_false] at h
  rcases h with rfl | rfl | rfl | rfl | rfl <;> decide

theorem State.wordWrite_common (s : State) (page : Fin 16) {off : BitVec 12} (h : off.toNat < 0x100 ∨ 0xF00 ≤ off.toNat) (v : Word)
    (m : Option InMsg) : s.wordWrite (regKey page off) v m = s.commonWrite page.val off.toNat v := by
  simp only [State.wordWrite, regKey_page, regKey_off]
  exact if_pos (by simpa using h)

/-- A write of one of those, where the accessor reaches the page, is served at once. -/
theorem State.accessWrite_common {s : State} {who : Accessor} {page : Fin 16} {off : BitVec 12} (hr : s.latchWfi.reaches who page.val = true)
    (h : off ∈ commonOwn) (v : Word) : s.accessWrite who (regKey page off) v = s.latchWfi.commonWrite page.val off.toNat v := by
  have ho := commonOwn_off h
  have key := regKey_off page off
  have low : isPairLow (regKey page off) = false := isPairLow_eq_false (by omega)
  have high : isPairLow (regKey page off - 4) = false := isPairLow_eq_false (by omega)
  have free : regKey page off ∉ waitKeys := fun hk => by have := waitKeys_off _ hk; omega
  rw [State.accessWrite_of_serves ⟨by rwa [regKey_page], State.writeWaits_eq_false free _ _ _⟩,
    State.writeReg_word low high, State.wordWrite_common _ _ (by omega)]

theorem commonPageRegisters : CommonPageRegisters := by
  intro s₀ who page s hr p
  have served : ∀ off ∈ commonOwn, ∀ v, s₀.accessWrite who (regKey page off) v = s.commonWrite page.val off.toNat v :=
    fun _ h v => State.accessWrite_common hr h v
  refine ⟨?_, ?_, ?_, ?_, fun v => ⟨?_, _, rfl, ?_⟩⟩
  · exact congrArg Host.Outcome.next (served 0xF04 (by decide) 1#32)
  · exact congrArg Host.Outcome.next (served 0xF04 (by decide) 2#32)
  · exact congrArg Host.Outcome.next (served 0xF00 (by decide) 1#32)
  · exact congrArg Host.Outcome.next (served 0x020 (by decide) 0x80000000#32)
  · exact congrArg Host.Outcome.next (served 0x010 (by decide) v)
  · rw [served 0x01C (by decide) v]
    exact s.writeEvtSet_spec page v

/-! ## Pairs: reads, and writes of the low word -/

/-- The low word of a pair and the word after it stand in one page, neither at EVT_RAW. -/
theorem isPairLow_page {k : Nat} (h : isPairLow k = true) :
    (k + 4) / 0x1000 = k / 0x1000 ∧ k ≠ k / 0x1000 * 0x1000 + 0x10 ∧ k + 4 ≠ k / 0x1000 * 0x1000 + 0x10 := by
  have := isPairLow_off h
  omega

theorem isPairLow_notWaitKey {k : Nat} (h : isPairLow k = true) : k ∉ waitKeys := by
  have : ∀ k ∈ waitKeys, isPairLow k = false := by decide
  exact fun hk => by simp [this k hk] at h

/-- Neither PAGE_STATUS of CORE nor PITCH_STAGED, whose reads do something of their own, is a pair's low word. -/
theorem isPairLow_plainRead {k : Nat} (h : isPairLow k = true) : k ≠ pCORE + 0x00C ∧ k ≠ pPITCH + 0x104 :=
  ⟨fun e => by rw [e] at h; exact absurd h (by decide), fun e => by rw [e] at h; exact absurd h (by decide)⟩

theorem State.latchWfi_syncWaiting (s : State) : s.latchWfi.syncWaiting = s.syncWaiting := by
  obtain e | ⟨h, e⟩ := s.latchWfi_eq
  · rw [e]
  · simp [e, State.syncWaiting, h]

theorem State.latchWfi_regNow (s : State) (k : Nat) : s.latchWfi.regNow k = s.regNow k := by
  obtain e | ⟨-, e⟩ := s.latchWfi_eq
  · rw [e]
  · have status : ∀ page, s.latchWfi.blockStat page = s.blockStat page := fun page => by
      unfold State.blockStat
      rw [s.latchWfi_syncWaiting, e]
      rfl
    have common : ∀ page off, s.latchWfi.commonReg page off = s.commonReg page off := fun page off => by
      unfold State.commonReg State.pageStatus
      rw [status, e]
      rfl
    unfold State.regNow
    simp only [common]
    rw [e]
    rfl

/-- A read of a pair's low word answers it and latches the high word. -/
theorem State.accessRead_pairLow {k : Nat} (h : isPairLow k = true) (s : State) (who : Accessor) (hr : s.reaches who (k / 0x1000) = true) :
    s.accessRead who k = { s.setHold who { s.hold who with rd := s.regNow (k + 4), read := k :: (s.hold who).read.filter (· != k) } with
      busRead := (s.regNow k).setWidth 64 } := by
  obtain ⟨h1, h2⟩ := isPairLow_plainRead h
  simp [State.accessRead, State.readReg, hr, h, h1, h2]

@[simp] theorem State.setHold_hold (s : State) (who : Accessor) (h : Hold) : (s.setHold who h).hold who = h := by
  cases who <;> rfl

theorem State.setHold_frame (s : State) (who : Accessor) (h : Hold) :
    { s.setHold who h with localHold := s.localHold, remoteHold := s.remoteHold } = s := by
  cases who <;> rfl

theorem pairLowRead_leaves {s₀ : State} {who : Accessor} {page : Fin 16} {off : BitVec 12}
    (hr : s₀.latchWfi.reaches who page.val = true) (h : isPairLow (regKey page off) = true) :
    let s := s₀.latchWfi
    let k := regKey page off
    Leaves (.pairLowRead who page off) s₀ fun t =>
      t.busRead = (s.regNow k).setWidth 64 ∧ (t.hold who).rd = s.regNow (k + 4)
        ∧ { t with busRead := s.busRead, localHold := s.localHold, remoteHold := s.remoteHold } = s₀ := by
  have served : s₀.reaches who (regKey page off / 0x1000) = true := by rwa [regKey_page, ← s₀.latchWfi_reaches]
  refine ⟨_, congrArg Host.Outcome.next (s₀.accessRead_pairLow h who served), ?_, ?_, ?_⟩
  · rw [s₀.latchWfi_regNow]
  · rw [s₀.latchWfi_regNow]
    cases who <;> rfl
  · obtain e | ⟨-, e⟩ := s₀.latchWfi_eq <;> rw [e] <;> cases who <;> rfl

theorem State.pairWriteLow_spec (s : State) (who : Accessor) (lo : Nat) (v : Word) :
    let t := s.pairWriteLow who lo v
    (t.hold who).wr = v ∧ lo ∈ (t.hold who).written ∧ { t with localHold := s.localHold, remoteHold := s.remoteHold } = s := by
  refine ⟨?_, ?_, s.setHold_frame who _⟩
  · simp [State.pairWriteLow]
  · simp [State.pairWriteLow]

theorem pairLowWrite_leaves {s₀ : State} {who : Accessor} {page : Fin 16} {off : BitVec 12} (v : Word)
    (hr : s₀.latchWfi.reaches who page.val = true) (h : isPairLow (regKey page off) = true) (hw : pairWritable (regKey page off) = true) :
    let s := s₀.latchWfi
    Leaves (.pairLowWrite who page off v) s₀ fun t =>
      (t.hold who).wr = v ∧ regKey page off ∈ (t.hold who).written
        ∧ { t with localHold := s.localHold, remoteHold := s.remoteHold } = s := by
  have served : s₀.latchWfi.serves who (regKey page off) v :=
    ⟨by rwa [regKey_page], State.writeWaits_eq_false (isPairLow_notWaitKey h) _ _ _⟩
  refine ⟨_, congrArg Host.Outcome.next ((State.accessWrite_of_serves served).trans (State.writeReg_pairLow h hw s₀ who v)), ?_⟩
  exact s₀.latchWfi.pairWriteLow_spec who _ v

/-! ## Writes of a pair's high word -/

/-- The write holding registers forget the low word at `lo`. -/
def State.forgetLow (s : State) (lo : Nat) : State :=
  { s with
    localHold := { s.localHold with written := s.localHold.written.filter (· != lo) }
    remoteHold := { s.remoteHold with written := s.remoteHold.written.filter (· != lo) } }

/-- A write of the high word of a pair without an effect of its own writes both words by their access codes. -/
theorem State.pairWriteHigh_plain {lo : Nat} (h : lo ∉ [0x4128, 0x5108, 0x3104]) (s : State) (who : Accessor) (v : Word) :
    s.pairWriteHigh who lo v none
      = ((s.forgetLow lo).plainWrite lo (if lo ∈ (s.hold who).written then (s.hold who).wr else s.pairLow lo)).plainWrite (lo + 4) v := by
  simp only [List.mem_cons, List.not_mem_nil, or_false, not_or] at h
  obtain ⟨h1, h2, h3⟩ := h
  simp [State.pairWriteHigh, State.pairStore, State.forgetLow, h1, h2, h3]

/-- `Written` looks at the state before the write only for the register, its staged copy, its page's lock and what decides its legal values. -/
theorem Written.of_before {s u t : State} {k : Nat} {v : Word} (h : Written u t k v) (hl : u.legal = s.legal) (hr : u.reg k = s.reg k)
    (hs : u.stagedReg k = s.stagedReg k) (hk : u.reg (k / 0x1000 * 0x1000 + 0xF00) = s.reg (k / 0x1000 * 0x1000 + 0xF00)) :
    Written s t k v := by
  intro r hspec
  have := h r hspec
  rwa [hl, hr, hs, hk] at this

/-- `Written` looks at the state after the write only for the register and its staged copy. -/
theorem Written.of_after {s u t : State} {k : Nat} {v : Word} (h : Written s u k v) (hr : t.reg k = u.reg k)
    (hs : t.stagedReg k = u.stagedReg k) : Written s t k v := by
  intro r hspec
  rw [hr, hs]
  exact h r hspec

theorem State.settled_of_frame {s t : State} (hs : s.settled)
    (h : { t with regs := s.regs, staged := s.staged, localHold := s.localHold, remoteHold := s.remoteHold } = s) : t.settled := by
  rw [← h] at hs
  exact hs

/-- Two words of a pair written by their access codes, one after the other, are both written as from the state before. -/
theorem State.plainWrite_pair {lo : Nat} (h : isPairLow lo = true) (s : State) (vl vh : Word) :
    let t := (s.plainWrite lo vl).plainWrite (lo + 4) vh
    Written s t (lo + 4) vh ∧ Written s t lo vl ∧ KeepsRegs s t [lo + 4, lo, lo / 0x1000 * 0x1000 + 0x10]
      ∧ { t with regs := s.regs, staged := s.staged } = s := by
  intro t
  let u := s.plainWrite lo vl
  obtain ⟨page, lowEvt, highEvt⟩ := isPairLow_page h
  have hoff := isPairLow_off h
  have hk : lo + 4 ≠ (lo + 4) / 0x1000 * 0x1000 + 0x10 := by rwa [page]
  have frame : { u with regs := s.regs, staged := s.staged } = s := s.plainWrite_frame lo vl
  have first : KeepsRegs s u [lo, lo / 0x1000 * 0x1000 + 0x10] := State.plainWrite_keepsRegs lowEvt s vl
  have second : KeepsRegs u t [lo + 4, lo / 0x1000 * 0x1000 + 0x10] := by
    have keeps := State.plainWrite_keepsRegs hk u vh
    rwa [page] at keeps
  have highReg : u.reg (lo + 4) = s.reg (lo + 4) := first _ (by simpa using highEvt)
  have lowReg : t.reg lo = u.reg lo := second _ (by simpa using lowEvt)
  refine ⟨?_, ?_, ?_, ?_⟩
  · refine (State.plainWrite_written hk u vh).of_before (State.legal_of_frame frame) highReg ?_ (first _ (by simp; omega))
    rw [State.stagedReg, State.plainWrite_staged_get?_ne (by omega), highReg]
    rfl
  · refine (State.plainWrite_written lowEvt s vl).of_after lowReg ?_
    rw [State.stagedReg, State.plainWrite_staged_get?_ne (by omega), lowReg]
    rfl
  · exact (first.mono (by simp)).trans (second.mono (by simp))
  · calc { t with regs := s.regs, staged := s.staged }
        = { ({ t with regs := u.regs, staged := u.staged } : State) with regs := s.regs, staged := s.staged } := rfl
      _ = { u with regs := s.regs, staged := s.staged } :=
        congrArg (fun w : State => { w with regs := s.regs, staged := s.staged }) (u.plainWrite_frame (lo + 4) vh)
      _ = s := frame

theorem pairHighWrite_leaves {s₀ : State} {who : Accessor} {page : Fin 16} {off : BitVec 12} {v : Word} (hset : s₀.latchWfi.settled)
    (hs : s₀.latchWfi.serves who (regKey page off) v) (h4 : 4 ≤ regKey page off) (hk : isPairLow (regKey page off) = false)
    (hlo : isPairLow (regKey page off - 4) = true) (hw : pairWritable (regKey page off - 4) = true)
    (hown : regKey page off - 4 ∉ [0x4128, 0x5108, 0x3104]) :
    let s := s₀.latchWfi
    let k := regKey page off
    let p := page.val * 0x1000
    Leaves (.pairHighWrite who page off v) s₀ fun t =>
      Written s t k v ∧ Written s t (k - 4) (if k - 4 ∈ (s.hold who).written then (s.hold who).wr else s.pairLow (k - 4))
        ∧ KeepsRegs s t [k, k - 4, p + 0x10]
        ∧ { t with regs := s.regs, staged := s.staged, localHold := s.localHold, remoteHold := s.remoteHold } = s := by
  intro s k p
  have page_lo : (k - 4) / 0x1000 = page.val := by
    have := (isPairLow_page hlo).1
    rw [Nat.sub_add_cancel h4, regKey_page] at this
    exact this.symm
  let low := if k - 4 ∈ (s.hold who).written then (s.hold who).wr else s.pairLow (k - 4)
  let u := s.forgetLow (k - 4)
  let t := (u.plainWrite (k - 4) low).plainWrite k v
  have written : s₀.accessWrite who k v = t := by
    rw [State.accessWrite_of_serves hs, State.writeReg_pairHigh h4 hk hlo hw, State.pairWriteHigh_plain hown, Nat.sub_add_cancel h4]
  obtain ⟨high, lowWord, keeps, frame⟩ := u.plainWrite_pair hlo low v
  rw [Nat.sub_add_cancel h4] at high lowWord keeps frame
  have frame' : { t with regs := s.regs, staged := s.staged, localHold := s.localHold, remoteHold := s.remoteHold } = s :=
    congrArg (fun w : State => { w with localHold := s.localHold, remoteHold := s.remoteHold }) frame
  have settled : (s₀.accessWrite who k v).settleHeld = t := by
    rw [written]
    exact t.settleHeld_settled (State.settled_of_frame hset frame')
  rw [page_lo] at keeps
  exact ⟨t, congrArg Host.Outcome.next settled, high, lowWord, keeps, frame'⟩

/-! ## Writes of registers without an effect of their own -/

theorem State.commonWrite_plain {page : Fin 16} {off : BitVec 12} (h : off ∉ commonOwn) (s : State) (v : Word) :
    s.commonWrite page.val off.toNat v = s.plainWrite (regKey page off) v := by
  have ne : off.toNat ∉ commonOwn.map BitVec.toNat := fun hc => by
    obtain ⟨c, hc, e⟩ := List.mem_map.mp hc
    exact h (BitVec.eq_of_toNat_eq e ▸ hc)
  unfold State.commonWrite
  split
  case h_6 => rfl
  all_goals
    rename_i e
    rw [e] at ne
    exact absurd (by decide) ne

theorem State.midWrite_plain {page off : Nat} (h : page * 0x1000 + off ∉ ownWrites) (s : State) (v : Word) (m : Option InMsg) :
    s.midWrite page off v m = s.plainWrite (page * 0x1000 + off) v := by
  unfold State.midWrite
  split
  case h_14 => rfl
  all_goals exact absurd (by decide) h

/-- The SYNC page's registers of the map are its masks: SYNC_VALn and SYNC_ADDn are not among them (R228). -/
theorem syncRegs_off {off : Nat} {r : RegSpec} (h : syncRegs.find? (fun r => r.off == off) = some r) :
    off % 4 = 0 ∧ 0x200 ≤ off ∧ off < 0x300 := by
  have hoff : r.off = off := by simpa using List.find?_some h
  obtain ⟨n, hn, rfl⟩ := List.mem_map.mp (List.mem_of_find?_eq_some h)
  have := List.mem_range.mp hn
  simp only [rwReg] at hoff
  omega

/-- LIFE_RESPn are not among the LIFE page's registers of the map (R453). -/
theorem lifeRegs_off {off : Nat} {r : RegSpec} (h : lifeRegs.find? (fun r => r.off == off) = some r) : off < 0x180 := by
  have hoff : r.off = off := by simpa using List.find?_some h
  have all : ∀ r ∈ lifeRegs, r.off < 0x180 := by decide
  exact hoff ▸ all r (List.mem_of_find?_eq_some h)

theorem State.highWrite_plain {page off : Nat} (h : page * 0x1000 + off ∉ ownWrites) {r : RegSpec}
    (hr : (blockRegs page).find? (fun r => r.off == off) = some r) (s : State) (v : Word) :
    s.highWrite page off v = s.plainWrite (page * 0x1000 + off) v := by
  unfold State.highWrite
  split
  case h_13 =>
    split
    · rename_i hp
      subst hp
      obtain ⟨h4, hlo, hhi⟩ := syncRegs_off hr
      rw [State.syncWrite, if_neg (by omega), if_neg (by omega), if_neg (by omega)]
      rfl
    · rw [if_neg]
      rintro ⟨rfl, hlo, -⟩
      have := lifeRegs_off hr
      omega
  all_goals exact absurd (by decide) h

theorem State.wordWrite_plain {page : Fin 16} {off : BitVec 12} {r : RegSpec} (hr : regSpec (regKey page off) = some r)
    (hown : regKey page off ∉ ownWrites) (hcom : off ∉ commonOwn) (s : State) (v : Word) :
    s.wordWrite (regKey page off) v none = s.plainWrite (regKey page off) v := by
  by_cases hc : off.toNat < 0x100 ∨ 0xF00 ≤ off.toNat
  · rw [State.wordWrite_common _ _ hc, State.commonWrite_plain hcom]
  · have block : (blockRegs page.val).find? (fun r => r.off == off.toNat) = some r := by
      simp only [regSpec, regKey_page, regKey_off] at hr
      rwa [if_neg (by simpa using hc)] at hr
    simp only [State.wordWrite, regKey_page, regKey_off]
    rw [if_neg (by simpa using hc)]
    split
    · exact State.midWrite_plain hown s v none
    · exact State.highWrite_plain hown block s v

theorem regWrite_leaves {s₀ : State} {who : Accessor} {page : Fin 16} {off : BitVec 12} {v : Word} {r : RegSpec} (hset : s₀.latchWfi.settled)
    (hr : regSpec (regKey page off) = some r) (hs : s₀.latchWfi.serves who (regKey page off) v) (hlo : isPairLow (regKey page off) = false)
    (hhi : isPairLow (regKey page off - 4) = false) (hown : regKey page off ∉ ownWrites) (hcom : off ∉ commonOwn) :
    let s := s₀.latchWfi
    let k := regKey page off
    let p := page.val * 0x1000
    Leaves (.regWrite who page off v) s₀ fun t =>
      Written s t k v ∧ KeepsRegs s t [k, p + 0x10] ∧ { t with regs := s.regs, staged := s.staged } = s
        ∧ t.reg (p + 0x10) = if r.rwl ≠ 0#32 ∧ (s.reg (p + 0xF00)).getLsbD 0 = true then s.reg (p + 0x10) ||| 0x80000000#32
          else s.reg (p + 0x10) := by
  intro s k p
  have hp : k / 0x1000 * 0x1000 = p := by rw [regKey_page]
  have notEvt : k ≠ p + 0x10 := fun e =>
    hcom (BitVec.eq_of_toNat_eq (y := 0x010#12) (Nat.add_left_cancel e) ▸ by decide)
  have notEvt' : k ≠ k / 0x1000 * 0x1000 + 0x10 := by rwa [hp]
  have frame : { s.plainWrite k v with regs := s.regs, staged := s.staged } = s := s.plainWrite_frame k v
  have settled : (s₀.accessWrite who k v).settleHeld = s.plainWrite k v := by
    rw [State.accessWrite_of_serves hs, State.writeReg_word hlo hhi, State.wordWrite_plain hr hown hcom]
    exact State.settleHeld_settled _ (State.settled_of_frame hset
      (congrArg (fun w : State => { w with localHold := s.localHold, remoteHold := s.remoteHold }) frame))
  refine ⟨_, congrArg Host.Outcome.next settled, State.plainWrite_written notEvt' s v, hp ▸ State.plainWrite_keepsRegs notEvt' s v, frame, ?_⟩
  rw [State.plainWrite_reg hr notEvt', hp, if_neg notEvt.symm]
  have page : k / 0x1000 = page.val := regKey_page page off
  exact if_congr (by rw [State.locked, page]; simp [p]) rfl rfl

theorem pairsAndPlainRegisters : PairsAndPlainRegisters := by
  intro s₀ who page off v s hset k p
  refine ⟨fun hr hlow => ⟨pairLowRead_leaves hr hlow, fun hw => pairLowWrite_leaves v hr hlow hw⟩, ?_, ?_⟩
  · exact fun hs h4 hk hlo hw hown => pairHighWrite_leaves hset hs h4 hk hlo hw hown
  · exact fun r hr hs hlo hhi hown hcom => regWrite_leaves hset hr hs hlo hhi hown hcom

/-- Settles O40: the common layout by `State.accessWrite_common`, pairs and plain registers by what a write by the access codes
changes (`State.plainWrite_reg`, `State.plainWrite_pair`). -/
theorem commonAndPlainRegisters : Obligations.CommonAndPlainRegisters := by
  unfold Obligations.CommonAndPlainRegisters
  exact ⟨commonPageRegisters, pairsAndPlainRegisters⟩

end Sys2Proof.Machine
end

section
/-! PROOF. What stops a tile instruction (O55): the reserved bits of its control word, its first steps at TR, the lowest TILE_STATE cause. -/

namespace Sys2Proof.Machine

/-! ## Reserved bits of the control word (R109) -/

theorem fld_ne_zero_of_bit {c : Word} {lo n i : Nat} (h : c.getLsbD i = true) (hlo : lo ≤ i) (hi : i < lo + n) : fld c lo n ≠ 0 := by
  intro h0
  have bit : (fld c lo n).testBit (i - lo) = true := by
    rw [fld, Nat.testBit_mod_two_pow, Nat.testBit_div_two_pow, Nat.sub_add_cancel hlo]
    simpa using ⟨by omega, h⟩
  simp [h0] at bit

theorem exists_bit_of_and_ne_zero {c m : Word} (h : c &&& m ≠ 0#32) : ∃ i, c.getLsbD i = true ∧ m.getLsbD i = true := by
  by_contra none
  refine h (BitVec.eq_of_getLsbD_eq fun i _ => ?_)
  rw [BitVec.getLsbD_and, BitVec.getLsbD_zero]
  by_contra both
  exact none ⟨i, by simpa using both⟩

/-- A word that has a bit of a mask within a field has a field other than 0. -/
theorem fld_ne_zero_of_and {c m : Word} {lo n : Nat} (h : c &&& m ≠ 0#32)
    (hm : ∀ i < 32, m.getLsbD i = true → lo ≤ i ∧ i < lo + n) : fld c lo n ≠ 0 := by
  obtain ⟨i, hc, hi⟩ := exists_bit_of_and_ne_zero h
  obtain ⟨hlo, hhi⟩ := hm i (BitVec.lt_of_getLsbD hi) hi
  exact fld_ne_zero_of_bit hc hlo hhi

/-- The reserved bits of TCRATE's control word lie in three fields: [31:16], [7:6] and bit 3. -/
theorem tcrateBad_of_and {c : Word} (h : c &&& 0xFFFF00C8#32 ≠ 0#32) : tcrateBad c = true := by
  obtain ⟨i, hc, hi⟩ := exists_bit_of_and_ne_zero h
  have reserved : ∀ i < 32, (0xFFFF00C8#32).getLsbD i = true → 16 ≤ i ∨ (6 ≤ i ∧ i < 8) ∨ i = 3 := by decide
  have lt := BitVec.lt_of_getLsbD hi
  rcases reserved i lt hi with high | ⟨low, below⟩ | rfl
  · simp [tcrateBad, fld_ne_zero_of_bit (n := 16) hc high (by omega)]
  · simp [tcrateBad, fld_ne_zero_of_bit (n := 2) hc low below]
  · simp [tcrateBad, hc]

/-! ## The steps of a tile instruction at TR (R111) -/

/-- An exception that an instruction raises once its bytes have been fetched. -/
theorem State.arrived_except_sees (s : State) (len cause : Nat) (detail : Word) (xaddr : DWord) :
    ((s.arrived len).except cause detail xaddr).seen = s.trapped len cause detail xaddr := by
  have seen := s.arrived_seen len
  have pl : (s.arrived len).pl = s.pl := by rw [State.pl, State.flags_seen, seen, ← State.flags_seen, State.pl]
  have ip : (s.arrived len).cpu.ip = s.cpu.ip := by rw [State.ip_seen, seen, ← State.ip_seen]
  rw [State.except_sees, seen, pl, ip]
  rfl

/-- A tile instruction is not held back at IS, and its enable is 1 at the level. -/
structure State.takesTile (s : State) (o : TileArgs) : Prop where
  full : s.tileFull = false
  issues : ∀ gs, s.issues 8 gs []
  msb : o.spec.msb = false
  on : (s.arrived 8).tileOn = true

section
variable {s : State} {o : TileArgs} {gs : List (Fin 32)} {undef : State → Bool} {k : State → State}

theorem State.tileInstr_of_issues (full : s.tileFull = false) (issues : s.issues 8 gs []) :
    s.tileInstr o gs undef k =
      if o.spec.msb || undef (s.arrived 8) then (s.arrived 8).undef
      else if !(s.arrived 8).tileOn then (s.arrived 8).except cTILEUNAV 0#32 0#64 else k (s.arrived 8) := by
  simp only [State.tileInstr, full, Bool.false_eq_true, if_false]
  exact s.instr_issues 8 gs [] _ issues

theorem State.tileInstr_undef (full : s.tileFull = false) (issues : s.issues 8 gs []) (h : (o.spec.msb || undef (s.arrived 8)) = true) :
    (s.tileInstr o gs undef k).seen = s.trapped 8 cUNDEF 0#32 0#64 := by
  rw [State.tileInstr_of_issues full issues, if_pos h]
  exact s.arrived_except_sees 8 cUNDEF 0#32 0#64

theorem State.tileInstr_unavailable (full : s.tileFull = false) (issues : s.issues 8 gs []) (msb : o.spec.msb = false)
    (h : undef (s.arrived 8) = false) (off : (s.arrived 8).tileOn = false) :
    (s.tileInstr o gs undef k).seen = s.trapped 8 cTILEUNAV 0#32 0#64 := by
  rw [State.tileInstr_of_issues full issues, if_neg (by simp [msb, h]), if_pos (by simp [off])]
  exact s.arrived_except_sees 8 cTILEUNAV 0#32 0#64

theorem State.tileInstr_tileState {cause : Nat} (go : s.takesTile o) (h : undef (s.arrived 8) = false)
    (hk : k (s.arrived 8) = (s.arrived 8).tileState cause) :
    (s.tileInstr o gs undef k).seen = s.trapped 8 cTILESTATE (w32 cause) 0#64 := by
  rw [State.tileInstr_of_issues go.full (go.issues gs), if_neg (by simp [go.msb, h]), if_neg (by simp [go.on]), hk]
  exact s.arrived_except_sees 8 cTILESTATE (w32 cause) 0#64

end

/-! ## The lowest TILE_STATE cause (R111) -/

theorem lowestCause_none (cs : List (Option Nat)) : lowestCause (none :: cs) = lowestCause cs := rfl
theorem lowestCause_only (c : Nat) : lowestCause [some c] = some c := rfl

theorem State.withCauses_some {cs : List (Option Nat)} {c : Nat} (h : lowestCause cs = some c) (s k : State) :
    s.withCauses cs k = s.tileState c := by
  rw [State.withCauses, h]

theorem State.withCauses_none {cs : List (Option Nat)} (h : lowestCause cs = none) (s k : State) : s.withCauses cs k = k := by
  rw [State.withCauses, h]

theorem State.deadName_of_live {s : State} {n : Nat} {i : NameInfo} (h : s.tile.issue.name n = some i) : s.deadName n = none := by
  simp [State.deadName, TileView.nameCause, h]

theorem State.deadName_of_dead {s : State} {n : Nat} (h : s.tile.issue.name n = none) :
    s.deadName n = some (if s.tile.issue.covered n then 2 else 1) := by
  simp only [State.deadName, TileView.nameCause, h]
  exact (apply_ite some _ 2 1).symm

/-! ## What each instruction raises (R108, R109, R111, R178) -/

section
variable {s : State} {o : TileArgs} (go : s.takesTile o)
include go

theorem deadName_traps {gs : List (Fin 32)} {undef : State → Bool} {k : State → State} (h : undef (s.arrived 8) = false)
    (dead : (s.arrived 8).tile.issue.name (ctlCd o.ctl) = none) :
    (s.tileInstr o gs undef fun u => u.withCauses [u.deadName (ctlCd o.ctl)] (k u)).seen
      = s.trapped 8 cTILESTATE (if (s.arrived 8).tile.issue.covered (ctlCd o.ctl) then 2#32 else 1#32) 0#64 := by
  have lowest : lowestCause [(s.arrived 8).deadName (ctlCd o.ctl)]
      = some (if (s.arrived 8).tile.issue.covered (ctlCd o.ctl) then 2 else 1) := by
    rw [State.deadName_of_dead dead, lowestCause_only]
  have raised := State.withCauses_some lowest (s.arrived 8) (k (s.arrived 8))
  rw [State.tileInstr_tileState go h raised]
  exact congrArg (s.trapped 8 cTILESTATE · 0#64) (apply_ite w32 _ 2 1)

theorem tew_mismatch_traps (reserved : fld o.ctl 14 18 = 0) (op : tewOp o.ctl ≤ 6) (notZero : tewOp o.ctl ≠ 4)
    (cd : ((s.arrived 8).tile.issue.name (ctlCd o.ctl)).isSome = true) (cs : ((s.arrived 8).tile.issue.name (ctlCs o.ctl)).isSome = true)
    (differ : tewMismatch (s.arrived 8).tile.issue o.ctl = true) : (s.tew o).seen = s.trapped 8 cTILESTATE 3#32 0#64 := by
  obtain ⟨d, cd⟩ := Option.isSome_iff_exists.mp cd
  obtain ⟨x, cs⟩ := Option.isSome_iff_exists.mp cs
  refine State.tileInstr_tileState go (by simp [reserved, op]) (State.withCauses_some ?_ _ _)
  simp [notZero, differ, State.deadName_of_live cd, State.deadName_of_live cs, lowestCause_none, lowestCause_only]

theorem tmove_overrun_traps (write : Bool) (reserved : fld o.ctl 5 27 = 0) (pair : pairOdd (tOpa o) = false)
    (past : 4 < fld o.ctl 3 2 + (s.arrived 8).tileKb o) : (s.tmove o write).seen = s.trapped 8 cTILESTATE 4#32 0#64 := by
  refine State.tileInstr_tileState go (by simp [reserved, pair]) (State.withCauses_some ?_ _ _)
  rw [if_pos past, lowestCause_only]

section
variable {info : NameInfo} (ok : (s.arrived 8).tmmaBad o = false) (cd : (s.arrived 8).tile.issue.name (ctlCd o.ctl) = some info)
  (fits : shapeBad o.ctl info.shape = false)
include ok cd fits

theorem tmma_overrun_traps (tileB : o.ctl.getLsbD 19 = false) (past : 4 < fld o.ctl 10 2 + (s.arrived 8).tileKb o) :
    (s.tmma o).seen = s.trapped 8 cTILESTATE 4#32 0#64 := by
  have encoded : ((s.arrived 8).tmmaBad o || (o.ctl.getLsbD 19 && pairOdd (tOpb o))
      || ((s.arrived 8).liveShape (ctlCd o.ctl)).any (shapeBad o.ctl)) = false := by
    rw [ok, tileB, State.liveShape, cd]
    simp [fits]
  refine State.tileInstr_tileState go encoded (State.withCauses_some ?_ _ _)
  rw [State.deadName_of_live cd, tileB, lowestCause_none]
  simp [past, lowestCause_only]

theorem tmmaSeg_noCrate_traps (tileA : o.ctl.getLsbD 23 = false) (streamB : o.ctl.getLsbD 19 = true)
    (s2 : (s.arrived 8).build.s2 = true) (noTb : fld o.ctl 16 3 = 0) (noHalf : o.ctl.getLsbD 14 = false)
    (within : fld o.ctl 10 2 + (s.arrived 8).tileKb o ≤ 4) (noCrate : (s.arrived 8).tile.issue.crate = none) :
    (s.tmmaSeg o).seen = s.trapped 8 cTILESTATE 9#32 0#64 := by
  have encoded : ((s.arrived 8).tmmaBad o || !(s.arrived 8).build.s2 || !o.ctl.getLsbD 19 || fld o.ctl 16 3 != 0 || o.ctl.getLsbD 14
      || ((s.arrived 8).liveShape (ctlCd o.ctl)).any (shapeBad o.ctl)) = false := by
    rw [ok, s2, streamB, noTb, noHalf, State.liveShape, cd]
    simp [fits]
  refine State.tileInstr_tileState go encoded ?_
  dsimp only
  rw [State.deadName_of_live cd, tileA, noCrate, State.withCauses_none]
  · rfl
  · simp [Nat.not_lt.mpr within, lowestCause]

end
end

/-- Settles O55: bit 31 of the specifier and the reserved bits by `State.tileInstr_undef`, the enable by `State.tileInstr_unavailable`, and
the causes of TILE_STATE as the lowest of those that each instruction finds. -/
theorem tileInstructionsAreGuarded : Obligations.TileInstructionsAreGuarded := by
  unfold Obligations.TileInstructionsAreGuarded
  intro s o err full issues
  dsimp only
  have undefined {i : Instr} {gs : List (Fin 32)} {undef : State → Bool} {k : State → State} (hi : exec i s = .next (s.tileInstr o gs undef k))
      (h : (o.spec.msb || undef (s.arrived 8)) = true) : Does i s (s.trapped 8 cUNDEF 0#32 0#64) :=
    ⟨_, hi, State.tileInstr_undef full (issues gs) h⟩
  refine ⟨?_, ?_, ?_, ?_, ?_, ?_, ?_, ?_, ?_, fun msb => ⟨fun off => ?_, fun on => ?_⟩⟩
  · intro msb i hi
    simp only [List.mem_cons, List.not_mem_nil, or_false] at hi
    rcases hi with rfl | rfl | rfl | rfl | rfl | rfl | rfl | rfl | rfl | rfl | rfl | rfl | rfl <;>
      exact undefined rfl (by rw [msb, Bool.true_or])
  · intro h
    have bits := fld_ne_zero_of_and (lo := 5) (n := 27) h (by decide)
    exact ⟨undefined rfl (by simp [bits]), undefined rfl (by simp [bits]), undefined rfl (by simp [bits])⟩
  · rintro (h | h)
    · exact undefined rfl (by simp [fld_ne_zero_of_and (lo := 14) (n := 18) h (by decide)])
    · exact undefined rfl (by simp [h])
  · intro h
    have bits := fld_ne_zero_of_and (lo := 2) (n := 30) h (by decide)
    exact ⟨undefined rfl (by simp [bits]), undefined rfl (by simp [bits])⟩
  · exact fun h => undefined rfl (by simp [fld_ne_zero_of_and (lo := 3) (n := 29) h (by decide)])
  · exact fun h => ⟨undefined rfl (by simp [tcrateBad_of_and h]), undefined rfl (by simp [tcrateBad_of_and h])⟩
  · intro h
    have level : fld o.ctl 0 2 = (o.ctl.setWidth 2).toNat := by simp [fld]
    exact undefined rfl (by simp [-BitVec.toNat_setWidth, ← level, h])
  · intro h
    have bits := fld_ne_zero_of_and (lo := 5) (n := 5) h (by decide)
    have bad : (s.arrived 8).tmmaBad o = true := by simp [State.tmmaBad, bits]
    exact ⟨undefined rfl (by simp [bad]), undefined rfl (by simp [bad])⟩
  · intro two off
    refine ⟨_, congrArg Host.Outcome.next (s.instr_issues 2 [] [] _ two), ?_⟩
    rw [if_pos (by simp [off])]
    exact s.arrived_except_sees 2 cTILEUNAV 0#32 0#64
  · have unavailable {i : Instr} {gs : List (Fin 32)} {undef : State → Bool} {k : State → State}
        (hi : exec i s = .next (s.tileInstr o gs undef k)) (h : undef (s.arrived 8) = false) :
        Does i s (s.trapped 8 cTILEUNAV 0#32 0#64) := ⟨_, hi, State.tileInstr_unavailable full (issues gs) msb h off⟩
    refine ⟨fun reserved => ⟨unavailable rfl (by simp [reserved]), fun pair => ?_⟩, ?_, ?_, ?_⟩
    · exact ⟨unavailable rfl (by simp [reserved, pair]), unavailable rfl (by simp [reserved, pair])⟩
    · exact fun reserved => unavailable rfl (by simp [reserved])
    · exact fun ok => unavailable rfl ok
    · exact fun ok => unavailable rfl ok
  · have go : s.takesTile o := ⟨full, issues, msb, on⟩
    refine ⟨fun reserved pair past => ?_, fun dead => ⟨fun reserved => ?_, fun ok => ?_⟩, ?_, ?_⟩
    · exact ⟨⟨_, rfl, tmove_overrun_traps go false reserved pair past⟩, ⟨_, rfl, tmove_overrun_traps go true reserved pair past⟩⟩
    · exact ⟨_, rfl, deadName_traps go (by simp [reserved]) dead⟩
    · exact ⟨_, rfl, deadName_traps go ok dead⟩
    · exact fun reserved op notZero cd cs differ => ⟨_, rfl, tew_mismatch_traps go reserved op notZero cd cs differ⟩
    · refine fun ok info cd fits => ⟨fun tileB past => ?_, fun tileA streamB s2 noTb noHalf within noCrate => ?_⟩
      · exact ⟨_, rfl, tmma_overrun_traps go ok cd fits tileB past⟩
      · exact ⟨_, rfl, tmmaSeg_noCrate_traps go ok cd fits tileA streamB s2 noTb noHalf within noCrate⟩

end Sys2Proof.Machine
end

section
/-! PROOF. TCONV's record can be the last that the core reads in service (O54 fails): a corrected bit of it can retire the bank that holds
it, and with that the last group of the scratchpad; the core fences and abandons the queued TBEGIN that CD's name came from, so that what
the statement says of CD's shape holds no longer where the instruction goes on. -/

namespace Sys2Proof.Machine

/-- A core out of reset, its fetch served from an entry line, G1 at the scratchpad's start. Of its groups only group 0 is in service; unit 0
holds one wrong bit, and the first transient event retires a bank (R433 to R436). Tile instructions are enabled at every level. -/
def lastGroup : State :=
  let s := State.reset
  let s : State := { s with
    rst := { Rst.init with phase := .run, wholeLow := false }
    cpu := { s.cpu with fromLine := some 0, g := s.cpu.g.set 1 0x40000000#64 }
    spx := { Spx.init with groups := Vector.replicate 16 .on, marks := [⟨0, 0#4, 0#4, 1#288, none⟩] }
    ras := { s.ras with retired := BitVec.allOnes 256 <<< 0x88 } }
  (s.setReg 0x4100 7#32).setReg 0xD100 1#32

/-- TBEGIN gives name 0 a 16×16 tile of I32 elements; it is queued, so that the name is live for younger instructions alone (R182). -/
def tileBegun : State := lastGroup.pushTile (lastGroup.newEntry .tbegin 0x4E0#32)

/-- A TCONV of tile 0 to one half of an operand tile, in the BX format of 8 bits with clipping; its record at G1. -/
def clipToTile : TileArgs := ⟨0x20#16, 0x40214000#32⟩

/-- The check of the record's range, its read, the check of the output's ranges. -/
def recordChecked : State × TOut :=
  (tileBegun.arrived 8).checkRanges .v [⟨0, [tileBegun.cpu.tid], [((tileBegun.seen.readG (tOpb clipToTile)).toNat, 64)]⟩]
def recordRead : State × List Byte × List Nat := recordChecked.1.spxRead 2 [] 0 64
def outputChecked : State × TOut :=
  let d := streamDesc (tileBegun.seen.readG (tOpa clipToTile)) (tileBegun.seen.readG (nextReg (tOpa clipToTile)))
  recordRead.1.checkRanges .m (recordRead.1.convRanges clipToTile.ctl .s16x16 d recordRead.2.1)

theorem tileBegun_issues : tileBegun.issues 8 [tOpb clipToTile] [] :=
  ⟨by decide +kernel, by decide +kernel, by decide, by decide +kernel⟩

theorem tileBegun_name : (tileBegun.arrived 8).tile.issue.name (ctlCd clipToTile.ctl) = some ⟨.s16x16, .i32, 0, false⟩ := by decide +kernel

theorem recordChecked_ok : recordChecked.2 = .ok [some ((tileBegun.seen.readG (tOpb clipToTile)).toNat, 0)]
    ∧ recordChecked.1.tileBlocks false 0 64 = [] ∧ recordChecked.1.sbStores [(0, 64)] = false := by decide +kernel

/-- The wrong bit is corrected, and the record is in order. -/
theorem recordRead_ok : recordRead.2.2 = [] ∧ recordBad clipToTile.ctl recordRead.2.1 = false := by decide +kernel

theorem outputChecked_ok : outputChecked.2 = .ok (List.replicate 5 none) ∧ outputChecked.1.cpu.sb = [] := by decide +kernel

theorem convAligned_clipToTile (d : StreamDesc) (bs : List Byte) : convAligned clipToTile.ctl d bs = [] := by
  have dest : clipToTile.ctl.getLsbD 16 = true := by decide
  have scale : fld clipToTile.ctl 24 2 = 0 := by decide
  have bias : fld clipToTile.ctl 22 2 = 0 := by decide
  have stat : fld clipToTile.ctl 19 2 = 0 := by decide
  simp [convAligned, dest, scale, bias, stat]

/-- The read fences the core, CD is not live in the engine's view, a tile without a live name is taken as 32×32, and that does not fit the
half of an operand tile: cause 7 instead of an entry. -/
theorem tconv_tileBegun_fences : (tileBegun.tconv clipToTile).ras.fence = some 5#8 ∧ (tileBegun.tconv clipToTile).tile.queue = []
    ∧ (tileBegun.tconv clipToTile).seen = tileBegun.trapped 8 cTILESTATE 7#32 0#64 := by decide +kernel

theorem State.trHolds_of_emptySb {s : State} (h : s.cpu.sb = []) (rs : List (Nat × Nat)) : s.trHolds rs = false := by
  simp [State.trHolds, State.sbStores, State.sbLate, h]

/-- Refutes O54: TCONV from `tileBegun`, whose record is read without an uncorrectable error, does not join the queue. -/
theorem not_tileAndConversionInstructionsQueue : ¬ Obligations.TileAndConversionInstructionsQueue := by
  unfold Obligations.TileAndConversionInstructionsQueue
  rintro ⟨-, conversions⟩
  obtain ⟨-, withRecord⟩ := conversions tileBegun clipToTile _ (by decide +kernel) (by decide +kernel) (by decide) (by decide) tileBegun_name
    (by decide)
  obtain ⟨range, ahead, stores⟩ := recordChecked_ok
  obtain ⟨clean, inOrder⟩ := recordRead_ok
  obtain ⟨bases, buffer⟩ := outputChecked_ok
  have aligned : ∀ d bs, ∀ x ∈ convAligned clipToTile.ctl d bs, x.2.2 = true := fun d bs x hx => by
    rw [convAligned_clipToTile] at hx
    exact absurd hx List.not_mem_nil
  unfold outputChecked at bases buffer
  unfold recordRead at clean inOrder bases buffer
  unfold recordChecked at range ahead stores clean inOrder bases buffer
  obtain ⟨-, joins⟩ := withRecord (by decide) tileBegun_issues 0 range (by decide) ahead stores clean
  obtain ⟨t, done, -, tile⟩ := joins _ inOrder (aligned _ _) bases (State.trHolds_of_emptySb buffer _)
  injection done with done
  have joined : t.tile.queue ≠ [] := by
    rw [tile]
    simp
  obtain ⟨-, empty, -⟩ := tconv_tileBegun_fences
  exact joined (done ▸ empty)

end Sys2Proof.Machine
end

section
/-! PROOF. Clearing TILE_FAULTPOS.VALID is a write of the high word of a pair (R55), which ends the wait of the pair's low word in the write
holding register (O41 fails). -/

namespace Sys2Proof.Machine

/-- A core out of reset at level M, the own core's write holding register with a low word for TILE_FAULTPOS. -/
def faultposLowHeld : State :=
  { State.reset with
    rst := { Rst.init with phase := .run, wholeLow := false }
    localHold := { State.reset.localHold with wr := 5#32, written := [0x4108] } }

/-- TILE_TSTAT_CLEAR with bit 31 leaves the holding register with no low word. -/
theorem tstatClear_forgets :
    ((faultposLowHeld.accessWrite .local 0x4104 (0x80000000#32 &&& 0x7F#32)).accessWrite .local 0x410C 0x80000000#32).localHold.written = [] := by
  decide +kernel

/-- Refutes O41: by its clause on TILE_TSTAT nothing but registers of the map would change. -/
theorem not_tileCoreAndScratchpadPages : ¬ Obligations.TileCoreAndScratchpadPages := by
  unfold Obligations.TileCoreAndScratchpadPages
  rintro ⟨tilePages, -⟩
  obtain ⟨-, -, tilePage, -⟩ := tilePages faultposLowHeld .local 0x80000000#32 0#64
  obtain ⟨-, -, -, t, done, -, -, frame, -⟩ := tilePage (by decide +kernel)
  injection done with done
  have held : t.localHold.written = [0x4108] := congrArg (fun u : State => u.localHold.written) frame
  rw [← done] at held
  exact absurd (tstatClear_forgets.symm.trans held) (by decide)

end Sys2Proof.Machine
end

section
/-! PROOF. Storage that no wrong bit has struck reads as it was stored (R352, R357, R361): numbers and their bytes, ranges of storage, words of the
activation class, units, and the reads of the tile engine. -/

namespace Sys2Proof.Machine

/-! ## Numbers and their bytes -/

theorem leBytes_length (x n : Nat) : (leBytes x n).length = n := by
  induction n generalizing x with
  | zero => rfl
  | succ n ih => rw [leBytes, List.length_cons, ih]

theorem leNat_lt (bs : List Byte) : leNat bs < 256 ^ bs.length := by
  induction bs with
  | nil => simp [leNat]
  | cons b bs ih =>
    have := b.isLt
    rw [leNat, List.length_cons, Nat.pow_succ]
    omega

theorem leNat_leBytes (x n : Nat) : leNat (leBytes x n) = x % 256 ^ n := by
  induction n generalizing x with
  | zero => simp [leBytes, leNat, Nat.mod_one]
  | succ n ih =>
    have split : x % (256 * 256 ^ n) = x % 256 + 256 * (x / 256 % 256 ^ n) := Nat.mod_mul
    rw [leBytes, leNat, ih, BitVec.toNat_ofNat, show 256 ^ (n + 1) = 256 * 256 ^ n from Nat.pow_succ', split]

theorem leBytes_leNat (bs : List Byte) : leBytes (leNat bs) bs.length = bs := by
  induction bs with
  | nil => rfl
  | cons b bs ih =>
    have low : BitVec.ofNat 8 (b.toNat + 256 * leNat bs) = b := by
      apply BitVec.eq_of_toNat_eq
      rw [BitVec.toNat_ofNat]
      omega
    have high : (b.toNat + 256 * leNat bs) / 256 = leNat bs := by omega
    rw [leNat, List.length_cons, leBytes, low, high, ih]

/-! ## Ranges of storage -/

theorem Memory.read_add (m : Memory) (a k n : Nat) : m.read a (k + n) = m.read a k ++ m.read (a + k) n := by
  induction k generalizing a with
  | zero => simp [Memory.read]
  | succ k ih =>
    rw [Nat.succ_add_eq_add_succ, Nat.add_succ, Memory.read, ih, Memory.read, List.cons_append, Nat.add_right_comm]
    rfl

theorem Memory.read_drop_take (m : Memory) {a n k l : Nat} (h : k + l ≤ n) : ((m.read a n).drop k).take l = m.read (a + k) l := by
  obtain ⟨r, rfl⟩ := Nat.exists_eq_add_of_le h
  rw [Nat.add_assoc, m.read_add a k, List.drop_left' (m.read_length a k), m.read_add (a + k) l, List.take_left' (m.read_length _ l)]

theorem Memory.read_congr {m m' : Memory} {a n : Nat} (h : ∀ x, a ≤ x → x < a + n → m.get x = m'.get x) : m.read a n = m'.read a n := by
  induction n generalizing a with
  | zero => rfl
  | succ n ih => rw [Memory.read, Memory.read, h a (by omega) (by omega), ih fun x h1 h2 => h x (by omega) (by omega)]

theorem Memory.read_write_other (m : Memory) {a a' n : Nat} {bs : List Byte} (h : a' + n ≤ a ∨ a + bs.length ≤ a') :
    (m.write a bs).read a' n = m.read a' n :=
  Memory.read_congr fun x _ _ => m.get_write_other a bs x (by omega)

theorem Memory.read_write_within (m : Memory) (a : Nat) {bs : List Byte} {k l : Nat} (h : k + l ≤ bs.length) :
    (m.write a bs).read (a + k) l = (bs.drop k).take l := by
  rw [← Memory.read_drop_take _ h, m.read_write]

/-! ## Words of the activation class (R357) -/

theorem positionsXor_lt (d : Nat) {ps : List Nat} (h : ∀ p ∈ ps, p < 2 ^ 7) : positionsXor d ps < 2 ^ 7 := by
  induction ps generalizing d with
  | nil => simp [positionsXor]
  | cons p ps ih =>
    refine Nat.xor_lt_two_pow ?_ (ih _ fun q hq => h q (List.mem_cons_of_mem _ hq))
    split
    · exact h p List.mem_cons_self
    · simp

theorem parityNat_add (x a b : Nat) : parityNat x (a + b) = (parityNat x a != parityNat (x / 2 ^ a) b) := by
  induction a generalizing x with
  | zero => simp [parityNat]
  | succ a ih =>
    rw [Nat.succ_add_eq_add_succ, Nat.add_succ, parityNat, ih, parityNat, Nat.div_div_eq_div_mul, ← Nat.pow_succ', Bool.bne_assoc]

theorem parityNat_mod (x n : Nat) : parityNat (x % 2 ^ n) n = parityNat x n := by
  induction n generalizing x with
  | zero => rfl
  | succ n ih =>
    rw [parityNat, parityNat, Nat.pow_succ', Nat.mod_mul_right_mod, Nat.mod_mul_right_div_self, ih]

/-- A word with its check byte has even parity. -/
theorem parityNat_secded {d : Nat} (h : d < 2 ^ 64) : parityNat (d + 2 ^ 64 * secded d) 72 = false := by
  have hc : positionsXor d dataPositions < 2 ^ 7 := positionsXor_lt d (by decide)
  have data : (d + 2 ^ 64 * secded d) % 2 ^ 64 = d := by omega
  have check : (d + 2 ^ 64 * secded d) / 2 ^ 64 = secded d := by omega
  have low : secded d % 2 ^ 7 = positionsXor d dataPositions := by
    rw [secded]
    split <;> omega
  have top : parityNat (secded d / 2 ^ 7) 1 = (parityNat d 64 != parityNat (positionsXor d dataPositions) 7) := by
    rw [secded]
    by_cases odd : (parityNat d 64 != parityNat (positionsXor d dataPositions) 7) = true
    · rw [if_pos odd, odd, show (positionsXor d dataPositions + 128) / 2 ^ 7 = 1 by omega]
      rfl
    · rw [if_neg odd, Bool.eq_false_iff.mpr odd, Nat.add_zero, Nat.div_eq_of_lt hc]
      rfl
  rw [show 72 = 64 + 8 from rfl, parityNat_add, ← parityNat_mod, data, check, show 8 = 7 + 1 from rfl, parityNat_add,
    ← parityNat_mod (secded d), low, top]
  cases parityNat d 64 <;> cases parityNat (positionsXor d dataPositions) 7 <;> rfl

/-- A word as it was stored reads as its data, without an error. -/
theorem readWord_stored {d : Nat} (h : d < 2 ^ 64) : readWord (d + 2 ^ 64 * secded d) = ⟨d, false, false⟩ := by
  have hc : positionsXor d dataPositions < 2 ^ 7 := positionsXor_lt d (by decide)
  have data : (d + 2 ^ 64 * secded d) % 2 ^ 64 = d := by omega
  have check : (d + 2 ^ 64 * secded d) / 2 ^ 64 % 128 = positionsXor d dataPositions := by
    rw [show (d + 2 ^ 64 * secded d) / 2 ^ 64 = secded d by omega, secded]
    split <;> omega
  simp only [readWord, data, check, parityNat_secded h, Nat.xor_self]
  rfl

/-! ## Units that no wrong bit has struck (R357, R361) -/

/-- The mark of a unit of the activation class without poison or wrong bits. -/
def cleanMark (u : Nat) : UnitMark := ⟨u, 0#4, 0#4, 0#288, none⟩

theorem returned_clean (u : Nat) (data : List Byte) (w : Nat) :
    returned (cleanMark u) data 0#288 w = wordOf data w + 2 ^ 64 * secded (wordOf data w) := by
  simp only [returned, storedCheck, cleanMark, BitVec.getLsbD_zero, Bool.false_eq_true, if_false, BitVec.toNat_zero, Nat.zero_div, Nat.zero_mod,
    Nat.xor_zero]

theorem wordOf_lt (data : List Byte) (w : Nat) : wordOf data w < 2 ^ 64 := by
  have len : ((data.drop (8 * w)).take 8).length ≤ 8 := List.length_take_le _ _
  exact (leNat_lt _).trans_le (Nat.pow_le_pow_right (by decide) len)

theorem leBytes_wordOf {data : List Byte} {w : Nat} (h : 8 * w + 8 ≤ data.length) : leBytes (wordOf data w) 8 = (data.drop (8 * w)).take 8 := by
  have len : ((data.drop (8 * w)).take 8).length = 8 := by
    rw [List.length_take, List.length_drop]
    omega
  have bytes := leBytes_leNat ((data.drop (8 * w)).take 8)
  rwa [len] at bytes

theorem take_words {data : List Byte} (h : data.length = 32) :
    ([0, 1, 2, 3].flatMap fun w => (data.drop (8 * w)).take 8) = data := by
  have last : (data.drop 24).take 8 = data.drop 24 := List.take_of_length_le (by rw [List.length_drop]; omega)
  have join : ∀ a, (data.drop a).take 8 ++ data.drop (a + 8) = data.drop a := fun a => by
    rw [← List.drop_drop]
    exact List.take_append_drop 8 _
  simp only [List.flatMap_cons, List.flatMap_nil, List.append_nil, Nat.reduceMul, last]
  rw [join 16, join 8, join 0, List.drop_zero]

theorem decodeUnit_clean (u : Nat) {data : List Byte} (h : data.length = 32) :
    decodeUnit false (cleanMark u) data 0#288 = ⟨data, false, 0#4, false, false⟩ := by
  have words : (List.range 4).map (fun w => readWord (returned (cleanMark u) data 0#288 w))
      = [0, 1, 2, 3].map fun w => (⟨wordOf data w, false, false⟩ : WordRead) :=
    List.map_congr_left fun w _ => by rw [returned_clean, readWord_stored (wordOf_lt data w)]
  have bytes : ([0, 1, 2, 3].flatMap fun w => leBytes (wordOf data w) 8) = data := by
    refine Eq.trans (List.flatMap_congr fun w hw => leBytes_wordOf ?_) (take_words h)
    have : ∀ w ∈ [0, 1, 2, 3], w < 4 := by decide
    have := this w hw
    omega
  simp only [decodeUnit, Bool.false_eq_true, if_false, words, List.flatMap_map, bytes]
  rfl

/-! ## Reads that find no wrong bit -/

/-- `t` is `s` after reads of the scratchpad that found no wrong bit: energy was used, the listing of the marks may have lost marks that
say nothing. -/
def State.onlyRead (s t : State) : Prop :=
  { t with spx := { t.spx with marks := s.spx.marks }, pwr := s.pwr } = s ∧ ∀ k, t.mark k = s.mark k

theorem State.onlyRead_refl (s : State) : s.onlyRead s := ⟨rfl, fun _ => rfl⟩

theorem State.onlyRead.trans {s t u : State} (h : s.onlyRead t) (h' : t.onlyRead u) : s.onlyRead u :=
  ⟨(congrArg (fun w : State => { w with spx := { w.spx with marks := s.spx.marks }, pwr := s.pwr }) h'.1).trans h.1,
    fun k => (h'.2 k).trans (h.2 k)⟩

theorem State.onlyRead.tile {s t : State} (h : s.onlyRead t) : t.tile = s.tile := (congrArg State.tile h.1 :)
theorem State.onlyRead.mem {s t : State} (h : s.onlyRead t) : t.spx.mem = s.spx.mem := (congrArg (fun w : State => w.spx.mem) h.1 :)
theorem State.onlyRead.build {s t : State} (h : s.onlyRead t) : t.build = s.build := (congrArg State.build h.1 :)
theorem State.onlyRead.reg {s t : State} (h : s.onlyRead t) (k : Nat) : t.reg k = s.reg k := (congrArg (fun w : State => w.reg k) h.1 :)
theorem State.onlyRead.unitDown {s t : State} (h : s.onlyRead t) (k : Nat) : t.unitDown k = s.unitDown k :=
  (congrArg (fun w : State => w.unitDown k) h.1 :)

theorem State.onlyRead.spxClean {s t : State} (h : s.onlyRead t) {e : TileEntry} (hs : s.spxClean e) : t.spxClean e := by
  obtain ⟨s2, units⟩ := hs
  refine ⟨h.build ▸ s2, fun k => ?_⟩
  rw [h.2 k, h.unitDown k]
  exact units k

theorem State.charge_onlyRead (s : State) (n m : Nat) : s.onlyRead (s.charge n m) := ⟨rfl, fun _ => rfl⟩

theorem State.mark_setMark_clean {s : State} {u : Nat} (h : s.mark u = cleanMark u) (k : Nat) : (s.setMark (cleanMark u)).mark k = s.mark k := by
  have marks : (s.setMark (cleanMark u)).spx.marks = s.spx.marks.filter fun x => x.unit != u := by
    simp [State.setMark, cleanMark]
  unfold State.mark
  rw [marks, List.find?_filter]
  by_cases hk : k = u
  · subst hk
    rw [List.find?_eq_none.mpr (by simp)]
    exact h.symm
  · have same : (fun m : UnitMark => decide ((m.unit != u) = true ∧ (m.unit == k) = true)) = fun m => m.unit == k := by
      funext m
      by_cases hm : m.unit = k <;> simp [hm, hk]
    rw [same]

theorem State.setMark_onlyRead {s : State} {u : Nat} (h : s.mark u = cleanMark u) : s.onlyRead (s.setMark (cleanMark u)) :=
  ⟨rfl, State.mark_setMark_clean h⟩

section
variable {s : State} {e : TileEntry}

theorem State.spxClean.readUnit (hs : s.spxClean e) (u : Nat) :
    ∃ t, (∀ reader need, s.readUnit u reader (classIn e.wins u) need 0#288 = (t, s.unitData u, false)) ∧ s.onlyRead t := by
  obtain ⟨s2, units⟩ := hs
  obtain ⟨mark, cls, up⟩ := units u
  refine ⟨s.setMark (cleanMark u), fun reader need => ?_, State.setMark_onlyRead mark⟩
  have decoded := decodeUnit_clean u (s.spx.mem.read_length (32 * u) 32)
  simp only [State.readUnit, up, s2, mark, cls, State.finishRead, Bool.false_eq_true, if_false, if_true, BitVec.xor_zero]
  rw [show (⟨u, 0#4, 0#4, 0#288, none⟩ : UnitMark) = cleanMark u from rfl, State.unitData, decoded]
  simp

theorem State.spxClean.readUnits (hs : s.spxClean e) (reader lo hi u n : Nat) :
    ∃ t, s.readUnits (classIn e.wins) reader [] lo hi u n = (t, s.spx.mem.read (32 * u) (32 * n), []) ∧ s.onlyRead t := by
  induction n generalizing s u with
  | zero => exact ⟨s, rfl, s.onlyRead_refl⟩
  | succ n ih =>
    obtain ⟨t, first, read⟩ := hs.readUnit u
    obtain ⟨t', others, read'⟩ := ih (read.spxClean hs) (u + 1)
    refine ⟨t', ?_, read.trans read'⟩
    have bytes : s.spx.mem.read (32 * u) (32 * (n + 1)) = s.unitData u ++ s.spx.mem.read (32 * (u + 1)) (32 * n) := by
      rw [Nat.mul_succ, Nat.add_comm, Memory.read_add]
      rfl
    have noFlips : flipsFor [] u = 0#288 := rfl
    simp only [State.readUnits, noFlips, first, others, read.mem, bytes, Bool.false_eq_true, if_false]

theorem unitsIn_covers (off : Nat) {len : Nat} (h : len ≠ 0) : off - 32 * (off / 32) + len ≤ 32 * unitsIn off len := by
  rw [unitsIn, if_neg h]
  omega

/-- Bytes are read as they are stored. -/
theorem State.spxClean.scaleReadBy (hs : s.spxClean e) (reader off len : Nat) :
    ∃ t, s.scaleReadBy (classIn e.wins) reader [] off len = (t, s.spx.mem.read off len, []) ∧ s.onlyRead t := by
  obtain ⟨t, units, read⟩ := hs.readUnits reader off (off + len) (off / 32) (unitsIn off len)
  refine ⟨t, ?_, read⟩
  have bytes : ((s.spx.mem.read (32 * (off / 32)) (32 * unitsIn off len)).drop (off - 32 * (off / 32))).take len = s.spx.mem.read off len := by
    by_cases h : len = 0
    · subst h
      rw [List.take_zero]
      rfl
    · rw [Memory.read_drop_take _ (unitsIn_covers off h), Nat.add_sub_cancel' (Nat.mul_div_le off 32)]
  rw [State.scaleReadBy, units]
  dsimp only
  rw [bytes]

theorem State.spxClean.tileRead (hs : s.spxClean e) (head : s.tile.queue.head?.map TileEntry.wins = some e.wins) (scale : Bool)
    (off len : Nat) (poison : Option (Bool × Nat)) :
    ∃ t, s.tileRead scale off len poison = (t, s.spx.mem.read off len, false) ∧ s.onlyRead t := by
  have cls : (s.tile.queue.head?.map fun h => h.wins).getD [] = e.wins := by rw [head, Option.getD_some]
  unfold State.tileRead
  rw [cls]
  cases scale with
  | true =>
    obtain ⟨t, bytes, read⟩ := hs.scaleReadBy 1 off len
    exact ⟨t, by simp only [if_true, bytes], read⟩
  | false =>
    have charged := s.charge_onlyRead 5 (unitsIn off len)
    obtain ⟨t, bytes, read⟩ := (charged.spxClean hs).scaleReadBy 1 off len
    exact ⟨t, by simp only [Bool.false_eq_true, if_false, State.spxReadBy, bytes, charged.mem], charged.trans read⟩

end

end Sys2Proof.Machine
end

section
/-! PROOF. The elements of an accumulator tile in the pool (R94, R195): what a write of a chain changes of them. -/

namespace Sys2Proof.Machine

/-! ## The elements of a tile in the pool (R94, R195) -/

/-- Elements of a chain. -/
def NameInfo.area (i : NameInfo) : Nat := i.shape.rows * i.shape.cols

/-- Where element `x` of chain `ch`, row-major, lies in the pool. -/
def NameInfo.place (i : NameInfo) (cd ch x : Nat) : Nat := 4096 * cd + (ch * i.area + x) * i.fmt.bytes

/-- Element `x` of chain `ch`, row-major. -/
def poolElem (m : Memory) (cd : Nat) (i : NameInfo) (ch x : Nat) : Nat := leNat (m.read (i.place cd ch x) i.fmt.bytes)

theorem State.tileElement_eq (s : State) (cd : Nat) (i : NameInfo) (ch row col : Nat) :
    s.tileElement cd i ch row col = poolElem s.tile.pool cd i ch (row * i.shape.cols + col) := by
  rw [State.tileElement, poolElem, NameInfo.place, NameInfo.area, Nat.mul_assoc ch, Nat.add_assoc]

theorem chunksOf_read (m : Memory) (z n a : Nat) : chunksOf z n (m.read a (n * z)) = (List.range n).map fun x => m.read (a + x * z) z := by
  induction n generalizing a with
  | zero => rfl
  | succ n ih =>
    rw [Nat.succ_mul, Nat.add_comm (n * z), Memory.read_add, chunksOf, List.take_left' (m.read_length a z),
      List.drop_left' (m.read_length a z), ih, List.range_succ_eq_map, List.map_cons, List.map_map, Nat.zero_mul, Nat.add_zero]
    refine congrArg _ (List.map_congr_left fun x _ => ?_)
    rw [Function.comp_apply, Nat.succ_mul, Nat.add_assoc, Nat.add_comm z]

theorem readChain_eq (m : Memory) (cd : Nat) (i : NameInfo) (ch : Nat) :
    readChain m cd i ch = (List.range i.area).map (poolElem m cd i ch) := by
  simp only [readChain, chunksOf_read, List.map_map]
  refine List.map_congr_left fun x _ => ?_
  rw [Function.comp_apply, poolElem, NameInfo.place, Nat.add_mul, ← Nat.add_assoc]
  rfl

/-- The bytes of numbers side by side: those of one of them. -/
theorem flatMap_leBytes_take (z : Nat) (vs : List Nat) {x : Nat} (h : x < vs.length) :
    ((vs.flatMap fun v => leBytes v z).drop (x * z)).take z = leBytes vs[x] z := by
  induction vs generalizing x with
  | nil => exact absurd h (Nat.not_lt_zero x)
  | cons v vs ih =>
    rw [List.flatMap_cons]
    cases x with
    | zero => rw [Nat.zero_mul, List.drop_zero, List.take_left' (leBytes_length v z), List.getElem_cons_zero]
    | succ x =>
      rw [Nat.succ_mul, Nat.add_comm, ← List.drop_drop, List.drop_left' (leBytes_length v z), ih (Nat.lt_of_succ_lt_succ h),
        List.getElem_cons_succ]

theorem flatMap_leBytes_length (z : Nat) (vs : List Nat) : (vs.flatMap fun v => leBytes v z).length = vs.length * z := by
  simp [List.length_flatMap, leBytes_length]

theorem writeChain_eq (m : Memory) (cd : Nat) (i : NameInfo) (ch : Nat) (vs : List Nat) :
    writeChain m cd i ch vs = m.write (i.place cd ch 0) (vs.flatMap fun v => leBytes v i.fmt.bytes) := by
  rw [writeChain, NameInfo.place, NameInfo.area, Nat.add_zero]

theorem NameInfo.place_add (i : NameInfo) (cd ch x : Nat) : i.place cd ch x = i.place cd ch 0 + x * i.fmt.bytes := by
  rw [place, place, Nat.add_zero, Nat.add_mul, Nat.add_assoc]

/-- A chain ends before the chains that follow. -/
theorem NameInfo.place_chains (i : NameInfo) (cd : Nat) {ch ch' : Nat} (h : ch < ch') :
    i.place cd ch 0 + i.area * i.fmt.bytes ≤ i.place cd ch' 0 := by
  have chains : (ch * i.area + i.area) * i.fmt.bytes ≤ ch' * i.area * i.fmt.bytes :=
    Nat.mul_le_mul_right _ (by rw [← Nat.succ_mul]; exact Nat.mul_le_mul_right _ h)
  rw [Nat.add_mul] at chains
  rw [place, place, Nat.add_zero, Nat.add_zero]
  omega

/-- What a write of a chain leaves of the tile: its own elements as written, those of other chains as they were. -/
theorem poolElem_writeChain (m : Memory) (cd : Nat) (i : NameInfo) (ch : Nat) {f : Nat → Nat} (hf : ∀ x, f x < 256 ^ i.fmt.bytes)
    (ch' : Nat) {x : Nat} (hx : x < i.area) :
    poolElem (writeChain m cd i ch ((List.range i.area).map f)) cd i ch' x = if ch' = ch then f x else poolElem m cd i ch' x := by
  have len : ((List.range i.area).map f).length = i.area := by rw [List.length_map, List.length_range]
  have bytes : (((List.range i.area).map f).flatMap fun v => leBytes v i.fmt.bytes).length = i.area * i.fmt.bytes := by
    rw [flatMap_leBytes_length, len]
  have within : x * i.fmt.bytes + i.fmt.bytes ≤ i.area * i.fmt.bytes := by
    rw [← Nat.succ_mul]
    exact Nat.mul_le_mul_right _ hx
  rw [poolElem, poolElem, writeChain_eq, i.place_add cd ch' x]
  split
  case isTrue same =>
    rw [same, Memory.read_write_within m _ (by rwa [bytes]), flatMap_leBytes_take _ _ (by rwa [len]), leNat_leBytes,
      List.getElem_map, List.getElem_range, Nat.mod_eq_of_lt (hf x)]
  case isFalse other =>
    rw [Memory.read_write_other]
    rw [bytes]
    rcases Nat.lt_or_gt_of_ne other with before | after
    · have := i.place_chains cd before
      omega
    · have := i.place_chains cd after
      omega

theorem writeChain_get_other (m : Memory) (cd : Nat) (i : NameInfo) {ch a : Nat} {vs : List Nat} (len : vs.length = i.area) (hch : ch < i.chains)
    (h : a < 4096 * cd ∨ 4096 * cd + footprint i.shape i.fmt ≤ a) : (writeChain m cd i ch vs).get a = m.get a := by
  have chains : (ch + 1) * i.area ≤ i.chains * i.area := Nat.mul_le_mul_right _ hch
  have upTo : (ch * i.area + i.area) * i.fmt.bytes ≤ i.chains * i.area * i.fmt.bytes :=
    Nat.mul_le_mul_right _ (by rwa [Nat.succ_mul] at chains)
  have size : footprint i.shape i.fmt = i.chains * i.area * i.fmt.bytes := by
    rw [footprint, NameInfo.chains, NameInfo.area, ← Nat.mul_assoc (keptChains _ _)]
  rw [writeChain_eq]
  refine m.get_write_other _ _ _ ?_
  rw [flatMap_leBytes_length, len, NameInfo.place, Nat.add_zero]
  rw [size] at h
  rw [Nat.add_mul] at upTo
  omega

end Sys2Proof.Machine
end

section
/-! PROOF. One K-block of a running TMMA or TMMA.SEG over clean storage (R86, R123 to R126): its operands, its contributions, what it leaves. -/

namespace Sys2Proof.Machine

/-! ## The operands of a lane (R87 to R92, R110) -/

theorem State.operand_congr {s t : State} (mem : t.spx.mem = s.spx.mem) (ops : t.tile.ops = s.tile.ops) : t.operand = s.operand := by
  funext streamed code f n koff up l k
  rw [State.operand, State.operand, mem, ops]

theorem State.onlyRead.operand {s t : State} (h : s.onlyRead t) : t.operand = s.operand :=
  State.operand_congr h.mem (congrArg Tile.ops h.tile)

section
variable {s : State} {e : TileEntry}

theorem State.spxClean.streamBlock (hs : s.spxClean e) (head : s.tile.queue.head?.map TileEntry.wins = some e.wins) (cd code : Nat)
    (f : Stream) (n koff : Nat) (up : Bool) (l k : Nat) :
    ∃ t, s.streamBlock cd code f l k = (t, s.operand true code f n koff up l k) ∧ s.onlyRead t := by
  obtain ⟨t, elems, read⟩ := hs.tileRead head false (f.off + l * f.ls + k * f.ks) 32 (some (true, cd))
  have head' : t.tile.queue.head?.map TileEntry.wins = some e.wins := by rwa [read.tile]
  obtain ⟨u, scale, read'⟩ := (read.spxClean hs).tileRead head' true (f.soff + (l * f.ls + k * f.ks) / 32) 1 (some (true, cd))
  refine ⟨u, ?_, read.trans read'⟩
  simp only [State.streamBlock, elems, scale, read.mem, State.operand, if_true]
  rfl

theorem State.operand_tile (s : State) (code : Nat) (f : Stream) (n koff : Nat) (up : Bool) (l k : Nat) :
    s.operand false code f n koff up l k = s.tileBlock code n (l + if up then 16 else 0) (koff + k) := by
  cases up <;> rfl

/-- A lane's block, read from the scratchpad or taken from an operand tile. -/
theorem State.spxClean.lane (hs : s.spxClean e) (head : s.tile.queue.head?.map TileEntry.wins = some e.wins) (streamed : Bool)
    (cd code : Nat) (f : Stream) (n koff : Nat) (up : Bool) (l k : Nat) :
    ∃ t, (if streamed then s.streamBlock cd code f l k else (s, s.tileBlock code n (l + if up then 16 else 0) (koff + k)))
      = (t, s.operand streamed code f n koff up l k) ∧ s.onlyRead t := by
  cases streamed with
  | true => exact hs.streamBlock head cd code f n koff up l k
  | false => exact ⟨s, congrArg (Prod.mk s) (s.operand_tile code f n koff up l k).symm, s.onlyRead_refl⟩

end

theorem State.laneBlocks_onlyRead {s : State} {need : Nat → Bool} {get : State → Nat → State × LaneBlock} {val : Nat → LaneBlock}
    (h : ∀ t l, s.onlyRead t → ∃ u, get t l = (u, val l) ∧ t.onlyRead u) (ls : List Nat) {t : State} (ht : s.onlyRead t) :
    ∃ u, t.laneBlocks need get ls = (u, ls.map fun l => if need l then val l else ([], 0#8)) ∧ s.onlyRead u := by
  induction ls generalizing t with
  | nil => exact ⟨t, rfl, ht⟩
  | cons l ls ih =>
    by_cases hl : need l = true
    · obtain ⟨u, got, read⟩ := h t l ht
      obtain ⟨v, others, read'⟩ := ih (ht.trans read)
      exact ⟨v, by simp only [State.laneBlocks, hl, if_true, got, others, List.map_cons], read'⟩
    · obtain ⟨v, others, read'⟩ := ih ht
      exact ⟨v, by simp only [State.laneBlocks, hl, Bool.false_eq_true, if_false, others, List.map_cons], read'⟩

/-- The blocks of the lanes that are needed, from clean storage. -/
theorem State.spxClean.lanes {s : State} {e : TileEntry} (hs : s.spxClean e) (head : s.tile.queue.head?.map TileEntry.wins = some e.wins)
    (need : Nat → Bool) (streamed : Bool) (cd code : Nat) (f : Stream) (n koff : Nat) (up : Bool) (k lanes : Nat) :
    ∃ t, s.laneBlocks need (fun s l => if streamed then s.streamBlock cd code f l k
        else (s, s.tileBlock code n (l + if up then 16 else 0) (koff + k))) (List.range lanes)
      = (t, (List.range lanes).map fun l => if need l then s.operand streamed code f n koff up l k else ([], 0#8)) ∧ s.onlyRead t := by
  refine State.laneBlocks_onlyRead (fun t l read => ?_) _ s.onlyRead_refl
  rw [← read.operand]
  exact (read.spxClean hs).lane (by rwa [read.tile]) streamed cd code f n koff up l k

/-! ## One K-block's contributions (R123 to R126) -/

theorem stepElem_lt (i : NameInfo) (sat : Bool) (ea eb : Byte) (xs ys : List Int) (n : Nat) :
    (stepElem i sat ea eb xs ys n).1 < 256 ^ i.fmt.bytes := by
  unfold stepElem
  cases i.fmt with
  | f32c =>
    have pair (p : Pair) : ofPair p < 256 ^ 8 := by
      have := p.s.isLt
      have := p.e.isLt
      rw [ofPair]
      omega
    exact pair _
  | i32 => exact BitVec.isLt _
  | x128 => exact BitVec.isLt _

theorem poolElem_lt (m : Memory) (cd : Nat) (i : NameInfo) (ch x : Nat) : poolElem m cd i ch x < 256 ^ i.fmt.bytes := by
  have bound := leNat_lt (m.read (i.place cd ch x) i.fmt.bytes)
  rwa [m.read_length] at bound

theorem addBlock_elems (i : NameInfo) (sat : Bool) (rowOn colOn : Nat → Bool) (as bs : List LaneBlock) (old : Nat → Nat) (n : Nat) :
    (addBlock i sat rowOn colOn as bs ((List.range n).map old)).elems = (List.range n).map fun x =>
      let a := as.getD (x / i.shape.cols) ([], 0#8)
      let b := bs.getD (x % i.shape.cols) ([], 0#8)
      if rowOn (x / i.shape.cols) && colOn (x % i.shape.cols) then (stepElem i sat a.2 b.2 a.1 b.1 (old x)).1 else old x := by
  rw [addBlock]
  refine List.ext_getElem (by simp) fun x h1 h2 => ?_
  simp only [List.getElem_map, List.getElem_zipIdx, List.getElem_range, Nat.zero_add]
  split <;> rfl

theorem getD_map_range (f : Nat → LaneBlock) {n l : Nat} (h : l < n) (d : LaneBlock) : ((List.range n).map f).getD l d = f l := by
  simp [List.getD_eq_getElem?_getD, h]

/-- The entry without what it collects for its completion: its flags and its first invalid product (R107, R116). -/
def TileEntry.unnoted (e : TileEntry) : TileEntry := { e with flags := 0, invalid := false, faultpos := none }

/-- Only what the head collects for its completion differs. -/
def sameButNotes (q q' : List TileEntry) : Prop :=
  q'.head?.map TileEntry.unnoted = q.head?.map TileEntry.unnoted ∧ q'.tail = q.tail

theorem sameButNotes.trans {q q' q'' : List TileEntry} (h : sameButNotes q q') (h' : sameButNotes q' q'') : sameButNotes q q'' :=
  ⟨h'.1.trans h.1, h'.2.trans h.2⟩

theorem sameButNotes.cons {e : TileEntry} {q q' : List TileEntry} (h : sameButNotes (e :: q) q') :
    ∃ e', q' = e' :: q ∧ e'.unnoted = e.unnoted := by
  obtain ⟨head, tail⟩ := h
  cases q' with
  | nil => cases head
  | cons e' q' => exact ⟨e', congrArg _ tail, Option.some.inj head⟩

theorem sameButNotes.wins {q q' : List TileEntry} (h : sameButNotes q q') : q'.head?.map TileEntry.wins = q.head?.map TileEntry.wins := by
  have wins := congrArg (Option.map TileEntry.wins) h.1
  rwa [Option.map_map, Option.map_map] at wins

/-- The state with another pool and another queue. -/
def State.withPoolQueue (s : State) (p : Memory) (q : List TileEntry) : State := { s with tile := { s.tile with pool := p, queue := q } }

/-- `t` is `s` after work of the running instruction: beside what reads change only the pool and what the head collects. -/
def State.works (s t : State) : Prop :=
  (s.withPoolQueue t.tile.pool t.tile.queue).onlyRead t ∧ sameButNotes s.tile.queue t.tile.queue

theorem State.onlyRead.withPoolQueue {s t : State} (h : s.onlyRead t) (p : Memory) (q : List TileEntry) :
    (s.withPoolQueue p q).onlyRead (t.withPoolQueue p q) :=
  ⟨congrArg (fun w : State => w.withPoolQueue p q) h.1, h.2⟩

theorem State.onlyRead.works {s t : State} (h : s.onlyRead t) : s.works t := by
  rw [State.works, h.tile]
  exact ⟨h, rfl, rfl⟩

theorem State.works.trans {s t u : State} (h : s.works t) (h' : t.works u) : s.works u :=
  ⟨(h.1.withPoolQueue _ _).trans h'.1, h.2.trans h'.2⟩

theorem State.works.spxClean {s t : State} (h : s.works t) {e : TileEntry} (hs : s.spxClean e) : t.spxClean e := h.1.spxClean hs
theorem State.works.operand {s t : State} (h : s.works t) : t.operand = s.operand := h.1.operand
theorem State.works.reg {s t : State} (h : s.works t) (k : Nat) : t.reg k = s.reg k := h.1.reg k
theorem State.works.maskr {s t : State} (h : s.works t) : t.tile.maskr = s.tile.maskr := (congrArg Tile.maskr h.1.tile :)
theorem State.works.maskc {s t : State} (h : s.works t) : t.tile.maskc = s.tile.maskc := (congrArg Tile.maskc h.1.tile :)

theorem State.setPool_works (s : State) (p : Memory) : s.works (s.setPool p) := ⟨⟨rfl, fun _ => rfl⟩, rfl, rfl⟩
theorem State.chargeCells_works (s : State) (n m : Nat) : s.works (s.chargeCells n m) := ⟨⟨rfl, fun _ => rfl⟩, rfl, rfl⟩

theorem State.modHead_works (s : State) {f : TileEntry → TileEntry} (hf : ∀ e, (f e).unnoted = e.unnoted) : s.works (s.modHead f) := by
  refine ⟨⟨rfl, fun _ => rfl⟩, ?_⟩
  rw [State.modHead]
  dsimp only
  cases s.tile.queue with
  | nil => exact ⟨rfl, rfl⟩
  | cons e q => exact ⟨congrArg some (hf e), rfl⟩

theorem State.headFlags_works (s : State) (fl : TFlags) : s.works (s.headFlags fl) := s.modHead_works fun _ => rfl

theorem State.noteInvalid_works (s : State) (k : Nat) (x : Option (Nat × Nat × Nat)) : s.works (s.noteInvalid k x) := by
  cases x with
  | none => exact s.onlyRead_refl.works
  | some x => exact s.modHead_works fun _ => rfl

theorem State.noteInvalid_pool (s : State) (k : Nat) (x : Option (Nat × Nat × Nat)) : (s.noteInvalid k x).tile.pool = s.tile.pool := by
  cases x <;> rfl

/-- Row `r` is fed in the current pass; row `r` and column `j` are (R101, R102). -/
def State.rowFed (s : State) (e : TileEntry) (r : Nat) : Bool := s.rowOn e r && e.passMask.getLsbD r
def State.feeds (s : State) (e : TileEntry) (r j : Nat) : Bool := s.rowFed e r && s.colOn e j

/-- The blocks of row `r` and of column `j` in K-block `k` of an instruction. -/
def State.rowBlock (s : State) (e : TileEntry) (r k : Nat) : LaneBlock :=
  s.operand (e.ctl.getLsbD 23) (fld e.ctl 28 4) e.a (fld e.ctl 20 3) (fld e.ctl 10 2) (e.ctl.getLsbD 15) r k
def State.colBlock (s : State) (e : TileEntry) (j k : Nat) : LaneBlock :=
  s.operand (e.ctl.getLsbD 19) (fld e.ctl 24 4) e.bStream (fld e.ctl 16 3) (fld e.ctl 10 2) (e.ctl.getLsbD 14) j k

/-- The number of a fed element (r, j) after K-block `k`. -/
def State.stepped (s : State) (e : TileEntry) (i : NameInfo) (r j k x : Nat) : Nat :=
  (stepElem i ((s.reg 0x4100).getLsbD 11) (s.rowBlock e r k).2 (s.colBlock e j k).2 (s.rowBlock e r k).1 (s.colBlock e j k).1 x).1

/-- The number of element (r, j) after K-block `k`: one that is not fed stays. -/
def State.added (s : State) (e : TileEntry) (i : NameInfo) (r j k x : Nat) : Nat :=
  if s.feeds e r j then s.stepped e i r j k x else x

theorem State.added_lt (s : State) (e : TileEntry) (i : NameInfo) (r j k : Nat) {x : Nat} (h : x < 256 ^ i.fmt.bytes) :
    s.added e i r j k x < 256 ^ i.fmt.bytes := by
  rw [State.added]
  split
  · exact stepElem_lt i _ _ _ _ _ x
  · exact h

theorem State.works.feeds {s t : State} (h : s.works t) : t.feeds = s.feeds := by
  funext e r j
  simp only [State.feeds, State.rowFed, State.rowOn, State.colOn, h.maskr, h.maskc]

theorem State.works.stepped {s t : State} (h : s.works t) : t.stepped = s.stepped := by
  funext e i r j k x
  simp only [State.stepped, State.rowBlock, State.colBlock, h.operand, h.reg]

theorem State.works.added {s t : State} (h : s.works t) : t.added = s.added := by
  funext e i r j k x
  rw [State.added, State.added, h.feeds, h.stepped]

/-- The chain that K-block `k` belongs to (R93). -/
def NameInfo.chainOf (i : NameInfo) (k : Nat) : Nat := if i.chains = 1 then 0 else k % i.shape.chains

theorem Shape.cols_pos (sh : Shape) : 0 < sh.cols := by cases sh <;> decide

/-- What K-block `k` gives the elements of its chain, from the blocks of the lanes that are fed. -/
def State.blockOut (s : State) (e : TileEntry) (i : NameInfo) (k : Nat) : BlockOut :=
  addBlock i ((s.reg 0x4100).getLsbD 11) (s.rowFed e) (s.colOn e)
    ((List.range i.shape.rows).map fun r => if s.rowFed e r then s.rowBlock e r k else ([], 0#8))
    ((List.range i.shape.cols).map fun j => if s.colOn e j then s.colBlock e j k else ([], 0#8))
    (readChain s.tile.pool (ctlCd e.ctl) i (i.chainOf k))

theorem State.blockOut_elems (s : State) (e : TileEntry) (i : NameInfo) (k : Nat) :
    (s.blockOut e i k).elems = (List.range i.area).map fun x =>
      s.added e i (x / i.shape.cols) (x % i.shape.cols) k (poolElem s.tile.pool (ctlCd e.ctl) i (i.chainOf k) x) := by
  rw [State.blockOut, readChain_eq, addBlock_elems]
  refine List.map_congr_left fun x hx => ?_
  have row : x / i.shape.cols < i.shape.rows := Nat.div_lt_of_lt_mul (by rw [Nat.mul_comm]; exact List.mem_range.mp hx)
  have col : x % i.shape.cols < i.shape.cols := Nat.mod_lt x i.shape.cols_pos
  dsimp only
  rw [getD_map_range _ row, getD_map_range _ col, State.added, State.feeds]
  by_cases fed : (s.rowFed e (x / i.shape.cols) && s.colOn e (x % i.shape.cols)) = true
  · obtain ⟨rowFed, colOn⟩ := Bool.and_eq_true_iff.mp fed
    rw [if_pos fed, if_pos fed, if_pos rowFed, if_pos colOn, State.stepped]
  · rw [if_neg fed, if_neg fed]

section
variable {s : State} {e : TileEntry}

/-- A K-block of the head over clean storage: beside what its reads change, the chain is written and the head notes what was found. -/
theorem State.spxClean.oneBlock_eq (hs : s.spxClean e) (head : s.tile.queue.head?.map TileEntry.wins = some e.wins) (i : NameInfo) (k : Nat) :
    ∃ (u : State) (n m : Nat), s.onlyRead u ∧ s.oneBlock e i k
      = (((u.setPool (writeChain s.tile.pool (ctlCd e.ctl) i (i.chainOf k) (s.blockOut e i k).elems)).headFlags
          (s.blockOut e i k).flags).noteInvalid k (s.blockOut e i k).invalid).chargeCells n m := by
  obtain ⟨t, rows, read⟩ := hs.lanes head (s.rowFed e) (e.ctl.getLsbD 23) (ctlCd e.ctl) (fld e.ctl 28 4)
    e.a (fld e.ctl 20 3) (fld e.ctl 10 2) (e.ctl.getLsbD 15) k i.shape.rows
  obtain ⟨u, cols, read'⟩ := (read.spxClean hs).lanes (by rwa [read.tile]) (s.colOn e) (e.ctl.getLsbD 19) (ctlCd e.ctl)
    (fld e.ctl 24 4) e.bStream (fld e.ctl 16 3) (fld e.ctl 10 2) (e.ctl.getLsbD 14) k i.shape.cols
  have both := read.trans read'
  unfold State.rowFed at rows
  rw [read.operand] at cols
  refine ⟨u, if bxWide (fld e.ctl 28 4) then 2 else 3,
    16 * (((List.range i.shape.rows).filter (s.rowFed e)).length * ((List.range i.shape.cols).filter (s.colOn e)).length), both, ?_⟩
  simp only [State.oneBlock, rows, cols, both.tile, both.reg]
  rfl

/-- A K-BLOCK of the head over clean storage: its chain takes its contributions, nothing else of the pool changes. -/
theorem State.spxClean.oneBlock (hs : s.spxClean e) (head : s.tile.queue.head?.map TileEntry.wins = some e.wins) (i : NameInfo) (k : Nat) :
    s.works (s.oneBlock e i k) ∧ (s.oneBlock e i k).tile.pool
      = writeChain s.tile.pool (ctlCd e.ctl) i (i.chainOf k) ((List.range i.area).map fun x =>
          s.added e i (x / i.shape.cols) (x % i.shape.cols) k (poolElem s.tile.pool (ctlCd e.ctl) i (i.chainOf k) x)) := by
  obtain ⟨u, n, m, read, block⟩ := hs.oneBlock_eq head i k
  rw [block, ← s.blockOut_elems]
  refine ⟨?_, State.noteInvalid_pool _ k _⟩
  exact ((read.works.trans (u.setPool_works _)).trans (State.headFlags_works _ _)).trans
    ((State.noteInvalid_works _ k _).trans (State.chargeCells_works _ n m))

end

end Sys2Proof.Machine
end

section
/-! PROOF. A block end adds its group's contributions (O58; R86, R93, R94). -/

namespace Sys2Proof.Machine

/-! ## A group of K-blocks -/

theorem NameInfo.chains_cases (i : NameInfo) : i.chains = 1 ∨ i.chains = i.shape.chains := by
  rw [NameInfo.chains, keptChains]
  split
  · exact .inr rfl
  · exact .inl rfl

theorem NameInfo.chainOf_lt (i : NameInfo) (k : Nat) : i.chainOf k < i.chains := by
  rw [NameInfo.chainOf]
  split
  case isTrue one => rw [one]; exact Nat.one_pos
  case isFalse many =>
    rw [i.chains_cases.resolve_left many]
    exact Nat.mod_lt _ (by cases i.shape <;> decide)

/-- A K-block belongs to a kept chain. -/
theorem NameInfo.chainOf_beq (i : NameInfo) {ch : Nat} (h : ch < i.chains) (k : Nat) :
    (i.chainOf k == ch) = (i.chains == 1 || k % i.shape.chains == ch) := by
  rw [NameInfo.chainOf]
  split
  case isTrue one =>
    have first : ch = 0 := by omega
    simp [one, first]
  case isFalse many => simp [many]

/-- What an instruction's work on a group does, K-block after K-block. -/
def State.addBlocks (s : State) (e : TileEntry) (i : NameInfo) (ks : List Nat) : State := ks.foldl (fun s k => s.oneBlock e i (e.kdone + k)) s

/-- A GROUP'S K-BLOCKS over clean storage: every element takes those of its chain in turn, everything outside the tile stays. -/
theorem State.spxClean.addBlocks {s : State} {e : TileEntry} (hs : s.spxClean e)
    (head : s.tile.queue.head?.map TileEntry.wins = some e.wins) (i : NameInfo) (ks : List Nat) :
    s.works (s.addBlocks e i ks)
      ∧ (∀ ch x, x < i.area → poolElem (s.addBlocks e i ks).tile.pool (ctlCd e.ctl) i ch x
        = (ks.filter fun k => i.chainOf (e.kdone + k) == ch).foldl
            (fun v k => s.added e i (x / i.shape.cols) (x % i.shape.cols) (e.kdone + k) v) (poolElem s.tile.pool (ctlCd e.ctl) i ch x))
      ∧ ∀ a, a < 4096 * ctlCd e.ctl ∨ 4096 * ctlCd e.ctl + footprint i.shape i.fmt ≤ a →
        (s.addBlocks e i ks).tile.pool.get a = s.tile.pool.get a := by
  induction ks generalizing s with
  | nil => exact ⟨s.onlyRead_refl.works, fun _ _ _ => rfl, fun _ _ => rfl⟩
  | cons k ks ih =>
    obtain ⟨works, pool⟩ := hs.oneBlock head i (e.kdone + k)
    obtain ⟨works', elems, outside⟩ := ih (works.spxClean hs) (works.2.wins.trans head)
    have next : s.addBlocks e i (k :: ks) = (s.oneBlock e i (e.kdone + k)).addBlocks e i ks := rfl
    rw [next]
    refine ⟨works.trans works', fun ch x hx => ?_, fun a ha => ?_⟩
    · rw [elems ch x hx, works.added, pool, poolElem_writeChain _ _ _ _ (fun x => s.added_lt e i _ _ _ (poolElem_lt _ _ _ _ x)) ch hx,
        List.filter_cons]
      by_cases mine : i.chainOf (e.kdone + k) = ch
      · rw [if_pos mine.symm, if_pos (beq_iff_eq.mpr mine), List.foldl_cons, mine]
      · rw [if_neg (Ne.symm mine), if_neg (by simpa using mine)]
    · rw [outside a ha, pool]
      exact writeChain_get_other _ _ i (by rw [List.length_map, List.length_range]) (i.chainOf_lt _) ha

/-- An element that is not fed stays; one that is fed is stepped. -/
theorem State.foldl_added (s : State) (e : TileEntry) (i : NameInfo) (r j : Nat) (ks : List Nat) (x : Nat) :
    ks.foldl (fun v k => s.added e i r j (e.kdone + k) v) x
      = if s.feeds e r j then ks.foldl (fun v k => s.stepped e i r j (e.kdone + k) v) x else x := by
  split
  case isTrue fed => simp only [State.added, fed, if_true]
  case isFalse idle => simp only [State.added, idle, Bool.false_eq_true, if_false, List.foldl_fixed]

/-! ## The block end -/

theorem join64_hi_lo (v : DWord) : join64 (hi32 v) (lo32 v) = v := by
  refine BitVec.eq_of_getLsbD_eq fun n hn => ?_
  rw [join64, hi32, lo32, BitVec.getLsbD_append, BitVec.getLsbD_extractLsb', BitVec.getLsbD_setWidth]
  by_cases low : n < 32
  · simp [low]
  · have high : n - 32 < 32 := by omega
    simp [low, high, Nat.add_sub_cancel' (Nat.le_of_not_lt low)]

theorem State.setReg64_reg64 (s : State) (k : Nat) (v : DWord) : (s.setReg64 k v).reg64 k = v := by
  rw [State.reg64, State.setReg64, State.setReg_reg, State.setReg_reg_ne _ _ _ _ (by omega), State.setReg_reg, join64_hi_lo]


/-- The state at the block end, once the group's K-blocks have been added. -/
def State.endGroup (t : State) (i : NameInfo) (n : Nat) : State :=
  let t := t.bump64 0x4130 (if i.shape = .s32x64 then 32 else 16)
  (({ t with tile := { t.tile with stopped := t.tile.draining } } : State).charge 4 ((footprint i.shape i.fmt + 255) / 256)).modHead
    fun e => e.advance n

theorem State.blockEnd_eq {s : State} {e : TileEntry} {q : List TileEntry} {i : NameInfo} (queue : s.tile.queue = e :: q) (busy : s.tile.busy = true)
    (op : e.op = .tmma ∨ e.op = .tmmaSeg) (more : e.allAdded = false) (act : s.act ≠ 0) (goesOn : (s.tile.draining && s.tile.stopped) = false)
    (name : s.tile.engine.name (ctlCd e.ctl) = some i) :
    s.blockEnd =
      let n := min i.shape.chains (e.kb - e.kdone)
      (s.addBlocks e i (List.range n)).endGroup i n := by
  have runs : (!s.tile.busy || !(e.op == .tmma || e.op == .tmmaSeg) || e.allAdded || s.act == 0 || (s.tile.draining && s.tile.stopped)) = false := by
    rcases op with op | op <;> simp [busy, op, more, act, goesOn]
  have shape : (i.shape == .s32x64) = decide (i.shape = .s32x64) := rfl
  unfold State.blockEnd
  simp only [queue, name, runs, Bool.false_eq_true, if_false, shape, decide_eq_true_eq]
  rfl

theorem TileEntry.advance_unnoted (e : TileEntry) (n : Nat) : (e.advance n).unnoted = e.unnoted.advance n :=
  apply_ite TileEntry.unnoted _ _ _

theorem TileEntry.advance_itag (e : TileEntry) (n : Nat) : (e.advance n).itag = e.itag := by
  unfold TileEntry.advance
  dsimp only
  split <;> rfl

theorem TileEntry.advance_ctl (e : TileEntry) (n : Nat) : (e.advance n).ctl = e.ctl := by
  unfold TileEntry.advance
  dsimp only
  split <;> rfl

/-- What the head has noted has no part in its progress. -/
theorem TileEntry.advance_progress {e e' : TileEntry} (h : e'.unnoted = e.unnoted) (n : Nat) :
    (e'.advance n).kdone = (e.advance n).kdone ∧ (e'.advance n).pass = (e.advance n).pass
      ∧ (e'.advance n).itag = e.itag ∧ (e'.advance n).ctl = e.ctl := by
  have same : (e'.advance n).unnoted = (e.advance n).unnoted := by rw [advance_unnoted, advance_unnoted, h]
  exact ⟨(congrArg TileEntry.kdone same :), (congrArg TileEntry.pass same :),
    (congrArg TileEntry.itag same).trans (e.advance_itag n), (congrArg TileEntry.ctl same).trans (e.advance_ctl n)⟩

theorem State.works.seen {s t : State} (h : s.works t) : { t.seen with pool := s.seen.pool } = s.seen :=
  (congrArg (fun w : State => { w.seen with pool := s.seen.pool }) h.1.1 :)

theorem State.works.reg64 {s t : State} (h : s.works t) (k : Nat) : t.reg64 k = s.reg64 k := by
  rw [State.reg64, State.reg64, h.reg, h.reg]

theorem State.endGroup_pool (t : State) (i : NameInfo) (n : Nat) : (t.endGroup i n).tile.pool = t.tile.pool := rfl

theorem State.endGroup_seen (t : State) (i : NameInfo) (n : Nat) : (t.endGroup i n).seen = t.seen := rfl

theorem State.endGroup_queue {t : State} {e : TileEntry} {q : List TileEntry} (h : t.tile.queue = e :: q) (i : NameInfo) (n : Nat) :
    (t.endGroup i n).tile.queue = e.advance n :: q := by
  have same : ((t.bump64 0x4130 (if i.shape = .s32x64 then 32 else 16)).tile.queue) = e :: q := h
  simp only [State.endGroup, State.modHead, State.charge, same]

theorem State.endGroup_reg64 (t : State) (i : NameInfo) (n : Nat) :
    (t.endGroup i n).reg64 0x4130 = t.reg64 0x4130 + (if i.shape = .s32x64 then 32#64 else 16#64) := by
  refine (t.setReg64_reg64 0x4130 _).trans (congrArg (t.reg64 0x4130 + ·) ?_)
  exact apply_ite w64 _ 32 16

theorem State.feeds_eq (s : State) (e : TileEntry) (r j : Nat) :
    s.feeds e r j = ((!e.ctl.getLsbD 13 || (s.tile.maskr.getLsbD r && s.tile.maskc.getLsbD j)) && e.passMask.getLsbD r) := by
  rw [State.feeds, State.rowFed, State.rowOn, State.colOn]
  cases e.ctl.getLsbD 13 <;> simp [Bool.and_right_comm]

/-- Settles O58: every K-block of the group writes its chain alone (`State.spxClean.oneBlock`), so that by induction on the group every element
takes the contributions of its chain in turn (`State.spxClean.addBlocks`); then KDONE, PASS and the array's cycles move on. -/
theorem blockEndAddsItsGroup : Obligations.BlockEndAddsItsGroup := by
  unfold Obligations.BlockEndAddsItsGroup
  intro s e q i c cd n fed a b queue busy op more act goesOn name clean
  have head : s.tile.queue.head?.map TileEntry.wins = some e.wins := by rw [queue]; rfl
  obtain ⟨works, elems, outside⟩ := clean.addBlocks head i (List.range n)
  obtain ⟨e', queue', noted⟩ := (queue ▸ works.2).cons
  have progress := TileEntry.advance_progress noted n
  have ended : s.blockEnd = (s.addBlocks e i (List.range n)).endGroup i n := State.blockEnd_eq queue busy op more act goesOn name
  refine ⟨_, congrArg Host.Outcome.next ended, ⟨_, State.endGroup_queue queue' i n, progress⟩, ?_, fun ch r j hch hr hj => ?_, outside,
    works.seen⟩
  · rw [State.endGroup_reg64, works.reg64]
  have inside : r * i.shape.cols + j < i.area := by
    have rows : (r + 1) * i.shape.cols ≤ i.shape.rows * i.shape.cols := Nat.mul_le_mul_right _ hr
    rw [Nat.succ_mul] at rows
    rw [NameInfo.area]
    omega
  have row : (r * i.shape.cols + j) / i.shape.cols = r := by
    rw [Nat.mul_comm, Nat.mul_add_div i.shape.cols_pos, Nat.div_eq_of_lt hj, Nat.add_zero]
  have col : (r * i.shape.cols + j) % i.shape.cols = j := by
    rw [Nat.mul_comm, Nat.mul_add_mod, Nat.mod_eq_of_lt hj]
  rw [State.tileElement_eq, State.tileElement_eq, State.endGroup_pool, elems ch _ inside, row, col, State.foldl_added, s.feeds_eq]
  simp only [i.chainOf_beq hch]
  rfl

end Sys2Proof.Machine
end

section
/-! PROOF. Crates and TSYNC (O57; R167 to R175, R188): what a commit and the error of a read leave of the tile engine and the store buffer, the header and
the rows as TCRATE goes on with them, a TAKE's rows, its wait, TSYNC's end. -/

namespace Sys2Proof.Machine

/-! ## The tile engine and the store buffer through events and commits -/

/-- What a tile instruction leaves behind beside what software sees: the tile engine, the store buffer. -/
def State.tileAndStores (s : State) : Tile × List SbEntry := (s.tile, s.cpu.sb)

theorem OnlyRegs.tileAndStores {s t : State} {ks : List Nat} (h : OnlyRegs s t ks) : t.tileAndStores = s.tileAndStores := by
  obtain ⟨⟨m, rfl⟩, -⟩ := h
  rfl

theorem State.raiseErrs_tileAndStores (s : State) (p : Nat) (es : List ErrEvt) : (s.raiseErrs p es).tileAndStores = s.tileAndStores :=
  (s.raiseErrs_onlyRegs p es).tileAndStores

theorem State.raiseErr_tileAndStores (s : State) (p : Nat) (e : ErrEvt) : (s.raiseErr p e).tileAndStores = s.tileAndStores :=
  (State.capture_onlyRegs _ p e).tileAndStores

theorem State.addLedger_tileAndStores (s : State) (type channel level : Nat) (code : Word) (addr : DWord) (fromFw : Bool) :
    (s.addLedger type channel level code addr fromFw).1.tileAndStores = s.tileAndStores := by
  unfold State.addLedger
  split <;> rfl

theorem State.machineCheck_tileAndStores (s : State) (kind : Nat) (tile : Bool) (tag : Nat) (addr : DWord) :
    (s.machineCheck kind tile tag addr).tileAndStores = s.tileAndStores := by
  have setReg (t : State) (k : Nat) (v : Word) : (t.setReg k v).tileAndStores = t.tileAndStores := rfl
  have due (t : State) : ({ t with cpu := { t.cpu with mchkDue := true } } : State).tileAndStores = t.tileAndStores := rfl
  have out : ({ s with mchkOut := true } : State).tileAndStores = s.tileAndStores := rfl
  simp only [State.machineCheck, State.bump, State.addReg, State.raise, State.orReg, State.setReg64, apply_ite State.tileAndStores, ite_self,
    State.raiseErrs_tileAndStores, State.addLedger_tileAndStores, State.raiseErr_tileAndStores, setReg, due, out]

theorem State.poisonEvt_tileAndStores (s : State) (acc : Bool) (n : Nat) (tag : Byte) (addr : DWord) :
    (s.poisonEvt acc n tag addr).tileAndStores = s.tileAndStores :=
  (State.machineCheck_tileAndStores _ _ _ _ _).trans (State.raiseErr_tileAndStores _ _ _)

theorem State.raiseBad_tileAndStores (s : State) (e : TileEntry) : (s.raiseBad e).tileAndStores = s.tileAndStores := by
  unfold State.raiseBad
  split
  · exact State.poisonEvt_tileAndStores _ _ _ _ _
  · exact State.machineCheck_tileAndStores _ _ _ _ _
  · rfl

theorem State.setG_tileAndStores (s : State) (n : Fin 32) (v : DWord) : (s.setG n v).tileAndStores = s.tileAndStores := by
  unfold State.setG
  split <;> rfl

theorem loopBack_sb_wait (c : Cpu) (nxt : DWord) : (loopBack c nxt).sb = c.sb ∧ (loopBack c nxt).wait = c.wait := by
  unfold loopBack
  split
  · split <;> exact ⟨rfl, rfl⟩
  · exact ⟨rfl, rfl⟩

theorem State.endStep_tileAndStores (s : State) : s.endStep.tileAndStores = s.tileAndStores := by
  unfold State.endStep
  split <;> rfl

theorem State.endStep_wait (s : State) : s.endStep.cpu.wait = s.cpu.wait := by
  unfold State.endStep
  split <;> rfl

theorem State.commit_tileAndStores (s : State) (len : Nat) : (s.commit len).tileAndStores = s.tileAndStores :=
  (State.endStep_tileAndStores _).trans (congrArg (s.tile, ·) (loopBack_sb_wait s.retireInstr.cpu _).1)

/-- Nothing waits at TR after a commit. -/
theorem State.commit_wait (s : State) (len : Nat) : (s.commit len).cpu.wait = .none :=
  (State.endStep_wait _).trans (loopBack_sb_wait s.retireInstr.cpu _).2

/-! ## The steps of TCRATE at TR (R171) -/

/-- A tile instruction that nothing of R111's first steps stops goes on with its own steps. -/
theorem State.tileInstr_goesOn {s : State} {o : TileArgs} {gs : List (Fin 32)} {undef : State → Bool} {k : State → State} (full : s.tileFull = false)
    (issues : s.issues 8 gs []) (msb : o.spec.msb = false) (defined : undef (s.arrived 8) = false) (on : (s.arrived 8).tileOn = true) :
    s.tileInstr o gs undef k = k (s.arrived 8) := by
  rw [State.tileInstr_of_issues full issues, if_neg (by simp [msb, defined]), if_neg (by simp [on])]

theorem State.hasHeader.seen {u w : State} {va : DWord} {tid : BitVec 16} {take : Bool} {h : CrateHdr} (header : u.hasHeader w va tid take h) :
    w.seen = u.seen := by
  obtain ⟨-, -, -, -, rfl, -⟩ := header
  rw [State.spxRead_seen, State.checkRanges_seen]

/-- Step 3: with the header read in order, what follows goes on with it. -/
theorem State.hasHeader.withHeader {u w : State} {va : DWord} {take : Bool} {h : CrateHdr} (header : u.hasHeader w va u.cpu.tid take h)
    (k : State → CrateHdr → List Nat → State) : u.withHeader va take k = k w h [] := by
  obtain ⟨onGranule, ⟨bs, base⟩, stores, ahead, read, clean, reserved, fields, size, head⟩ := header
  have off : offOf (nthBase (some (va.toNat, h.off) :: bs) 0) va.toNat = h.off := by simp [nthBase, offOf]
  have granule : ([aligned 5 va].find? fun x => !x.2.2) = none := by simp [aligned, onGranule]
  rw [congrArg CrateHdr.size fields] at size head
  rw [congrArg CrateHdr.head fields] at head
  unfold State.withHeader State.withAligned State.withRanges
  simp only [granule, base, off, stores, ahead, reserved, size, Nat.not_le.mpr head, List.isEmpty_nil, bne_self_eq_false, Bool.not_true,
    Bool.or_false, decide_false, Bool.false_eq_true, if_false]
  rw [read, clean, ← fields]

theorem State.hasCrate.seen {s z : State} {h : CrateHdr} {take : Bool} {first kstart kb n reason : Nat} {r : CrateScan}
    (crate : s.hasCrate z h take first kstart kb n reason r) : z.seen = s.seen := by
  obtain ⟨x, y, -, records, -⟩ := crate
  have read := congrArg (fun q => q.1.seen) records
  rw [← read, State.readBrecs_seen, State.scanRows_seen]

/-- Steps 5 and 6: with the rows scanned and the B records read, what follows goes on with them. -/
theorem State.hasCrate.withCrate {s z : State} {h : CrateHdr} {take : Bool} {first kstart kb n reason : Nat} {r : CrateScan}
    (crate : s.hasCrate z h take first kstart kb n reason r) (k : State → CrateScan → State) :
    s.withCrate h take first kstart kb n reason k = k z r := by
  obtain ⟨x, y, rows, records, rfl⟩ := crate
  simp only [State.withCrate, rows, records]

/-- What TCRATE's entry reads: its rows' A data and scales. -/
theorem State.crateEntry_reads (z : State) (c : Word) (h : CrateHdr) (bad : List Nat) (first kstart kb : Nat) (r : CrateScan) (sh : Shape) :
    (z.crateEntry c h bad first kstart kb r).reads sh = r.rows.flatMap fun y => [(y.a, 32 * kb), (y.sc, kb)] :=
  List.flatMap_map ..

/-! ## A TAKE's rows (R168, R169) -/

/-- A TAKE waits at TR with what it has read. -/
def State.holdTake (s : State) (x : TakeWait) : State := { s with cpu := { s.cpu with wait := .take x } }

theorem State.holdTake_self {s : State} {x : TakeWait} (wait : s.cpu.wait = .take x) : s.holdTake x = s := by
  rw [State.holdTake, ← wait]

/-- The writes of HEAD past the rows taken and of their VALID bytes as 0. -/
def State.takeWrites (z : State) (h : CrateHdr) (r : CrateScan) : List (Part × List Byte) :=
  (z.spxPart (h.off + 0xC) 4, leBytes ((h.head + r.rows.length) % h.size) 4)
    :: r.rows.map fun y => (z.spxPart (y.slotOff + 0x1C) 1, [0#8])

/-- The effects of a TAKE that leaves TR with the rows of `r`: the counter, the store, the queue entry, G[OPB]. -/
def State.rowsTaken (z : State) (x : TakeWait) (r : CrateScan) : State :=
  let n := ctr (fld x.args.ctl 8 6)
  let e := z.crateEntry x.args.ctl x.hdr x.bad x.hdr.head 0 x.kb r
  let t := (z.syncSet n (z.sync[n] - w32 r.rows.length)).pushSb (.store (z.takeWrites x.hdr r) false)
  ((t.pushTile e).raiseBad e).setG (tOpb x.args) (crateResult x.hdr.head r.reason r.segs.length r.rows.length)

theorem State.rowsTaken_seen (z : State) (x : TakeWait) (r : CrateScan) :
    let n := ctr (fld x.args.ctl 8 6)
    (z.rowsTaken x r).seen = (z.seen.putSync n (z.seen.sync[n] - w32 r.rows.length)).putG (tOpb x.args)
      (crateResult x.hdr.head r.reason r.segs.length r.rows.length) := by
  simp only [State.rowsTaken, State.setG_sees, State.raiseBad_seen, State.pushTile_seen, State.pushSb_seen, State.syncSet_sees]
  rfl

theorem State.rowsTaken_tileAndStores (z : State) (x : TakeWait) (r : CrateScan) :
    (z.rowsTaken x r).tileAndStores
      = ((z.pushTile (z.crateEntry x.args.ctl x.hdr x.bad x.hdr.head 0 x.kb r)).tile,
        z.cpu.sb ++ [⟨z.cpu.ptag, z.reqTid, .store (z.takeWrites x.hdr r) false, false⟩]) := by
  rw [State.rowsTaken, State.setG_tileAndStores, State.raiseBad_tileAndStores]
  rfl

/-- A TAKE whose wait has ended takes its rows, where the store buffer has room and no older store holds it. -/
theorem State.takeNow_of_hasCrate {s z : State} {x : TakeWait} {count : Nat} {r : CrateScan}
    (crate : s.hasCrate z x.hdr true x.hdr.head 0 x.kb (min (crateCap x.args.ctl) count) (if crateCap x.args.ctl ≤ count then 1 else 2) r)
    (room : z.cpu.sb.length < 8) (older : z.trHolds (r.rows.flatMap fun y => [(y.a, 32 * x.kb), (y.sc, x.kb)]) = false) :
    s.takeNow x count = (z.rowsTaken x r).commit 8 := by
  rw [State.takeNow, crate.withCrate]
  simp only [State.crateEntry_reads, older, State.sbFull, Nat.not_le.mpr room, decide_false, Bool.or_self, Bool.false_eq_true, if_false]
  rfl

/-- A TAKE whose wait ends with the counter at `count` takes its rows in the sense of the statement. -/
theorem State.takesRows_of_takeNow {i : Instr} {s w : State} {x : TakeWait} {count : Nat} (seen : w.seen = s.seen)
    (run : exec i s = .next ((w.holdTake { x with count := some count }).takeNow { x with count := some count } count)) :
    TakesRows i s w x count := by
  intro z r v c h n cap k e crate room older
  have zSeen : z.seen = v := crate.seen.trans seen
  have taken : exec i s = .next ((z.rowsTaken { x with count := some count } r).commit 8) :=
    run.trans (congrArg Host.Outcome.next (State.takeNow_of_hasCrate crate room older))
  have left := (State.commit_tileAndStores _ 8).trans (z.rowsTaken_tileAndStores { x with count := some count } r)
  refine ⟨_, taken, ?_, congrArg Prod.fst left, State.commit_wait _ _, _, congrArg Prod.snd left, rfl⟩
  rw [State.commit_sees, State.rowsTaken_seen, zSeen]
  rfl

/-! ## A TAKE's wait (R167) -/

/-- The wait is over where the counter has been read. -/
theorem State.takeStep_read {s : State} {x : TakeWait} {n : Nat} (count : x.count = some n) :
    s.takeStep x = (s.holdTake { x with count := some n }).takeNow { x with count := some n } n := by
  simp only [State.takeStep, count]
  rfl

/-- It ends where the counter has reached the cap, or C the deadline; the counter is read. -/
theorem State.takeStep_ready {s : State} {x : TakeWait} (count : x.count = none) (ready : s.takeReady x.args.ctl = true) :
    let n := s.sync[ctr (fld x.args.ctl 8 6)].toNat
    s.takeStep x = (s.holdTake { x with count := some n }).takeNow { x with count := some n } n := by
  simp only [State.takeStep, count, ready]
  rfl

theorem State.takeStep_waits {s : State} {x : TakeWait} (count : x.count = none) (ready : s.takeReady x.args.ctl = false) :
    s.takeStep x = s.holdTake x := by
  obtain ⟨args, hdr, bad, kb, _⟩ := x
  subst count
  simp only [State.takeStep, ready]
  rfl

/-- A waiting TAKE goes on at once, unless the deadline ends its wait later within this bell. -/
theorem State.takeProceed_atOnce {s : State} {x : TakeWait} (wait : s.cpu.wait = .take x) (runs : s.coreRuns = true) (walk : s.xlat.walk = none)
    (now : x.count.isSome = true ∨ s.takeReady x.args.ctl = true
      ∨ ¬(s.bell.c < fld (s.reg (pCONV + 0x110)) 0 24 ∧ fld (s.reg (pCONV + 0x110)) 0 24 < s.period)) :
    s.takeProceed = s.takeStep x := by
  unfold State.takeProceed
  simp only [wait, runs, walk, Bool.not_true, Option.isSome_none, Bool.or_self, Bool.false_eq_true, if_false]
  rcases now with read | ready | late
  · simp only [read, Bool.true_or, if_true, wait]
  · simp only [ready, Bool.or_true, if_true, wait]
  · have noRise := (Bool.decide_and _ _).symm.trans (decide_eq_false late)
    simp only [noRise, Bool.false_eq_true, if_false, ite_self, wait]

/-! ## TCRATE -/

theorem State.arrived_g (s : State) (len : Nat) (n : Fin 32) : (s.arrived len).g n = s.seen.readG n := by
  rw [State.g_seen, State.arrived_seen]

section
variable {s : State} {o : TileArgs} (full : s.tileFull = false) (on : (s.arrived 8).tileOn = true) (msb : o.spec.msb = false)
  (ok : tcrateBad o.ctl = false) (fits : fld o.ctl 4 2 + (s.seen.readG (tKcnt o)).toNat % 65536 ≤ 4)
  (issues : s.issues 8 [tKcnt o, tOpa o, tOpb o] [])
include full on msb fits issues

/-- TCRATE that its first steps do not stop goes on with the header that it has read. -/
theorem tcrate_goesOn {take : Bool} {undef : State → Bool} {w : State} {h : CrateHdr} (k : State → State → CrateHdr → List Nat → State)
    (defined : undef (s.arrived 8) = false) (header : (s.arrived 8).hasHeader w (s.seen.readG (tOpa o)) s.cpu.tid take h) :
    s.tileInstr o [tKcnt o, tOpa o, tOpb o] undef (fun u => u.withCauses [if 4 < fld o.ctl 4 2 + u.tileKb o then some 4 else none]
      (u.withHeader (u.g (tOpa o)) take (k u))) = k (s.arrived 8) w h [] := by
  have tid : s.cpu.tid = (s.arrived 8).cpu.tid := (congrArg Seen.tid (s.arrived_seen 8) :).symm
  have within : ¬4 < fld o.ctl 4 2 + (s.arrived 8).tileKb o := by
    rw [State.tileKb, State.arrived_g]
    exact Nat.not_lt.mpr fits
  rw [State.tileInstr_goesOn full issues msb defined on, if_neg within, State.withCauses_none rfl, State.arrived_g]
  exact (tid ▸ header).withHeader _

include ok

/-- A TAKE that has read its header stands at its wait. -/
theorem tcrateTake_of_header {w : State} {h : CrateHdr} (take : o.ctl.getLsbD 15 = false)
    (header : (s.arrived 8).hasHeader w (s.seen.readG (tOpa o)) s.cpu.tid true h) :
    s.tcrateTake o = w.takeStep ⟨o, h, [], (s.seen.readG (tKcnt o)).toNat % 65536, none⟩ := by
  refine (tcrate_goesOn full on msb fits issues _ (by rw [ok, take, Bool.or_self]) header).trans ?_
  simp only [State.tileKb, State.arrived_g]

/-- A RELOAD whose rows and B records have been read again joins the queue. -/
theorem tcrateReload_of_crate {w z : State} {h : CrateHdr} {r : CrateScan} (reload : o.ctl.getLsbD 15 = true)
    (header : (s.arrived 8).hasHeader w (s.seen.readG (tOpa o)) s.cpu.tid false h) :
    let g := (s.seen.readG (tOpb o)).toNat
    let kb := (s.seen.readG (tKcnt o)).toNat % 65536
    let first := g / 2 ^ 32 % 65536
    let e := z.crateEntry o.ctl h [] (first % h.size) (g / 2 ^ 48) kb r
    w.hasCrate z h false first (g / 2 ^ 48) kb (min 32 (g % 64)) 0 r →
      z.trHolds (r.rows.flatMap fun y => [(y.a, 32 * kb), (y.sc, kb)]) = false →
      s.tcrateReload o = ((z.pushTile e).raiseBad e).commit 8 := by
  intro g kb first e crate older
  refine (tcrate_goesOn full on msb fits issues _ (by rw [ok, reload]; rfl) header).trans ?_
  simp only [State.tileKb, State.arrived_g]
  rw [crate.withCrate, State.crateEntry_reads, older, if_neg Bool.false_ne_true]

end

/-- The entry of a tile instruction and the error of a read for it: software sees IP move on, the queue and the issue view move on. -/
theorem queued_of_raiseBad {i : Instr} {s z : State} {e : TileEntry} (seen : z.seen = s.seen)
    (run : exec i s = .next (((z.pushTile e).raiseBad e).commit 8)) : Queued i s z e := by
  have left := (State.commit_tileAndStores _ 8).trans ((z.pushTile e).raiseBad_tileAndStores e)
  refine ⟨_, run, ?_, congrArg Prod.fst left⟩
  rw [State.commit_sees, State.raiseBad_seen, State.pushTile_seen, seen]

theorem cratesAreTaken : CratesAreTaken := by
  intro s o u v c va kb
  refine ⟨fun full on msb ok fits issues w h => ⟨fun take header => ?_, fun reload header z r crate older => ?_⟩,
    fun x wait runs walk => ?_⟩
  · let x : TakeWait := ⟨o, h, [], kb, none⟩
    have seen : w.seen = s.seen := header.seen.trans (s.arrived_seen 8)
    have stands : exec (.tcrateTake o) s = .next (w.takeStep x) :=
      congrArg Host.Outcome.next (tcrateTake_of_header full on msb ok fits issues take header)
    refine ⟨fun ready => ?_, fun ready => ?_⟩
    · have waits : w.takeStep x = w.holdTake x := State.takeStep_waits rfl ready
      exact ⟨w.holdTake x, waits ▸ stands, seen, rfl, rfl⟩
    · have count : w.sync = s.seen.sync := (congrArg Seen.sync seen :)
      have ends := State.takeStep_ready (s := w) (x := x) rfl ready
      rw [ends, count] at stands
      exact State.takesRows_of_takeNow seen stands
  · have seen : z.seen = s.seen := crate.seen.trans (header.seen.trans (s.arrived_seen 8))
    exact queued_of_raiseBad seen (congrArg Host.Outcome.next (tcrateReload_of_crate full on msb ok fits issues reload header crate older))
  · refine ⟨fun m count => ?_, fun count ready => ?_, fun count ready late => ?_⟩
    · have goes := State.takeProceed_atOnce wait runs walk (.inl (by rw [count]; rfl))
      exact State.takesRows_of_takeNow rfl (congrArg Host.Outcome.next (goes.trans (State.takeStep_read count)))
    · have goes := State.takeProceed_atOnce wait runs walk (.inr (.inl ready))
      exact State.takesRows_of_takeNow rfl (congrArg Host.Outcome.next (goes.trans (State.takeStep_ready count ready)))
    · have goes := State.takeProceed_atOnce wait runs walk (.inr (.inr late))
      exact congrArg Host.Outcome.next ((goes.trans (State.takeStep_waits count ready)).trans (State.holdTake_self wait))

/-! ## TSYNC (R188) -/

/-- The state in which TILE_DEFERRED is raised: PEND and MULTI are clear. -/
def State.trapTaken (s : State) : State :=
  let t := s.setReg kDEFER (s.reg kDEFER &&& 0x3FFFFFFF#32)
  { t with cpu := { t.cpu with trapOwed := none } }

theorem State.deliverTrap_eq (s : State) :
    let d := s.reg kDEFER
    s.deliverTrap = s.trapTaken.except cTILEDEFER (w32 (fld d 0 8 + fld d 16 5 * 256)) 0#64 := rfl

theorem State.trapTaken_causeToM (s : State) (cause : Nat) : s.trapTaken.causeToM cause = s.causeToM cause := by
  have delegated : s.trapTaken.reg (pCORE + 0x188) = s.reg (pCORE + 0x188) := s.setReg_reg_ne kDEFER _ _ (by decide)
  have level : s.trapTaken.pl = s.pl := rfl
  rw [State.causeToM, State.causeToM, delegated, level]

/-- The end of a DBG step writes LIFE_DBGPC alone. -/
theorem State.endStep_reg (s : State) {k : Nat} (lo : k ≠ pLIFE + 0x120) (hi : k ≠ pLIFE + 0x120 + 4) : s.endStep.reg k = s.reg k := by
  unfold State.endStep
  split
  · rw [State.setReg64, State.setReg_reg_ne _ _ _ _ hi, State.setReg_reg_ne _ _ _ _ lo]
    rfl
  · rfl

/-- What a delivered trap leaves: the entry with the recorded tag and CD, PEND and MULTI clear. -/
theorem State.deliverTrap_leaves (s : State) :
    let d := s.reg kDEFER
    s.deliverTrap.seen = s.seen.entered (s.causeToM cTILEDEFER) (if s.causeToM cTILEDEFER then 2 else 0)
        (xcause false s.pl cTILEDEFER (w32 (fld d 0 8 + fld d 16 5 * 256))) 0#64 s.cpu.ip
      ∧ s.deliverTrap.reg kDEFER = d &&& 0x3FFFFFFF#32 := by
  intro d
  rw [State.deliverTrap_eq]
  refine ⟨?_, ?_⟩
  · rw [State.except_sees, State.trapTaken_causeToM]
    rfl
  · rw [State.except, State.endStep_reg _ (by decide) (by decide)]
    exact s.setReg_reg kDEFER _

theorem State.pl_of_seen {s u : State} (seen : u.seen = s.seen) : u.pl = s.pl := by
  rw [State.pl, State.flags_seen, seen, ← State.flags_seen, State.pl]

/-- The end of TSYNC's wait in a state `u` that software sees as `s`: it commits, or it delivers the trap. -/
theorem tsyncEnd_ends {i : Instr} {s u : State} (seen : u.seen = s.seen) (run : exec i s = .next u.tsyncEnd) :
    (u.trapMine = false → Does i s (s.seen.next 2))
      ∧ (u.trapMine = true → Leaves i s fun t =>
        let d := u.reg 0x4148
        t.seen = s.seen.entered (u.causeToM cTILEDEFER) (if u.causeToM cTILEDEFER then 2 else 0)
            (xcause false s.pl cTILEDEFER (w32 (fld d 0 8 + fld d 16 5 * 256))) 0#64 s.cpu.ip
          ∧ t.reg 0x4148 = d &&& 0x3FFFFFFF#32) := by
  refine ⟨fun none => ⟨u.commit 2, ?_, ?_⟩, fun mine => ⟨u.deliverTrap, ?_, ?_⟩⟩
  · rw [run, State.tsyncEnd, if_neg (by simp [none])]
  · rw [State.commit_sees, seen]
  · rw [run, State.tsyncEnd, if_pos mine]
  · have pl : u.pl = s.pl := State.pl_of_seen seen
    have ip : u.cpu.ip = s.cpu.ip := (congrArg Seen.ip seen :)
    rw [← seen, ← pl, ← ip]
    exact u.deliverTrap_leaves

theorem tsync_of_issues {s : State} (issues : s.issues 2 [] []) (on : (s.arrived 2).tileOn = true) :
    s.tsync = if (s.arrived 2).tileQuiet then (s.arrived 2).tsyncEnd
      else { s.arrived 2 with cpu := { (s.arrived 2).cpu with wait := .tsync } } := by
  rw [State.tsync, State.instr_issues _ _ _ _ _ issues, if_neg (by simp [on])]

theorem tsyncWaitsForTheEngine : TsyncWaitsForTheEngine := by
  intro s u v ends
  have seen : u.seen = s.seen := s.arrived_seen 2
  refine ⟨fun issues on => ⟨fun idle => ?_, fun works => ?_⟩, fun wait idle => ?_⟩
  · have run : exec .tsync s = .next u.tsyncEnd := congrArg Host.Outcome.next ((tsync_of_issues issues on).trans (if_pos idle))
    exact tsyncEnd_ends seen run
  · exact ⟨_, congrArg Host.Outcome.next ((tsync_of_issues issues on).trans (if_neg (ne_true_of_eq_false works))), seen, rfl⟩
  · have run : exec .tsyncWaitEnd s = .next s.tsyncEnd := congrArg Host.Outcome.next (if_pos ⟨wait, idle⟩)
    exact tsyncEnd_ends rfl run

/-- Settles O57: TCRATE goes on with the header and the rows that it has read (`State.hasHeader.withHeader`, `State.hasCrate.withCrate`), a TAKE
either waits with them or takes its rows (`State.takesRows_of_takeNow`), and TSYNC ends as its trap decides (`tsyncEnd_ends`). -/
theorem cratesAndTsync : Obligations.CratesAndTsync := ⟨cratesAreTaken, tsyncWaitsForTheEngine⟩

end Sys2Proof.Machine
end

section
/-! PROOF. A parity error in the pool that a TSAVE meets fences the core (O60 fails): channel 0x40 retires at once, the core fences with reason ARRAY
(R433, R436), and the work in progress, the TSAVE and its drain with it, is abandoned (R426). -/

namespace Sys2Proof.Machine

/-- A core out of reset with the scratchpad's groups on and accumulator tile 0 live. -/
def tileLive : State :=
  let s := State.reset
  let view : TileView := { TileView.init with names := TileView.init.names.set 0 (some ⟨.s16x16, .i32, 0, false⟩) }
  { s with
    rst := { Rst.init with phase := .run, wholeLow := false }
    spx := { Spx.init with groups := Vector.replicate 16 .on }
    tile := { s.tile with issue := view, engine := view } }

/-- A TSAVE of the live tiles into an image at the scratchpad's start, whose read of tile 0 meets a parity error. -/
def faultySave : TileEntry := { tileLive.newEntry .tsave 0#32 with meets := ⟨some 0, none, [], 0⟩ }

/-- The engine drains for it, with no older instruction queued. -/
def faultyDrain : State := { tileLive with tile := { tileLive.tile with queue := [faultySave], draining := true } }

/-- The drain's end fences the core with reason ARRAY, and no instruction is queued any more. -/
theorem drainDone_faultyDrain :
    let t := faultyDrain.meeting 0 State.drainDone
    t.ras.fence = some 1#8 ∧ t.tile.queue = [] := by decide +kernel

/-- Refutes O60: at the end of the drain from `faultyDrain` the TSAVE does not stand at the head of the queue. -/
theorem not_savesDrainAndComplete : ¬ Obligations.SavesDrainAndComplete := by
  unfold Obligations.SavesDrainAndComplete
  intro holds
  obtain ⟨drained, -⟩ := holds faultyDrain faultySave [] [] (by simp) rfl rfl
  obtain ⟨t, done, -, -, ⟨f, queue⟩, -⟩ := drained rfl rfl rfl (by simp)
  injection done with done
  obtain ⟨-, empty⟩ := drainDone_faultyDrain
  have nothing : t.tile.queue = [] := done ▸ empty
  exact absurd (queue.symm.trans nothing) (List.cons_ne_nil _ _)

end Sys2Proof.Machine
end

section
/-! PROOF. What the checks and reads of an instruction at TR leave alone (R286, R337, R361, R433 to R436): errors that they count reach neither the
delegation of causes nor, where they lie in the translation stores, the tile engine. -/

namespace Sys2Proof.Machine

/-! ## Counting an error (R433 to R436) -/

/-- The delegation of synchronous causes to level S (R286). -/
def State.delegation (s : State) : Word := s.reg (pCORE + 0x188)

/-- The level that takes a cause follows from the delegation and the current level. -/
theorem State.causeToM_congr {s t : State} (delegation : t.delegation = s.delegation) (pl : t.pl = s.pl) (cause : Nat) :
    t.causeToM cause = s.causeToM cause := by
  unfold State.delegation at delegation
  rw [State.causeToM, State.causeToM, delegation, pl]

/-- A view of the state that shows no error counts, no translation stores, no drawn values, and of the registers at most the delegation. -/
structure BlindToCounts {α : Type} (view : State → α) : Prop where
  regs (s : State) (m : WMap) : ({ s with regs := m } : State).delegation = s.delegation → view { s with regs := m } = view s
  ras (s : State) (r : Ras) : view { s with ras := r } = view s
  xlat (s : State) (x : Xlat) : view { s with xlat := x } = view s
  fresh (s : State) (n : Nat) : view { s with fresh := n } = view s

theorem delegation_blindToCounts : BlindToCounts State.delegation := ⟨fun _ _ h => h, fun _ _ => rfl, fun _ _ => rfl, fun _ _ => rfl⟩
theorem tile_blindToCounts : BlindToCounts State.tile := ⟨fun _ _ _ => rfl, fun _ _ => rfl, fun _ _ => rfl, fun _ _ => rfl⟩

section
variable {α : Type} {view : State → α} (blind : BlindToCounts view)
include blind

theorem BlindToCounts.onlyRegs {s t : State} {ks : List Nat} (h : OnlyRegs s t ks) (out : pCORE + 0x188 ∉ ks) : view t = view s := by
  obtain ⟨⟨m, rfl⟩, keeps⟩ := h
  exact blind.regs s m (keeps _ out)

theorem BlindToCounts.setReg (s : State) {k : Nat} (v : Word) (h : pCORE + 0x188 ≠ k) : view (s.setReg k v) = view s :=
  blind.onlyRegs (s.setReg_onlyRegs v (List.mem_singleton_self k)) (by simpa using h)

theorem BlindToCounts.raiseErrs (s : State) (es : List ErrEvt) : view (s.raiseErrs pRAS es) = view s :=
  blind.onlyRegs (s.raiseErrs_onlyRegs pRAS es) (by decide)

theorem BlindToCounts.raise (s : State) (b : Nat) : view (s.raise pRAS b) = view s :=
  blind.onlyRegs (s.raise_onlyRegs pRAS b) (by decide)

theorem BlindToCounts.addLedger (s : State) (type channel level : Nat) (code : Word) (addr : DWord) (fromFw : Bool) :
    view (s.addLedger type channel level code addr fromFw).1 = view s := by
  unfold State.addLedger
  split
  · exact (blind.setReg _ _ (by decide)).trans (blind.ras s _)
  · exact blind.ras s _

theorem BlindToCounts.leak (s : State) : view s.leak = view s := by
  unfold State.leak
  split
  · exact (blind.setReg _ _ (by decide)).trans (blind.ras s _)
  · rfl

theorem BlindToCounts.fillBucket (s : State) (ch n : Nat) : view (s.fillBucket ch n) = view s := by
  unfold State.fillBucket
  dsimp only
  split
  · exact (blind.raise _ _).trans (blind.ras s _)
  · exact blind.ras s _

section
variable {ch : Nat} (effect : ∀ s : State, view (s.retireEffect ch false false).1 = view s)
include effect

theorem BlindToCounts.retireFull (s : State) : view (s.retireFull ch).1 = view s := by
  unfold State.retireFull State.retireChannel
  split
  · split
    · rfl
    · exact (effect _).trans ((blind.addLedger _ _ _ _ _ _ _).trans ((blind.setReg _ _ (by decide)).trans (blind.ras s _)))
  · rfl

/-- A view that the channel's retirement does not reach shows nothing of a transient or uncorrectable error. -/
theorem BlindToCounts.rasCount (s : State) {k : RasKind} (kind : k ≠ .immediate) (code : Nat) (addr : DWord) :
    view (s.rasCount ch k code addr) = view s := by
  unfold State.rasCount
  split
  · rfl
  · have noted : view (s.leak.noteErr ch code addr) = view s := (blind.ras _ _).trans (blind.leak s)
    cases k with
    | immediate => exact absurd rfl kind
    | transient =>
      refine Eq.trans ?_ noted
      refine (blind.raiseErrs _ _).trans ((blind.retireFull effect _).trans ((blind.fillBucket _ _ _).trans ?_))
      exact (blind.setReg _ _ (by decide)).trans ((blind.setReg _ _ (by decide)).trans (blind.raise _ _))
    | uncorrectable =>
      refine Eq.trans ?_ noted
      refine (blind.raiseErrs _ _).trans ((blind.addLedger _ _ _ _ _ _ _).trans ((blind.retireFull effect _).trans ((blind.fillBucket _ _ _).trans ?_)))
      exact (blind.setReg _ _ (by decide)).trans (blind.setReg _ _ (by decide))

end

/-! ## Translation (R335, R337) -/

omit blind in
/-- A translation store that retires has no effect of its own on the state. -/
theorem State.retireEffect_translation {ch : Nat} (lo : 0x10 ≤ ch) (hi : ch ≤ 0x13) (s : State) (reapply fromFw : Bool) :
    s.retireEffect ch reapply fromFw = (s, []) := by
  unfold State.retireEffect
  rw [if_neg (by omega), if_neg (by omega), if_pos hi]

theorem BlindToCounts.strike (s : State) {ch : Nat} (lo : 0x10 ≤ ch) (hi : ch ≤ 0x13) :
    view (s.rasCount ch .transient 0 0#64) = view s :=
  blind.rasCount (fun u => congrArg (fun r => view r.1) (State.retireEffect_translation lo hi u false false)) s (by decide) 0 0#64

theorem BlindToCounts.putFull (s : State) (n : Nat) (m : List TlbEntry) (e : TlbEntry) : view (s.putFull n m e).1 = view s := by
  unfold State.putFull
  split
  · rfl
  · exact blind.fresh s _

theorem BlindToCounts.fillL1 (s : State) (kind : Nat) (e : TlbEntry) : view (s.fillL1 kind e) = view s := by
  unfold State.fillL1
  generalize (if kind = 2 then 0x10 else 0x11) = ch
  split
  · rfl
  · split
    · exact (blind.xlat _ _).trans (blind.putFull s 16 _ e)
    · exact (blind.xlat _ _).trans (blind.putFull s 32 _ e)

theorem BlindToCounts.lookupL2 (s : State) (va : Nat) (tid : BitVec 16) (kind : Nat) (bad : Bool) :
    view (s.lookupL2 va tid kind bad).1 = view s := by
  unfold State.lookupL2
  split
  · split
    · exact (blind.strike _ (by decide) (by decide)).trans (blind.xlat s _)
    · exact (blind.fillL1 _ _ _).trans (blind.xlat s _)
  · split
    · split
      · exact (blind.strike _ (by decide) (by decide)).trans (blind.xlat s _)
      · exact blind.fillL1 _ _ _
    · rfl

theorem BlindToCounts.lookup (s : State) (va kind : Nat) (bad : Bool) : view (s.lookup va kind bad).1 = view s := by
  have missed (u : State) : view (u.bump (if kind = 2 then pXLAT + 0x120 else pXLAT + 0x124)) = view u :=
    blind.setReg _ _ (by split <;> decide)
  unfold State.lookup
  dsimp only
  split
  · rfl
  · split
    · split
      · refine (blind.lookupL2 _ _ _ _ _).trans ((missed _).trans ((blind.strike _ ?_ ?_).trans (blind.xlat s _)))
        · split <;> decide
        · split <;> decide
      · rfl
    · exact (blind.lookupL2 _ _ _ _ _).trans (missed s)

theorem BlindToCounts.translate (s : State) (va : DWord) (kind : Nat) (bad : Bool) : view (s.translate va kind bad).1 = view s := by
  unfold State.translate
  split
  · split <;> rfl
  · split
    · rfl
    · split
      · rfl
      · split
        · rfl
        · dsimp only
          split
          · exact (blind.setReg _ _ (by decide)).trans ((blind.xlat _ _).trans (blind.lookup _ _ _ _))
          · split <;> exact blind.lookup _ _ _ _

theorem BlindToCounts.checkPieces (s : State) (r : TRange) (sub : SubPort) (start : Nat) (b : RBase) (ps : List (Nat × Nat)) :
    view (s.checkPieces r sub start b ps).1 = view s := by
  induction ps generalizing s b with
  | nil => rfl
  | cons p ps ih =>
    have translated := blind.translate s (w64 p.1) r.kind false
    unfold State.checkPieces
    dsimp only
    split
    · exact translated
    · exact translated
    · split
      · split
        · exact translated
        · split
          · exact translated
          · exact (ih _ _).trans translated
      · exact translated

/-- The checks of ranges at TR. -/
theorem BlindToCounts.checkRanges (s : State) (sub : SubPort) (rs : List TRange) : view (s.checkRanges sub rs).1 = view s := by
  induction rs generalizing s with
  | nil => rfl
  | cons r rs ih =>
    have checked := blind.checkPieces s r sub ((r.pieces.head?.map Prod.fst).getD 0) none r.pieces
    unfold State.checkRanges
    dsimp only
    split
    · exact (ih _).trans checked
    · exact checked

end

/-! ## Reads of the scratchpad (R361) -/

theorem State.fenceCore_delegation (s : State) (reason : Byte) (reapply fromFw : Bool) :
    (s.fenceCore reason reapply fromFw).1.delegation = s.delegation := by
  unfold State.fenceCore
  split
  · rfl
  · extract_lets ras fenced entry r abandoned able dropped net life closed rst drained
    have ledger : r.1.delegation = s.delegation := by
      unfold r
      split
      · rfl
      · exact delegation_blindToCounts.addLedger fenced _ _ _ _ _ _
    have drop : dropped.delegation = r.1.delegation := by
      unfold dropped
      split
      · exact delegation_blindToCounts.setReg abandoned _ (by decide)
      · rfl
    have drain : drained.delegation = dropped.delegation := by
      unfold drained
      split <;> rfl
    exact drain.trans (drop.trans ledger)

/-- The retirement of a bank, which can fence the core, leaves the delegation. -/
theorem State.retireEffect_delegation {ch : Nat} (h : 0x80 ≤ ch) (s : State) (reapply fromFw : Bool) :
    (s.retireEffect ch reapply fromFw).1.delegation = s.delegation := by
  unfold State.retireEffect
  rw [if_neg (by omega), if_neg (by omega), if_neg (by omega), if_neg (by omega), if_neg (by omega), if_neg (by omega), if_neg (by omega)]
  dsimp only
  split
  · exact State.fenceCore_delegation _ _ _ _
  · rfl

theorem State.unitChannel_ge (s : State) (u : Nat) : 0x80 ≤ s.unitChannel u := by
  unfold State.unitChannel
  split
  · exact Nat.le_add_right _ _
  · exact Nat.le_refl _

/-- An error of a unit that counts on its bank. -/
theorem State.countUnit_delegation (s t : State) (u : Nat) {k : RasKind} (kind : k ≠ .immediate) (code : Nat) (addr : DWord) :
    (s.rasCount (t.unitChannel u) k code addr).delegation = s.delegation :=
  delegation_blindToCounts.rasCount (State.retireEffect_delegation (t.unitChannel_ge u) · false false) s kind code addr

theorem State.spxCorr_delegation (s : State) (u : Nat) : (s.spxCorr u).delegation = s.delegation := by
  have corrected : ((s.raise pSPX 0).bump (pSPX + 0x128)).delegation = s.delegation :=
    (delegation_blindToCounts.setReg _ _ (by decide)).trans (delegation_blindToCounts.setReg s _ (by decide))
  unfold State.spxCorr
  refine (State.countUnit_delegation _ _ u (by decide) _ _).trans (Eq.trans ?_ corrected)
  split <;> rfl

theorem State.spxUncorr_delegation (s : State) (u reader : Nat) (weight mismatch counts : Bool) :
    (s.spxUncorr u reader weight mismatch counts).delegation = s.delegation := by
  have raised (e : ErrEvt) : (s.raiseErr pSPX e).delegation = s.delegation :=
    delegation_blindToCounts.onlyRegs ((s.raise_onlyRegs pSPX e.bit).trans (State.capture_onlyRegs _ pSPX e)) (by decide)
  unfold State.spxUncorr
  dsimp only
  split
  · exact (State.countUnit_delegation _ _ u (by decide) _ _).trans (raised _)
  · exact raised _

theorem State.finishRead_delegation (s : State) (u reader : Nat) (weight : Bool) (need : BitVec 4) (m : UnitMark) (flips : UnitFlips)
    (data : List Byte) : (s.finishRead u reader weight need m flips data).1.delegation = s.delegation := by
  have drawn (n : Nat) : ({ s with fresh := n } : State).delegation = s.delegation := rfl
  simp only [State.finishRead, apply_ite Prod.fst, apply_ite State.delegation, State.spxUncorr_delegation, State.spxCorr_delegation, drawn, ite_self]

theorem State.readUnit_delegation (s : State) (u reader : Nat) (weight : Bool) (need : BitVec 4) (new : UnitFlips) :
    (s.readUnit u reader weight need new).1.delegation = s.delegation := by
  unfold State.readUnit
  dsimp only
  split
  · exact s.spxUncorr_delegation _ _ _ _ _
  · split
    · exact State.finishRead_delegation _ _ _ _ _ _ _ _
    · split
      · rfl
      · exact State.spxUncorr_delegation _ _ _ _ _ _

theorem State.readUnits_delegation (cls : Nat → Bool) (reader : Nat) (fs : List (Nat × UnitFlips)) (lo hi n : Nat) (s : State) (u : Nat) :
    (s.readUnits cls reader fs lo hi u n).1.delegation = s.delegation := by
  induction n generalizing s u with
  | zero => rfl
  | succ n ih => exact (ih _ _).trans (s.readUnit_delegation _ _ _ _ _)

/-- A read of the scratchpad, whatever it meets, leaves the delegation. -/
theorem State.spxRead_delegation (s : State) (reader : Nat) (fs : List (Nat × UnitFlips)) (off len : Nat) :
    (s.spxRead reader fs off len).1.delegation = s.delegation :=
  State.readUnits_delegation _ _ _ _ _ _ _ _

end Sys2Proof.Machine
end

section
/-! PROOF. TSAVE and TRESTORE join the queue (O56; R182, R192, R197, R198): their steps at TR, how each leaves TR, an image that is out of order. -/

namespace Sys2Proof.Machine

/-! ## The steps of TSAVE and TRESTORE at TR -/

theorem State.withRanges_checked {s : State} {sub : SubPort} {rs : List TRange} {bs : List RBase} (h : (s.checkRanges sub rs).2 = .ok bs)
    (k : State → List RBase → State) : s.withRanges sub rs k = k (s.checkRanges sub rs).1 bs := by
  simp only [State.withRanges, h]

theorem State.withAligned_of_all {s : State} {xs : List (Nat × DWord × Bool)} (h : ∀ x ∈ xs, x.2.2 = true) (k : State) : s.withAligned xs k = k := by
  have none : (xs.find? fun x => !x.2.2) = none := List.find?_eq_none.mpr fun x hx => by simp [h x hx]
  rw [State.withAligned, none]

theorem State.arrived_tid (s : State) (len : Nat) : (s.arrived len).cpu.tid = s.cpu.tid := (congrArg Seen.tid (s.arrived_seen len) :)

theorem State.commit_tile (s : State) (len : Nat) : (s.commit len).tile = s.tile := congrArg Prod.fst (s.commit_tileAndStores len)

theorem State.saving_congr {s t : State} (h : t.tile = s.tile) : t.saving = s.saving := by
  rw [State.saving, State.saving, h]

/-- An exception raised once an instruction's bytes have been fetched, in a state `w` after checks and reads that left the delegation. -/
theorem State.except_trapped {s w : State} {len : Nat} (seen : w.seen = s.seen) (delegation : w.delegation = (s.arrived len).delegation)
    (cause : Nat) (detail : Word) (xaddr : DWord) : (w.except cause detail xaddr).seen = s.trapped len cause detail xaddr := by
  have same : w.seen = (s.arrived len).seen := seen.trans (s.arrived_seen len).symm
  have toM := State.causeToM_congr delegation (State.pl_of_seen same) cause
  rw [← State.arrived_except_sees, State.except_sees, State.except_sees, toM, State.pl_of_seen same, State.ip_seen w, same, ← State.ip_seen]

/-! ## TSAVE (R192) -/

/-- The entry of a TSAVE that leaves TR in the state `w`, its image at the scratchpad offset `image`. -/
def State.saveEntry (w : State) (c : Word) (image : Nat) (err : TileErr) : TileEntry :=
  { w.newEntry .tsave c with image := image, meets := err }

/-- A TSAVE leaves TR: it joins the queue, and the engine begins to drain. -/
def State.joinSave (w : State) (e : TileEntry) : State :=
  let t := w.pushTile e
  { t with tile := { t.tile with draining := true, stopped := false } }

/-- The range that a TSAVE checks: its image, unless NOSAVE is set (R191). -/
def saveRanges (c : Word) (tid : BitVec 16) (va : Nat) : List TRange :=
  if c.getLsbD 2 then [] else [⟨1, [tid], contiguous va imageBytes⟩]

theorem State.joinSave_leaves {i : Instr} {s w : State} {c : Word} {image : Nat} {err : TileErr} (seen : w.seen = s.seen)
    (run : exec i s = .next ((w.joinSave (w.saveEntry c image err)).commit 8)) : Leaves i s fun t =>
      t.seen = s.seen.next 8 ∧ t.tile.draining = true
        ∧ t.tile.queue = w.tile.queue ++ [{ w.newEntry .tsave c with image := image, meets := err }] ∧ t.tile.issue = TileView.init := by
  refine ⟨_, run, ?_, ?_⟩
  · rw [State.commit_sees, ← seen]
    rfl
  · rw [State.commit_tile]
    exact ⟨rfl, rfl, rfl⟩

/-! ## TRESTORE (R197, R198) -/

/-- The entry of a TRESTORE that leaves TR in the state `w`. -/
def State.restoreEntry (w : State) (c : Word) (rows : List (Nat × Nat)) : TileEntry :=
  { w.newEntry .trestore c with priv := c.setWidth 2, rows := rows }

/-- The entries of an image as they wait behind their TRESTORE: numbered in program order, with the windows that stand. -/
def State.broughtEntries (w : State) (es : List TileEntry) : List TileEntry :=
  es.zipIdx.map fun y => { y.1 with seq := w.tile.nextSeq + 1 + y.2, wins := w.winList }

/-- A TRESTORE leaves TR: it stands in the queue, `es` wait behind it, and the issue view is what they make of the image's view `v`. -/
def State.joinRestore (w : State) (e : TileEntry) (v : TileView) (x : List Byte) (es : List TileEntry) : State :=
  { w with tile := { w.tile with
      queue := [e], nextItag := w.tile.nextItag + 1, nextSeq := w.tile.nextSeq + 1 + es.length, issue := es.foldl viewStep v
      restored := some ⟨v, x, es⟩ } }

/-- The last steps of a TRESTORE whose image has been read again in order: its tile areas are checked, and it leaves TR. -/
def State.loadImage (w : State) (c : Word) (va : Nat) (x : List Byte) (v : TileView) (es : List TileEntry) : State :=
  w.withRanges .m ((imageAreas x).map fun a => ⟨0, [w.cpu.tid], contiguous (va + a.2.1) a.2.2⟩) fun u bs =>
    let e := u.restoreEntry c (areaRows va (imageAreas x) bs)
    if u.trHolds (e.reads .s32x32) then u
    else ((e :: u.broughtEntries es).foldl State.raiseBad (u.joinRestore e v x (u.broughtEntries es))).commit 8

theorem foldl_raiseBad_of_clean {es : List TileEntry} (clean : ∀ e ∈ es, e.badUnit = none) (s : State) : es.foldl State.raiseBad s = s := by
  induction es generalizing s with
  | nil => rfl
  | cons e es ih =>
    have first : s.raiseBad e = s := by rw [State.raiseBad, clean e List.mem_cons_self]
    rw [List.foldl_cons, first, ih fun x hx => clean x (List.mem_cons_of_mem e hx)]

theorem State.broughtEntries_clean {es : List TileEntry} (clean : ∀ e ∈ es, e.badUnit = none) (w : State) :
    ∀ e ∈ w.broughtEntries es, e.badUnit = none := by
  intro e he
  obtain ⟨y, hy, rfl⟩ := List.mem_map.mp he
  exact clean y.1 (List.fst_mem_of_mem_zipIdx hy)

/-- Tile areas that pass their checks let the TRESTORE leave TR; reads without an error raise nothing as it joins the queue. -/
theorem State.loadImage_joins {z : State} {c : Word} {va : Nat} {x : List Byte} {v : TileView} {es : List TileEntry} {bs : List RBase}
    (clean : ∀ e ∈ es, e.badUnit = none) :
    let a := z.checkRanges .m ((imageAreas x).map fun a => ⟨0, [z.cpu.tid], contiguous (va + a.2.1) a.2.2⟩)
    let e := a.1.restoreEntry c (areaRows va (imageAreas x) bs)
    a.2 = .ok bs → a.1.trHolds (e.reads .s32x32) = false →
      z.loadImage c va x v es = (a.1.joinRestore e v x (a.1.broughtEntries es)).commit 8 := by
  intro a e areas free
  have quietly : ∀ e' ∈ e :: a.1.broughtEntries es, e'.badUnit = none :=
    List.forall_mem_cons.mpr ⟨rfl, State.broughtEntries_clean clean a.1⟩
  refine (State.withRanges_checked areas _).trans ?_
  refine (if_neg (ne_true_of_eq_false free)).trans ?_
  rw [foldl_raiseBad_of_clean quietly]

/-- Reading an image's records and crates again changes nothing that software sees. -/
theorem State.rereads.seen {w z : State} {priv : BitVec 2} {x q : List Byte} {v : TileView} {es : List TileEntry}
    (again : w.rereads z priv x q v es) : z.seen = w.seen := by
  obtain ⟨-, y, y', crate, entries, rfl, -⟩ := again
  have crateSeen : y.seen = (w.atLevel priv).seen := by
    cases named : (imageView x).crate with
    | none =>
      simp only [named] at crate
      rw [crate.1]
    | some cr =>
      simp only [named] at crate
      obtain ⟨a, built, -⟩ := crate
      have kept := (w.atLevel priv).rebuildCrate_seen cr 0 0
      rwa [built] at kept
  have entriesSeen : y'.seen = y.seen := by
    have built := y.rebuild_seen priv 0 v ((List.range (recNum x 0x38 4 / 2 ^ 20 % 64)).map (rawEntry q))
    rwa [entries] at built
  rw [State.setFlags_sees, entriesSeen, crateSeen]
  rfl

theorem State.rereads.clean {w z : State} {priv : BitVec 2} {x q : List Byte} {v : TileView} {es : List TileEntry}
    (again : w.rereads z priv x q v es) : ∀ e ∈ es, e.badUnit = none := by
  obtain ⟨-, -, -, -, -, -, clean⟩ := again
  exact clean

theorem State.joinRestore_leaves {i : Instr} {s w : State} {e : TileEntry} {v : TileView} {x : List Byte} {es : List TileEntry}
    (seen : w.seen = s.seen) (run : exec i s = .next ((w.joinRestore e v x es).commit 8)) : Leaves i s fun t =>
      t.seen = s.seen.next 8 ∧ t.tile.queue = [e] ∧ t.tile.nextItag = w.tile.nextItag + 1 ∧ t.tile.issue = es.foldl viewStep v
        ∧ t.tile.restored = some ⟨v, x, es⟩ := by
  refine ⟨_, run, ?_, ?_⟩
  · rw [State.commit_sees, ← seen]
    rfl
  · rw [State.commit_tile]
    exact ⟨rfl, rfl, rfl, rfl⟩

/-! ## What the two do where nothing stops them -/

section
variable {s : State} {o : TileArgs} (full : s.tileFull = false) (on : (s.arrived 8).tileOn = true) (msb : o.spec.msb = false)
  (opb : (tOpb o).val = 0) (kcnt : (tKcnt o).val = 0)
include full on msb opb kcnt

/-- TSAVE, none being queued or under way, its image aligned and its range checked, leaves TR. -/
theorem tsave_joins (err : TileErr) {bs : List RBase} (reserved : fld o.ctl 3 29 = 0) (idle : (s.arrived 8).saving = false)
    (issues : s.issues 8 (if o.ctl.getLsbD 2 then [] else [tOpa o]) [])
    (aligned : o.ctl.getLsbD 2 = false → (s.seen.readG (tOpa o)).toNat % 256 = 0) :
    let q := (s.arrived 8).checkRanges .m (saveRanges o.ctl s.cpu.tid (s.seen.readG (tOpa o)).toNat)
    q.2 = .ok bs → q.1.sbLate = false →
      s.tsave o err = (q.1.joinSave (q.1.saveEntry o.ctl (offOf (nthBase bs 0) (s.seen.readG (tOpa o)).toNat) err)).commit 8 := by
  intro q range late
  have idle' : q.1.saving = false := (State.saving_congr (tile_blindToCounts.checkRanges _ _ _)).trans idle
  have defined : (fld o.ctl 3 29 != 0 || (tOpb o).val != 0 || (tKcnt o).val != 0) = false := by simp [reserved, opb, kcnt]
  unfold State.tsave
  rw [State.tileInstr_goesOn full issues msb defined on, State.withAligned_of_all]
  · rw [State.arrived_g, State.arrived_tid]
    refine (State.withRanges_checked range _).trans ?_
    rw [idle', late]
    rfl
  · intro x hx
    split at hx
    · exact absurd hx List.not_mem_nil
    · rename_i save
      obtain rfl := List.mem_singleton.mp hx
      rw [State.arrived_g]
      simpa [Machine.aligned] using aligned (by simpa using save)

/-- TRESTORE, the queue empty, its level in order, goes on with the control area and the queue image that it has read. -/
theorem trestore_reads {b : RBase} {p w : State} {bytes : List Byte} (reserved : fld o.ctl 2 30 = 0) (level : fld o.ctl 0 2 ≤ (s.arrived 8).pl)
    (notThree : fld o.ctl 0 2 ≠ 3) (issues : s.issues 8 [tOpa o] []) (quiet : (s.arrived 8).tileQuiet = true)
    (range : (s.arrived 8).checkRanges .m [⟨0, [s.cpu.tid], contiguous (s.seen.readG (tOpa o)).toNat 1280⟩] = (p, .ok [b]))
    (stores : p.sbStores [(offOf b (s.seen.readG (tOpa o)).toNat, 1280)] = false)
    (read : p.spxRead 1 [] (offOf b (s.seen.readG (tOpa o)).toNat) 1280 = (w, bytes, [])) :
    (controlOk (bytes.take 256) (bytes.drop 256) = false → s.trestore o = w.tileState 11)
      ∧ (controlOk (bytes.take 256) (bytes.drop 256) = true → ∀ z v es, w.rereads z (o.ctl.setWidth 2) (bytes.take 256) (bytes.drop 256) v es →
        s.trestore o = z.loadImage o.ctl (s.seen.readG (tOpa o)).toNat (bytes.take 256) v es) := by
  have priv : fld o.ctl 0 2 = (o.ctl.setWidth 2).toNat := by simp [fld]
  have defined : (fld o.ctl 2 30 != 0 || o.ctl.setWidth 2 == 3#2 || decide ((s.arrived 8).pl < (o.ctl.setWidth 2).toNat)
      || (tOpb o).val != 0 || (tKcnt o).val != 0) = false := by
    rw [priv] at level notThree
    have other : o.ctl.setWidth 2 ≠ 3#2 := fun h => notThree (by rw [h]; rfl)
    simp [reserved, other, opb, kcnt, -BitVec.toNat_setWidth, level]
  have checked := congrArg Prod.snd range
  unfold State.trestore
  rw [State.tileInstr_goesOn full issues msb defined on, quiet, State.arrived_g, State.arrived_tid]
  dsimp only
  rw [State.withRanges_checked checked, range]
  have base : nthBase [b] 0 = b := rfl
  simp only [base, stores, read, Bool.not_true, Bool.false_eq_true, if_false]
  refine ⟨fun bad => ?_, fun ok z v es again => ?_⟩
  · rw [bad]
    rfl
  · obtain ⟨order, y, y', crate, entries, rfl, clean⟩ := again
    simp only [ok, order, Bool.not_true, Bool.false_eq_true, if_false]
    cases named : (imageView (bytes.take 256)).crate with
    | none =>
      simp only [named] at crate ⊢
      obtain ⟨rfl, rfl⟩ := crate
      simp only [← named, entries]
      rfl
    | some cr =>
      simp only [named] at crate ⊢
      obtain ⟨a, built, good, rfl⟩ := crate
      simp only [andThen, built, good, entries]
      rfl

end

/-- Settles O56: a TSAVE leaves TR by `tsave_joins`, the checks of its range leaving the engine as it is; a TRESTORE goes on with what it has
read by `trestore_reads`, and an image that has been read again in order lets it leave TR (`State.loadImage_joins`). -/
theorem imagesJoinTheQueue : Obligations.ImagesJoinTheQueue := by
  unfold Obligations.ImagesJoinTheQueue
  intro s o err u c va full on msb opb kcnt
  have arrived : u.seen = s.seen := s.arrived_seen 8
  refine ⟨fun reserved idle => ⟨?_, ?_⟩, ?_⟩
  · intro noSave issues late
    have joins := tsave_joins full on msb opb kcnt err (bs := []) reserved idle (by rwa [if_pos noSave]) (by rw [noSave]; nofun)
    rw [saveRanges, if_pos noSave] at joins
    exact State.joinSave_leaves arrived (congrArg Host.Outcome.next (joins rfl late))
  · intro save issues aligned b q range late
    have plain : ¬o.ctl.getLsbD 2 = true := ne_true_of_eq_false save
    have joins := tsave_joins full on msb opb kcnt err (bs := [b]) reserved idle (by rwa [if_neg plain]) fun _ => aligned
    rw [saveRanges, if_neg plain] at joins
    exact State.joinSave_leaves ((State.checkRanges_seen _ _ _).trans arrived) (congrArg Host.Outcome.next (joins range late))
  · intro reserved level notThree issues quiet b q r x range stores clean
    have readSeen : r.1.seen = s.seen := (State.spxRead_seen _ _ _ _ _).trans ((State.checkRanges_seen _ _ _).trans arrived)
    obtain ⟨refuses, takes⟩ := trestore_reads full on msb opb kcnt reserved level notThree issues quiet (Prod.ext rfl range) stores
      (Prod.ext rfl (Prod.ext rfl clean))
    refine ⟨fun bad => ?_, ?_⟩
    · have delegation : r.1.delegation = u.delegation :=
        (State.spxRead_delegation _ _ _ _ _).trans (delegation_blindToCounts.checkRanges _ _ _)
      exact ⟨_, congrArg Host.Outcome.next (refuses bad), State.except_trapped readSeen delegation cTILESTATE 11#32 0#64⟩
    · intro ok z v es bs again areas a e es' areasOk free
      have seen : z.seen = s.seen := again.seen.trans readSeen
      have tid : z.cpu.tid = s.cpu.tid := (congrArg Seen.tid seen :)
      have joins := State.loadImage_joins (z := z) (c := c) (va := va.toNat) (x := x) (v := v) (bs := bs) again.clean
      rw [tid] at joins
      exact State.joinRestore_leaves ((State.checkRanges_seen _ _ _).trans seen)
        (congrArg Host.Outcome.next ((takes ok z v es again).trans (joins areasOk free)))

end Sys2Proof.Machine
end

section
/-! PROOF. Sync counters and what levels keep out (O34, O35; R227, R229, R260, R271, R275): an instruction that issues does what its work
does, a counter's number and LEVEL decide whether the work begins. -/

namespace Sys2Proof.Machine

/-! ## An instruction that issues -/

/-- What software sees after an instruction that issues is what its work leaves. -/
theorem Does.of_work {i : Instr} {s : State} {len : Nat} {gs fs : List (Fin 32)} {k : State → State} {v : Seen} (issues : s.issues len gs fs)
    (exec : exec i s = .next (s.instr len gs fs k)) (work : (k (s.arrived len)).seen = v) : Does i s v :=
  ⟨_, exec, (s.instr_issues len gs fs k issues).symm ▸ work⟩

theorem Leaves.of_work {i : Instr} {s : State} {len : Nat} {gs fs : List (Fin 32)} {k : State → State} {p : State → Prop}
    (issues : s.issues len gs fs) (exec : exec i s = .next (s.instr len gs fs k)) (work : p (k (s.arrived len))) : Leaves i s p :=
  ⟨_, exec, (s.instr_issues len gs fs k issues).symm ▸ work⟩

/-- An instruction that issues and whose work is an exception traps. -/
theorem Does.trap {i : Instr} {s : State} {len cause : Nat} {detail : Word} {xaddr : DWord} {gs fs : List (Fin 32)} {k : State → State}
    (issues : s.issues len gs fs) (exec : exec i s = .next (s.instr len gs fs k))
    (work : k (s.arrived len) = (s.arrived len).except cause detail xaddr) : Does i s (s.trapped len cause detail xaddr) :=
  Does.of_work issues exec (work ▸ s.arrived_except_sees len cause detail xaddr)

theorem State.arrived_pl (s : State) (len : Nat) : (s.arrived len).pl = s.pl := by
  rw [State.pl, State.flags_seen, s.arrived_seen len, ← State.flags_seen, State.pl]

theorem State.arrived_sync (s : State) (len : Nat) : (s.arrived len).sync = s.seen.sync := congrArg Seen.sync (s.arrived_seen len)

/-! ## A counter by its number (R227, R275) -/

theorem State.onCounter_undef {s : State} {n : Byte} (h : 64 ≤ n.toNat) (k : Fin 64 → State) : s.onCounter n k = s.undef := if_pos h

theorem State.onCounter_priv {s : State} {n : Byte} (h : n.toNat < 64) (level : s.pl < s.syncLevel n.toNat) (k : Fin 64 → State) :
    s.onCounter n k = s.except cPRIV 0#32 0#64 := by
  rw [State.onCounter, if_neg (Nat.not_le.mpr h), if_pos level]

theorem ctr_val (c : Fin 64) : ctr c.val = c := Fin.ext (Nat.mod_eq_of_lt c.isLt)

theorem State.onCounter_lets {s : State} {n : Byte} {c : Fin 64} (h : n.toNat = c.val) (level : s.syncLevel c.val ≤ s.pl) (k : Fin 64 → State) :
    s.onCounter n k = k c := by
  rw [State.onCounter, h, if_neg (Nat.not_le.mpr c.isLt), if_neg (Nat.not_lt.mpr level), ctr_val]

/-! ## The sync instructions -/

section
variable {s : State} {a : GReg} {imm : Byte} (issues : s.issues 5 [a] [])
include issues

/-- A local instruction on a counter whose LEVEL lets it in. -/
theorem Does.onCounter {n : Fin 64} {i : Instr} {work : State → Fin 64 → State} {v : Seen} (number : imm.toNat = n.val)
    (level : (s.arrived 5).syncLevel n.val ≤ s.pl) (exec : exec i s = .next (s.instr 5 [a] [] fun u => u.onCounter imm (work u)))
    (done : (work (s.arrived 5) n).seen = v) : Does i s v :=
  Does.of_work issues exec (State.onCounter_lets number (s.arrived_pl 5 ▸ level) (work (s.arrived 5)) ▸ done)

theorem Does.counter_undef {i : Instr} {work : State → Fin 64 → State} (number : 64 ≤ imm.toNat)
    (exec : exec i s = .next (s.instr 5 [a] [] fun u => u.onCounter imm (work u))) : Does i s (s.trapped 5 cUNDEF 0#32 0#64) :=
  Does.trap issues exec (State.onCounter_undef number _)

theorem Does.counter_priv {i : Instr} {work : State → Fin 64 → State} (number : imm.toNat < 64)
    (level : s.pl < (s.arrived 5).syncLevel imm.toNat) (exec : exec i s = .next (s.instr 5 [a] [] fun u => u.onCounter imm (work u))) :
    Does i s (s.trapped 5 cPRIV 0#32 0#64) :=
  Does.trap issues exec (State.onCounter_priv number (s.arrived_pl 5 ▸ level) _)

end

theorem State.commit_sb (s : State) (len : Nat) : (s.commit len).cpu.sb = s.cpu.sb := congrArg Prod.snd (s.commit_tileAndStores len)

/-- What enters the store buffer stands last in it. -/
theorem State.pushSb_sb (s : State) (k : SbKind) : ∃ e, (s.pushSb k).cpu.sb = s.cpu.sb ++ [e] ∧ e.kind = k := ⟨_, rfl, rfl⟩

theorem syncwait_leaves {s : State} {a : GReg} {imm : Byte} {n : Fin 64} (issues : s.issues 5 [a] []) (number : imm.toNat = n.val)
    (level : (s.arrived 5).syncLevel n.val ≤ s.pl) :
    let v := s.seen
    let x := (v.readG a).setWidth 32
    (x.toNat ≤ v.sync[n].toNat → Does (.syncwait a imm) s (v.next 5))
      ∧ (v.sync[n].toNat < x.toNat → Leaves (.syncwait a imm) s fun t => t.seen = v ∧ t.cpu.wait = .syncwait n.val x) := by
  intro v x
  have value : lo32 ((s.arrived 5).g a) = x := by rw [s.arrived_g, lo32]
  have counter : (s.arrived 5).sync[n] = v.sync[n] := by rw [s.arrived_sync]
  have lets := fun k => State.onCounter_lets number (s.arrived_pl 5 ▸ level : (s.arrived 5).syncLevel n.val ≤ (s.arrived 5).pl) k
  refine ⟨fun reached => Does.of_work issues rfl ?_, fun below => Leaves.of_work issues rfl ?_⟩
  · rw [lets, value, counter, if_pos reached, State.commit_sees, s.arrived_seen]
  · rw [lets, value, counter, if_neg (Nat.not_le.mpr below), number]
    exact ⟨s.arrived_seen 5, rfl⟩

theorem syncradd_leaves {s : State} {a b : GReg} {imm : Byte} {n : Fin 64} (number : imm.toNat = n.val) (issues : s.issues 5 [a, b] [])
    (room : (s.arrived 5).cpu.sb.length < 8) :
    Leaves (.syncradd a b imm) s fun t => t.seen = s.seen.next 5 ∧ ∃ e, t.cpu.sb = (s.arrived 5).cpu.sb ++ [e]
      ∧ e.kind = .sadd ((s.seen.readG a).setWidth 32) (BitVec.ofNat 6 n.val) ((s.seen.readG b).setWidth 32) := by
  refine Leaves.of_work issues rfl ?_
  rw [if_neg (by omega), State.sbFull, if_neg (by simpa using room), s.arrived_g, s.arrived_g, number]
  refine ⟨by rw [State.commit_sees, State.pushSb_seen, s.arrived_seen], ?_⟩
  rw [State.commit_sb]
  exact State.pushSb_sb _ _

/-- Settles O34: a counter that lets the instruction in by `State.onCounter_lets`, what a commit leaves by `State.commit_sees`. -/
theorem syncInstructionsUseTheirCounter : Obligations.SyncInstructionsUseTheirCounter := by
  unfold Obligations.SyncInstructionsUseTheirCounter
  intro s a b n imm number
  refine ⟨fun issues level => ⟨?_, ?_, ?_, syncwait_leaves issues number level⟩, fun h waits reached => ⟨_, rfl, ?_⟩,
    fun issues room => syncradd_leaves number issues room⟩
  · refine Does.onCounter issues number level rfl ?_
    rw [State.commit_sees, State.syncAdd_sees, s.arrived_g, s.arrived_seen, lo32]
  · refine Does.onCounter issues number level rfl ?_
    rw [State.commit_sees, State.syncSet_sees, s.arrived_g, s.arrived_seen, lo32]
  · refine Does.onCounter issues number level rfl ?_
    rw [State.commit_sees, State.setG_sees, s.arrived_sync, s.arrived_seen]
  · have reached : h.toNat ≤ s.sync[ctr n.val].toNat := by
      simp only [ctr_val]
      exact reached
    rw [waits]
    dsimp only
    rw [if_pos reached, State.commit_sees]

/-! ## Special registers (R260) -/

theorem State.withSr_unlisted {n : Byte} (h : specialReg n = none) (s : State) (write : Bool) (k : SpecialReg → State) :
    s.withSr n write k = s.undef := by rw [State.withSr, h]

theorem State.withSr_readOnly {n : Byte} {r : SpecialReg} (h : specialReg n = some r) (readOnly : srWritable r = false) (s : State)
    (k : SpecialReg → State) : s.withSr n true k = s.undef := by simp [State.withSr, h, readOnly]

theorem State.withSr_above {n : Byte} {r : SpecialReg} {s : State} {write : Bool} (h : specialReg n = some r) (may : write = true → srWritable r = true)
    (above : s.pl < srLevel r) (k : SpecialReg → State) : s.withSr n write k = s.except cPRIV (n.setWidth 32) 0#64 := by
  cases write with
  | true => simp [State.withSr, h, above, may rfl]
  | false => simp [State.withSr, h, above]

theorem specialRegistersAreGuarded : SpecialRegistersAreGuarded := by
  intro s g n issues
  refine ⟨fun unlisted => ⟨?_, ?_⟩, fun r listed => ⟨fun readOnly => ?_, fun above => ?_⟩⟩
  · exact Does.trap issues rfl (State.withSr_unlisted unlisted _ _ _)
  · exact Does.trap issues rfl (State.withSr_unlisted unlisted _ _ _)
  · exact Does.trap issues rfl (State.withSr_readOnly listed readOnly _ _)
  · have above : (s.arrived 5).pl < srLevel r := s.arrived_pl 5 ▸ above
    exact ⟨Does.trap issues rfl (State.withSr_above listed (by simp) above _),
      fun writable => Does.trap issues rfl (State.withSr_above listed (fun _ => writable) above _)⟩

/-! ## Privileged instructions (R271) -/

theorem State.notUser_user {s : State} (h : s.pl = 0) (k : State) : s.notUser k = s.except cPRIV 0#32 0#64 := if_pos h

theorem xinvBad_global {imm : Byte} (small : imm.toNat < 8) (scope : imm.toNat % 4 = 3) (a : GReg) : xinvBad imm a a a = false := by
  simp [xinvBad, scope, small]

theorem privilegedInstructionsTrapAtUser : PrivilegedInstructionsTrapAtUser := by
  intro s a imm user
  have user (len : Nat) : (s.arrived len).pl = 0 := (s.arrived_pl len).trans user
  have guarded {i : Instr} {len : Nat} {gs : List (Fin 32)} {k : State → State} (exec : exec i s = .next (s.instr len gs [] fun u => u.notUser (k u)))
      (issues : s.issues len gs []) : Does i s (s.trapped len cPRIV 0#32 0#64) :=
    Does.trap issues exec (State.notUser_user (user len) _)
  refine ⟨guarded rfl, guarded rfl, guarded rfl, guarded rfl, guarded rfl, guarded rfl, guarded rfl, guarded rfl, guarded rfl, guarded rfl, ?_, ?_, ?_⟩
  · intro way issues
    exact Does.trap issues rfl ((if_neg (Nat.not_le.mpr way)).trans (State.notUser_user (user 5) _))
  · intro way issues
    exact Does.trap issues rfl ((if_neg (Nat.not_le.mpr way)).trans (State.notUser_user (user 5) _))
  · intro small scope issues
    refine Does.trap issues rfl ?_
    dsimp only
    rw [xinvBad_global small scope, if_neg Bool.false_ne_true, if_pos (.inl (user 5))]

theorem syncInstructionsAreGuarded : SyncInstructionsAreGuarded := by
  intro s a b imm
  refine ⟨fun issues number => ?_, fun issues number level => ?_, fun issues number => Does.trap issues rfl (if_pos number)⟩
  · exact ⟨.counter_undef issues number rfl, .counter_undef issues number rfl, .counter_undef issues number rfl, .counter_undef issues number rfl⟩
  · exact ⟨.counter_priv issues number level rfl, .counter_priv issues number level rfl, .counter_priv issues number level rfl,
      .counter_priv issues number level rfl⟩

/-- Settles O35: each guard stands before the instruction's own work, which the trap replaces (`Does.trap`). -/
theorem guardedInstructionsTrap : Obligations.GuardedInstructionsTrap :=
  ⟨specialRegistersAreGuarded, privilegedInstructionsTrapAtUser, syncInstructionsAreGuarded⟩

/-! ## One step with nothing commanded (R201) -/

/-- Settles O2: with no command waiting, a step is the idle one. -/
theorem emptyQueuePassesOneCycle : Obligations.EmptyQueuePassesOneCycle := by
  unfold Obligations.EmptyQueuePassesOneCycle
  intro s empty
  rw [step, empty]
  rfl

end Sys2Proof.Machine
end

section
/-! PROOF. A cache way that retires can lose a Dirty line (O42 fails): its data cannot be read, so the loss is a machine check, which makes
an entry of its own in the ledger (R256, R321, R441), also where RAS_RETIRE.REAPPLY keeps the retirement from making one (R447). -/

namespace Sys2Proof.Machine

/-- A running core whose L1D holds one Dirty line with uncorrectable data, in way 0. -/
def dirtyLineLost : State :=
  { State.reset with
    rst := { Rst.init with phase := .run, wholeLow := false }
    caches := { Caches.init with d := ⟨[(0, ⟨0, true, List.replicate 64 0#8, .bad⟩)], []⟩ } }

theorem dirtyLineLost_quiet : dirtyLineLost.latchWfi.quiet := by
  rw [show dirtyLineLost.latchWfi = dirtyLineLost by decide +kernel]
  exact ⟨⟨rfl, rfl, rfl, rfl, rfl, rfl, rfl⟩, rfl, rfl⟩

/-- Way 0 of L1D retires with REAPPLY: the lost line alone has made an entry. -/
theorem retireReapply_dirtyLineLost : (dirtyLineLost.accessWrite .local 0xD124 0x330#32).settleHeld.ras.ledger.map LedgerEntry.type = [3#8] := by
  decide +kernel

/-- Refutes O42: by its clause on RETIRE with REAPPLY, channel 0x30 of `dirtyLineLost` would retire without an entry of the ledger. -/
theorem not_fabricPowerAndReliabilityPages : ¬ Obligations.FabricPowerAndReliabilityPages := by
  unfold Obligations.FabricPowerAndReliabilityPages
  rintro ⟨-, rasPage⟩
  obtain ⟨-, retires, -⟩ := rasPage dirtyLineLost .local 0x30#32 (by decide +kernel)
  obtain ⟨-, t, done, -, unchanged⟩ := retires dirtyLineLost_quiet (by decide +kernel) (by decide +kernel)
  injection done with done
  have empty : t.ras.ledger = [] := unchanged
  have entry : t.ras.ledger.map LedgerEntry.type = [3#8] := done ▸ retireReapply_dirtyLineLost
  rw [empty] at entry
  exact absurd entry (by decide)

end Sys2Proof.Machine
end

section
/-! PROOF. Staging merges a contribution's bytes into what its unit reads as (O48 fails): a unit of the weight class that remembers fewer than
its 32 bytes (R358, R359) reads as those, and the merged bytes stand before the place that is theirs in the row. The statement speaks of every
state, and asks nothing of what a unit remembers; `UnitMark.baseAfter` itself keeps the unit's 32 bytes. -/

namespace Sys2Proof.Machine

/-- A slot that takes rows of two binary32 elements, one source's first element being staged. -/
def halfStaged : TallySlot :=
  { TallySlot.init with
    desc := some { dest := 0, arena := 0, idLo := 0, idHi := 0, count := 2, expect := 1, replace := true, op := 0, fmt := 0, doneEn := false,
                   done := 0, wbase := 0 }
    rows0 := [⟨0#32, 4, 0#64⟩] }

/-- The second element of that row. -/
def secondElement : TallyMsg := ⟨0#32, false, 0#16, 0#6, 4#21, 0#64, [1#8, 1#8, 1#8, 1#8]⟩

/-- A running core to which it is held back; the row's vector stands in unit 2, of the weight class, which remembers a weight unit of no
bytes. -/
def emptyBase : State :=
  { State.reset with
    rst := { Rst.init with phase := .run, wholeLow := false }
    bell := { Bell.init with unsync := false }
    regs := [(0x6200, 64#32), (0x6204, 64#32), (0x6208, 0x8010#32)]
    spx := { Spx.init with groups := Vector.replicate 16 .on, marks := [⟨2, 0xF#4, 0#4, 0#288, some []⟩] }
    tally := { Tally.init with slots := halfStaged :: List.replicate 63 TallySlot.init, waiting := [(secondElement, false)] } }

theorem judge_emptyBase : emptyBase.judge secondElement false = .stage (some 0) false := by decide +kernel

/-- The element's place in the row takes no byte. -/
theorem serveWaiting_emptyBase : emptyBase.serveWaiting.spx.mem.get 68 = 0#8 := by decide +kernel

/-- Refutes O48: by its last clause `secondElement` would stand at byte 68 of the scratchpad once staged from `emptyBase`. -/
theorem not_tallySlotsAndApplies : ¬ Obligations.TallySlotsAndApplies := by
  unfold Obligations.TallySlotsAndApplies
  intro holds
  obtain ⟨-, -, held⟩ := holds emptyBase
  obtain ⟨-, -, stages⟩ := held secondElement false rfl rfl (by decide +kernel)
  obtain ⟨t, done, -, -, bytes, -⟩ := stages (some 0) false _ judge_emptyBase ⟨rfl, by decide, by decide +kernel, by decide +kernel⟩
  injection done with done
  have staged : t.spx.mem.get 68 = 1#8 := bytes 0 (by decide)
  rw [← done, serveWaiting_emptyBase] at staged
  exact absurd staged (by decide)

end Sys2Proof.Machine
end

section
/-! PROOF. Bells and the offsets within them (O47; R201, R205, R207, R220, R434): what the passing of time leaves of the bell unit, the Tally and
what software sees; a stretch of time up to the next offset; the bell itself; the leak. -/

namespace Sys2Proof.Machine

/-! ## What the counting of cycles leaves (R201) -/

/-- What a cycle in which only counters move leaves: the bell unit, the Tally, what software sees, whether the core's per-bell actions take place and
whether the clock runs. -/
def State.setting (s : State) : Bell × Tally × Seen × Bool × Bool := (s.bell, s.tally, s.seen, s.serving, s.clockOn)

/-- The counters that time moves in the register map: CORE_CYCLES, TILE_GAPCYC, the leak counter. -/
def cycleKeys : List Nat := [0x1118, 0x111C, 0x4138, 0x413C, 0xD108]

/-- `t` is `s` after cycles in which only counters moved. -/
structure OnlyCounts (s t : State) : Prop where
  setting : t.setting = s.setting
  regs : KeepsRegs s t cycleKeys

theorem OnlyCounts.refl (s : State) : OnlyCounts s s := ⟨rfl, KeepsRegs.refl s _⟩

theorem OnlyCounts.trans {s t u : State} (h : OnlyCounts s t) (h' : OnlyCounts t u) : OnlyCounts s u :=
  ⟨h'.setting.trans h.setting, h.regs.trans h'.regs⟩

theorem OnlyCounts.ite {s t : State} {c : Prop} [Decidable c] (h : c → OnlyCounts s t) : OnlyCounts s (if c then t else s) := by
  split
  · exact h ‹_›
  · exact OnlyCounts.refl s

section
variable {s t : State} (h : OnlyCounts s t)
include h

theorem OnlyCounts.bell : t.bell = s.bell := congrArg Prod.fst h.setting
theorem OnlyCounts.tally : t.tally = s.tally := congrArg (fun x => x.2.1) h.setting
theorem OnlyCounts.seen : t.seen = s.seen := congrArg (fun x => x.2.2.1) h.setting
theorem OnlyCounts.serving : t.serving = s.serving := congrArg (fun x => x.2.2.2.1) h.setting
theorem OnlyCounts.clockOn : t.clockOn = s.clockOn := congrArg (fun x => x.2.2.2.2) h.setting
theorem OnlyCounts.age : t.age = s.age := congrArg (fun x => x.1.c + x.1.ot) h.setting
theorem OnlyCounts.period : t.period = s.period := congrArg BitVec.toNat (h.regs _ (by decide))
theorem OnlyCounts.split : t.split = s.split := congrArg BitVec.toNat (h.regs _ (by decide))
theorem OnlyCounts.applyAt : t.applyAt = s.applyAt := congrArg (fun w => max 64 w.toNat) (h.regs (pTALLY + 0x100) (by decide))
theorem OnlyCounts.enRamp : t.enRamp = s.enRamp := congrArg (BitVec.getLsbD · 1) (h.regs (pWEIGH + 0x100) (by decide))
theorem OnlyCounts.enAllow : t.enAllow = s.enAllow := congrArg (BitVec.getLsbD · 0) (h.regs (pWEIGH + 0x100) (by decide))
theorem OnlyCounts.splitAhead : t.splitAhead = s.splitAhead := by
  rw [State.splitAhead, State.splitAhead, h.bell, h.age, h.split, h.period]
theorem OnlyCounts.applyAhead : t.applyAhead = s.applyAhead := by
  rw [State.applyAhead, State.applyAhead, h.bell, h.age, h.applyAt, h.period]

/-- Of two states that differ in counters, the cycles of one age do too. -/
theorem OnlyCounts.setAge (a : Nat) : OnlyCounts (s.setAge a) (t.setAge a) := by
  refine ⟨?_, h.regs⟩
  show (({ t.bell with c := min a (t.period - 1), ot := a - min a (t.period - 1) } : Bell), t.tally, t.seen, t.serving, t.clockOn) = _
  rw [h.period, h.bell, h.tally, h.seen, h.serving, h.clockOn]
  rfl

end

theorem State.bump64_onlyCounts (s : State) {k : Nat} (n : Nat) (h : k ∈ cycleKeys) (h' : k + 4 ∈ cycleKeys) : OnlyCounts s (s.bump64 k n) :=
  ⟨rfl, (s.setReg64_onlyRegs _ h h').2⟩

theorem State.leak_onlyCounts (s : State) : OnlyCounts s s.leak :=
  OnlyCounts.ite fun _ => ⟨rfl, State.setReg_keepsRegs _ _ _ |>.mono (by decide)⟩

theorem State.levelSync_onlyCounts (s : State) : OnlyCounts s s.levelSync := by
  unfold State.levelSync
  split
  · exact OnlyCounts.refl s
  · exact ⟨rfl, fun _ _ => rfl⟩

theorem State.stepLevel_onlyCounts (s : State) : OnlyCounts s s.stepLevel := OnlyCounts.ite fun _ => ⟨rfl, fun _ _ => rfl⟩

theorem State.elapse_onlyCounts (s : State) (n : Nat) : OnlyCounts s (s.elapse n) := ⟨rfl, fun _ _ => rfl⟩

theorem State.countGap_onlyCounts (s : State) (p n : Nat) : OnlyCounts s (s.countGap p n) :=
  OnlyCounts.ite fun _ => s.bump64_onlyCounts _ (by decide) (by decide)

theorem State.countCycles_onlyCounts (s : State) (a n : Nat) : OnlyCounts s (s.countCycles a n) := by
  unfold State.countCycles
  extract_lets p cycles energy gap
  have counted : OnlyCounts s cycles := OnlyCounts.ite fun _ => s.bump64_onlyCounts _ (by decide) (by decide)
  have charged : OnlyCounts cycles energy := by
    unfold energy
    split
    · exact ⟨rfl, fun _ _ => rfl⟩
    · exact OnlyCounts.ite fun _ => ⟨rfl, fun _ _ => rfl⟩
  have gaps : OnlyCounts energy gap := State.countGap_onlyCounts _ _ _
  exact ((counted.trans charged).trans gaps).trans ⟨rfl, fun _ _ => rfl⟩

theorem State.cycleAt_onlyCounts (s : State) (a : Nat) : OnlyCounts (s.setAge a) (s.cycleAt a) :=
  ((State.elapse_onlyCounts _ _).trans (State.stepLevel_onlyCounts _)).trans (State.countCycles_onlyCounts _ _ _)

/-- With the allowance not in force its test does nothing (R403). -/
theorem State.checkAllow_off {s : State} (h : s.enAllow = false) : s.checkAllow = s := by simp [State.checkAllow, h]

theorem State.checkAllow_setting (s : State) : s.checkAllow.setting = s.setting := by
  have captured (u : State) (e : ErrEvt) : (u.raiseErr pWEIGH e).setting = u.setting := by
    obtain ⟨m, eq⟩ := ((u.raise_onlyRegs pWEIGH e.bit).trans (State.capture_onlyRegs _ pWEIGH e)).1
    rw [State.raiseErr, eq]
    rfl
  unfold State.checkAllow
  split
  · exact captured _ _
  · rfl

/-! ## Time goes on to the next offset -/

theorem State.setAge_age (s : State) (a : Nat) : (s.setAge a).age = a := by
  show min a (s.period - 1) + (a - min a (s.period - 1)) = a
  omega

theorem State.setAge_bell {s : State} {a : Nat} (h : a < s.period) : (s.setAge a).bell = { s.bell with c := a, ot := 0 } := by
  have stays : min a (s.period - 1) = a := by omega
  simp only [State.setAge, stays, Nat.sub_self]

/-- With neither ramp nor allowance in force the next cycle in which more happens than counting is that of the next offset. -/
theorem State.nextAge_offset {s : State} {t : Nat} (ramp : s.enRamp = false) (allow : s.enAllow = false) (split : s.splitAhead = true → s.split = t)
    (apply : s.applyAhead = true → s.applyAt = t) : s.nextAge t = t := by
  have noRamp : s.rampAge = none := by simp [State.rampAge, ramp]
  have noExhaust : s.exhaustAge = none := by simp [State.exhaustAge, allow]
  have upTo {c : Prop} [Decidable c] {n : Nat} (h : c → n = t) : (if c then min t n else t) = t := by
    split
    · rw [h ‹_›, Nat.min_self]
    · rfl
  simp only [State.nextAge, noRamp, noExhaust, Option.getD_none, Nat.min_self, upTo split, upTo apply]

/-! ## What happens at an offset (R205, R220, R227) -/

/-- The bell unit and whether its clock runs. -/
def State.clock (s : State) : Bell × Bool := (s.bell, s.clockOn)

theorem OnlyRegs.clock {s t : State} {ks : List Nat} (h : OnlyRegs s t ks) : t.clock = s.clock := by
  obtain ⟨⟨m, rfl⟩, -⟩ := h
  rfl

theorem State.raiseErrs_clock (s : State) (p : Nat) (es : List ErrEvt) : (s.raiseErrs p es).clock = s.clock := (s.raiseErrs_onlyRegs p es).clock

theorem State.raiseErr_clock (s : State) (p : Nat) (e : ErrEvt) : (s.raiseErr p e).clock = s.clock :=
  ((s.raise_onlyRegs p e.bit).trans (State.capture_onlyRegs _ p e)).clock

theorem State.pickSlot_clock (s : State) (u : BitVec 40) (n : Nat) (xs : List Nat) : (s.pickSlot u n xs).clock = s.clock := by
  induction xs generalizing s with
  | nil => rfl
  | cons x xs ih =>
    unfold State.pickSlot
    dsimp only
    split
    · exact ih s
    · split
      · exact (ih _).trans (State.raiseErr_clock _ _ _)
      · rfl

theorem State.incompleteAll_clock (s : State) (cause : Nat) (u : BitVec 40) (xs : List Nat) : (s.incompleteAll cause u xs).1.clock = s.clock := by
  induction xs generalizing s with
  | nil => rfl
  | cons x xs ih => exact ih (s.markIncomplete x (bufOf u))

theorem State.applyStart_clock (s : State) : s.applyStart.clock = s.clock := by
  unfold State.applyStart
  dsimp only
  split
  · exact (State.raiseErrs_clock _ _ _).trans (State.incompleteAll_clock _ _ _ _)
  · split
    · rfl
    · split
      · rfl
      · exact State.pickSlot_clock _ _ _ _

theorem State.closeNow_clock (s : State) : s.closeNow.clock = ({ s.bell with applyDone := true }, s.clockOn) := by
  unfold State.closeNow
  dsimp only
  split
  · exact State.applyStart_clock _
  · rfl

theorem State.splitNow_clock (s : State) : s.splitNow.clock = ({ s.bell with splitDone := true }, s.clockOn) := by
  unfold State.splitNow
  dsimp only
  split <;> split <;> rfl

theorem State.splitNow_sees (s : State) : s.splitNow.seen
    = if s.serving && (s.reg 0x9100).getLsbD 30 then s.seen.addSync (ctr (fld (s.reg 0x9100) 24 6)) 1#32 else s.seen := by
  unfold State.splitNow
  extract_lets ctl hooked bell done
  have last : (if done.sampling then done.updateForecast else done).seen = hooked.seen := by split <;> rfl
  exact last.trans (ite_seen _ _)

/-- What happens at an offset leaves C, the overtime, the tick and UNSYNC. -/
theorem State.offsetActs_clock (s : State) (a b : Bool) : ∃ x y,
    (s.offsetActs a b).clock = ({ s.bell with splitDone := x, applyDone := y }, s.clockOn) := by
  unfold State.offsetActs
  dsimp only
  split
  · have split := s.splitNow_clock
    split
    · exact ⟨_, _, (State.closeNow_clock _).trans (congrArg (fun c => (({ c.1 with applyDone := true } : Bell), c.2)) split)⟩
    · exact ⟨_, _, split⟩
  · split
    · exact ⟨_, _, State.closeNow_clock _⟩
    · exact ⟨_, _, rfl⟩

theorem State.offsetActs_age (s : State) (a b : Bool) : (s.offsetActs a b).age = s.age := by
  obtain ⟨x, y, clock⟩ := s.offsetActs_clock a b
  exact congrArg (fun c => c.1.c + c.1.ot) clock

/-! ## A stretch of time -/

theorem State.age_of_setting {s t : State} (h : t.setting = s.setting) : t.age = s.age := congrArg (fun x => x.1.c + x.1.ot) h

/-- Once the age is reached, time does not go on. -/
theorem State.passTo_reached {s : State} {t : Nat} (k : Nat) (h : t ≤ s.age) : (s.passTo t k).setting = s.setting := by
  have synced : s.checkAllow.levelSync.setting = s.setting := (State.levelSync_onlyCounts _).setting.trans s.checkAllow_setting
  cases k with
  | zero => rfl
  | succ k =>
    rw [State.passTo]
    dsimp only
    rwa [if_pos (h.trans_eq (State.age_of_setting synced).symm)]

section
variable {s : State} {t : Nat} (ramp : s.enRamp = false) (allow : s.enAllow = false) (later : s.age < t)
  (split : s.splitAhead = true → s.split = t) (apply : s.applyAhead = true → s.applyAt = t)
include ramp allow later split apply

/-- Time goes on to the next offset in one stretch: counters move, C takes its place, what the offset brings happens. -/
theorem State.passTo_offset (k : Nat) :
    ∃ u, OnlyCounts (s.setAge t) u ∧ (s.passTo t (k + 1)).setting = (u.offsetActs s.splitAhead s.applyAhead).setting := by
  have synced : OnlyCounts s s.levelSync := s.levelSync_onlyCounts
  have next : s.levelSync.nextAge t = t := State.nextAge_offset (synced.enRamp.trans ramp) (synced.enAllow.trans allow)
    (fun h => synced.split.trans (split (synced.splitAhead ▸ h))) (fun h => synced.applyAt.trans (apply (synced.applyAhead ▸ h)))
  let skip := t - 1 - s.levelSync.age
  let v := (s.levelSync.countCycles (s.levelSync.age + 1) skip).elapse skip
  have counted : OnlyCounts s v := (synced.trans (State.countCycles_onlyCounts _ _ _)).trans (State.elapse_onlyCounts _ _)
  have there : OnlyCounts (s.setAge t) (v.cycleAt t) := (counted.setAge t).trans (v.cycleAt_onlyCounts t)
  refine ⟨v.cycleAt t, there, ?_⟩
  let w := ((v.cycleAt t).offsetActs s.splitAhead s.applyAhead).checkAllow
  have acted : w.setting = ((v.cycleAt t).offsetActs s.splitAhead s.applyAhead).setting := State.checkAllow_setting _
  have age : w.age = t := by
    rw [State.age_of_setting acted, State.offsetActs_age, there.age, s.setAge_age]
  have step : s.passTo t (k + 1) = w.passTo t k := by
    rw [State.passTo]
    dsimp only
    rw [State.checkAllow_off allow, if_neg (by rw [synced.age]; omega), next, synced.splitAhead, synced.applyAhead]
  rw [step, State.passTo_reached k age.ge, acted]

theorem State.reach_offset (on : s.clockOn = true) (most : t ≤ s.lastAge) :
    ∃ u, OnlyCounts (s.setAge t) u ∧ (s.reach t).setting = (u.offsetActs s.splitAhead s.applyAhead).setting := by
  have leaked : OnlyCounts s s.leak := s.leak_onlyCounts
  obtain ⟨u, counts, there⟩ := State.passTo_offset (leaked.enRamp.trans ramp) (leaked.enAllow.trans allow) (leaked.age.trans_lt later)
    (fun h => leaked.split.trans (split (leaked.splitAhead ▸ h))) (fun h => leaked.applyAt.trans (apply (leaked.applyAhead ▸ h))) 63
  refine ⟨u, (leaked.setAge t).trans counts, ?_⟩
  rw [State.reach, if_pos on, Nat.min_eq_left most, ← leaked.splitAhead, ← leaked.applyAhead]
  exact there

end

/-! ## The slots of an apply (R220) -/

theorem State.armedSlots_congr {s t : State} (h : t.tally = s.tally) (u : BitVec 40) : t.armedSlots u = s.armedSlots u := by
  simp only [State.armedSlots, State.slot, h]

/-- Without a slot armed for the tick that closes, nothing is applied. -/
theorem State.applyStart_idle {s : State} (synced : s.bell.unsync = false) (idle : s.armedSlots (s.bell.tick - 1#40) = []) :
    s.applyStart = s := by
  have noSlots : (s.armedSlots (s.bell.tick - 1)).isEmpty = true := List.isEmpty_iff.mpr idle
  simp only [State.applyStart, synced, noSlots, Bool.false_eq_true, if_false, if_true]

/-- The first slot armed for the tick that closes is worked on, where its rows are complete. -/
theorem State.applyStart_works {s : State} {n : Nat} {ns : List Nat} {d : TallyDesc} (synced : s.bell.unsync = false) (free : s.tally.apply = none)
    (slots : s.armedSlots (s.bell.tick - 1#40) = n :: ns) (desc : (s.slot n).desc = some d)
    (complete : d.expect ≤ (completeRows d ((s.slot n).rows (bufOf (s.bell.tick - 1#40)))).length) :
    let rows := completeRows d ((s.slot n).rows (bufOf (s.bell.tick - 1#40)))
    s.applyStart.tally.apply = some ⟨s.bell.tick - 1#40, ⟨n, d, sortRows rows⟩, ns, d.cycles rows.length⟩ := by
  have picks : s.applyStart = s.pickSlot (s.bell.tick - 1#40) 0 (n :: ns) := by
    simp only [State.applyStart, synced, free, Bool.false_eq_true, if_false, Option.isSome_none]
    rw [show s.armedSlots (s.bell.tick - 1) = n :: ns from slots]
    rfl
  rw [picks, State.pickSlot]
  simp only [desc, if_neg (Nat.not_lt.mpr complete), Nat.zero_add]

theorem State.closeNow_serving {s : State} (h : s.serving = true) :
    s.closeNow = ({ s with bell := { s.bell with applyDone := true } } : State).applyStart := if_pos h

/-! ## SPLIT, APPLY_AT, overtime (R201, R205, R208, R220) -/

section
variable {s : State} (on : s.clockOn = true) (ot : s.bell.ot = 0) (ramp : s.enRamp = false) (allow : s.enAllow = false)
include on ot ramp allow

theorem splitPoint_leaves (serving : s.serving = true) (waits : s.bell.splitDone = false) (applied : s.bell.applyDone = true)
    (ahead : s.bell.c < s.split) (within : s.split < s.period) : Leaves .splitPoint s fun t =>
      t.bell.c = s.split ∧ t.bell.tick = s.bell.tick ∧ t.bell.splitDone = true
        ∧ t.seen = if (s.reg 0x9100).getLsbD 30 then s.seen.addSync (ctr (fld (s.reg 0x9100) 24 6)) 1#32 else s.seen := by
  have age : s.age = s.bell.c := by rw [State.age, ot, Nat.add_zero]
  have splitAhead : s.splitAhead = true := by simp [State.splitAhead, waits, age, ahead, within]
  have noApply : s.applyAhead = false := by simp [State.applyAhead, applied]
  obtain ⟨u, counts, there⟩ := State.reach_offset (t := s.split) ramp allow (by omega) (fun _ => rfl) (by simp [noApply]) on
    (by unfold State.lastAge; omega)
  have bell : u.bell = { s.bell with c := s.split, ot := 0 } := counts.bell.trans (State.setAge_bell within)
  have control : u.reg 0x9100 = s.reg 0x9100 := counts.regs _ (by decide)
  have serves : u.serving = true := counts.serving.trans serving
  have seen : u.seen = s.seen := counts.seen.trans (s.setAge_seen _)
  have reached : (s.reach s.split).setting = u.splitNow.setting := by
    have hit : u.bell.c = u.split := (congrArg Bell.c bell).trans counts.split.symm
    simp [there, splitAhead, noApply, State.offsetActs, hit]
  have bellThen : (s.reach s.split).bell = { s.bell with c := s.split, ot := 0, splitDone := true } := by
    rw [show (s.reach s.split).bell = { u.bell with splitDone := true } from
      (congrArg Prod.fst reached).trans (congrArg Prod.fst u.splitNow_clock), bell]
  have seenThen : (s.reach s.split).seen = u.splitNow.seen := congrArg (fun x => x.2.2.1) reached
  have command : (if s.bell.c < s.split && s.split < s.period then s.riseTo s.split else s) = s.reach s.split := by
    rw [if_pos (by simp [ahead, within]), State.riseTo, Nat.min_eq_left (by omega)]
  refine ⟨_, congrArg Host.Outcome.next command, ?_, ?_, ?_, ?_⟩
  · rw [bellThen]
  · rw [bellThen]
  · rw [bellThen]
  · rw [seenThen, State.splitNow_sees, serves, control, seen, Bool.true_and]

theorem overtime_leaves (split : s.bell.splitDone = true) (applied : s.bell.applyDone = true) (positive : 0 < s.period)
    (within : s.bell.c ≤ s.period - 1) : Leaves .overtime s fun t =>
      t.bell.c = s.period - 1 ∧ t.bell.ot = 1 ∧ t.bell.tick = s.bell.tick := by
  have age : s.age = s.bell.c := by rw [State.age, ot, Nat.add_zero]
  have noSplit : s.splitAhead = false := by simp [State.splitAhead, split]
  have noApply : s.applyAhead = false := by simp [State.applyAhead, applied]
  obtain ⟨u, counts, there⟩ := State.reach_offset (t := s.period) ramp allow (by omega) (by simp [noSplit]) (by simp [noApply]) on
    (by unfold State.lastAge; omega)
  have last : min s.period (s.period - 1) = s.period - 1 := by omega
  have one : s.period - (s.period - 1) = 1 := by omega
  have bell : (s.reach s.period).bell = { s.bell with c := s.period - 1, ot := 1 } := by
    rw [noSplit, noApply] at there
    exact (congrArg Prod.fst there).trans (counts.bell.trans (by simp only [State.setAge, last, one]))
  refine ⟨_, congrArg Host.Outcome.next (if_pos ot), ?_, ?_, ?_⟩ <;> rw [bell]

theorem tallyApplyStart_leaves (serving : s.serving = true) (split : s.bell.splitDone = true) (waits : s.bell.applyDone = false)
    (synced : s.bell.unsync = false) (free : s.tally.apply = none) (ahead : s.bell.c < s.applyAt) (within : s.applyAt < s.period) :
    Leaves .tallyApplyStart s fun t =>
      let tick := s.bell.tick - 1#40
      t.bell.c = s.applyAt ∧ t.bell.tick = s.bell.tick ∧ t.bell.applyDone = true ∧ t.seen = s.seen
        ∧ (s.armedSlots tick = [] → t.tally = s.tally)
        ∧ ∀ n ns d, s.armedSlots tick = n :: ns → (s.slot n).desc = some d →
          let rows := completeRows d ((s.slot n).rows (bufOf tick))
          d.expect ≤ rows.length → t.tally.apply = some ⟨tick, ⟨n, d, sortRows rows⟩, ns, d.cycles rows.length⟩ := by
  have age : s.age = s.bell.c := by rw [State.age, ot, Nat.add_zero]
  have noSplit : s.splitAhead = false := by simp [State.splitAhead, split]
  have applyAhead : s.applyAhead = true := by simp [State.applyAhead, waits, age, ahead, within]
  obtain ⟨u, counts, there⟩ := State.reach_offset (t := s.applyAt) ramp allow (by omega) (by simp [noSplit]) (fun _ => rfl) on
    (by unfold State.lastAge; omega)
  have bell : u.bell = { s.bell with c := s.applyAt, ot := 0 } := counts.bell.trans (State.setAge_bell within)
  have tally : u.tally = s.tally := counts.tally
  have reached : (s.reach s.applyAt).setting = u.closeNow.setting := by
    have hit : u.bell.c = u.applyAt := (congrArg Bell.c bell).trans counts.applyAt.symm
    simp [there, applyAhead, noSplit, State.offsetActs, hit]
  have bellThen : (s.reach s.applyAt).bell = { s.bell with c := s.applyAt, ot := 0, applyDone := true } := by
    rw [show (s.reach s.applyAt).bell = { u.bell with applyDone := true } from
      (congrArg Prod.fst reached).trans (congrArg Prod.fst u.closeNow_clock), bell]
  let w : State := { u with bell := { u.bell with applyDone := true } }
  have tallyThen : (s.reach s.applyAt).tally = w.applyStart.tally := by
    rw [← State.closeNow_serving (counts.serving.trans serving)]
    exact congrArg (fun x => x.2.1) reached
  have tick : w.bell.tick = s.bell.tick := (congrArg Bell.tick bell :)
  have unsync : w.bell.unsync = false := (congrArg Bell.unsync bell :).trans synced
  have armed : w.armedSlots (w.bell.tick - 1#40) = s.armedSlots (s.bell.tick - 1#40) := tick ▸ State.armedSlots_congr tally _
  have slot (n : Nat) : w.slot n = s.slot n := congrArg (fun y : Tally => y.slots.getD n TallySlot.init) tally
  have command : (if s.bell.c < s.applyAt && s.applyAt < s.period then s.riseTo s.applyAt else s) = s.reach s.applyAt := by
    rw [if_pos (by simp [ahead, within]), State.riseTo, Nat.min_eq_left (by omega)]
  refine ⟨_, congrArg Host.Outcome.next command, ?_, ?_, ?_, ?_, fun idle => ?_, fun n ns d slots desc complete => ?_⟩
  · rw [bellThen]
  · rw [bellThen]
  · rw [bellThen]
  · exact (congrArg (fun x => x.2.2.1) reached).trans (u.closeNow_seen.trans (counts.seen.trans (s.setAge_seen _)))
  · rw [tallyThen, State.applyStart_idle unsync (armed.trans idle)]
    exact tally
  · have works := State.applyStart_works (d := d) unsync ((congrArg Tally.apply tally).trans free) (armed.trans slots) ((slot n).symm ▸ desc)
      (by rwa [slot, tick])
    rw [tallyThen, works, slot, tick]

end

/-! ## The leak (R434) -/

/-- What the leak leaves of a bucket. -/
def leaked (retired : Nat → Bool) (c : Nat × Word) : Option (Nat × Word) :=
  if retired c.1 then some c else if c.2.toNat ≤ 1 then none else some (c.1, c.2 - 1#32)

theorem leaked_key {retired : Nat → Bool} {c d : Nat × Word} (h : leaked retired c = some d) : d.1 = c.1 := by
  unfold leaked at h
  split_ifs at h
  all_goals
    cases h
    rfl

theorem WMap.get?_eq_none {m : WMap} {k : Nat} (h : k ∉ m.map Prod.fst) : m.get? k = none := by
  induction m with
  | nil => rfl
  | cons c m ih =>
    obtain ⟨head, tail⟩ : k ≠ c.1 ∧ k ∉ m.map Prod.fst := by simpa using h
    rw [WMap.get?, if_neg (Ne.symm head), ih tail]

theorem WMap.get?_filterMap {f : Nat × Word → Option (Nat × Word)} (keeps : ∀ c d, f c = some d → d.1 = c.1) {m : WMap}
    (nodup : (m.map Prod.fst).Nodup) (k : Nat) : WMap.get? (m.filterMap f) k = (m.get? k).bind fun v => (f (k, v)).map Prod.snd := by
  induction m with
  | nil => rfl
  | cons c m ih =>
    obtain ⟨fresh, nodup⟩ := List.nodup_cons.mp nodup
    have ih := ih nodup
    by_cases hk : c.1 = k
    · subst hk
      have rest : WMap.get? (m.filterMap f) c.1 = none := by rw [ih, WMap.get?_eq_none fresh, Option.bind_none]
      rw [WMap.get?, if_pos rfl, Option.bind_some, List.filterMap_cons]
      cases hf : f c with
      | none => exact rest
      | some d => rw [WMap.get?, if_pos (keeps c d hf), Option.map_some]
    · rw [WMap.get?, if_neg hk, ← ih, List.filterMap_cons]
      cases hf : f c with
      | none => rfl
      | some d => rw [WMap.get?, if_neg (keeps c d hf ▸ hk)]

/-- The level that the leak leaves of a bucket that is listed. -/
theorem leaked_level (retired : Nat → Bool) (ch : Nat) (v : Word) :
    (((leaked retired (ch, v)).map Prod.snd).getD 0#32).toNat = if retired ch then v.toNat else v.toNat - 1 := by
  unfold leaked
  dsimp only
  split_ifs with kept empty
  · rfl
  · simp [Nat.sub_eq_zero_of_le empty]
  · exact BitVec.toNat_sub_of_le (BitVec.le_def.mpr (by simp; omega))

theorem State.leak_level {s : State} (due : s.ras.leakDue = true) (nodup : (s.ras.levels.map Prod.fst).Nodup) (ch : Nat) :
    s.leak.level ch = if s.retired ch then s.level ch else s.level ch - 1 := by
  have levels : s.leak.ras.levels = s.ras.levels.filterMap (leaked s.retired) := by
    rw [State.leak, if_pos due]
    rfl
  have after : WMap.get? (s.ras.levels.filterMap (leaked s.retired)) ch = _ := WMap.get?_filterMap (fun _ _ => leaked_key) nodup ch
  rw [State.level, levels, WMap.get, after, State.level, WMap.get]
  cases WMap.get? s.ras.levels ch with
  | none => simp
  | some v => exact leaked_level s.retired ch v

/-! ## The bell (R201, R207, R209) -/

/-- What of the bell unit no cycle within a bell changes, and whether its clock runs. -/
def State.dial (s : State) : BitVec 40 × Bool × Bool := (s.bell.tick, s.bell.unsync, s.clockOn)

theorem State.dial_of_clock {s t : State} (h : t.clock = s.clock) : t.dial = s.dial := congrArg (fun c => (c.1.tick, c.1.unsync, c.2)) h

theorem State.clock_of_setting {s t : State} (h : t.setting = s.setting) : t.clock = s.clock := congrArg (fun x => (x.1, x.2.2.2.2)) h

theorem State.cycleAt_dial (s : State) (a : Nat) : (s.cycleAt a).dial = s.dial :=
  (State.dial_of_clock (State.clock_of_setting (s.cycleAt_onlyCounts a).setting) : _ = (s.setAge a).dial)

theorem State.offsetActs_dial (s : State) (a b : Bool) : (s.offsetActs a b).dial = s.dial := by
  obtain ⟨x, y, clock⟩ := s.offsetActs_clock a b
  exact congrArg (fun c => (c.1.tick, c.1.unsync, c.2)) clock

theorem State.checkAllow_clock (s : State) : s.checkAllow.clock = s.clock := State.clock_of_setting s.checkAllow_setting

theorem OnlyCounts.clock {s t : State} (h : OnlyCounts s t) : t.clock = s.clock := State.clock_of_setting h.setting

theorem State.passTo_dial (s : State) (t k : Nat) : (s.passTo t k).dial = s.dial := by
  induction k generalizing s with
  | zero => rfl
  | succ k ih =>
    have synced : s.checkAllow.levelSync.clock = s.clock := (State.levelSync_onlyCounts _).clock.trans s.checkAllow_clock
    rw [State.passTo]
    dsimp only
    split
    · exact State.dial_of_clock synced
    · have counted (u : State) (a n : Nat) : ((u.countCycles a n).elapse n).clock = u.clock :=
        ((u.countCycles_onlyCounts a n).trans (State.elapse_onlyCounts _ n)).clock
      refine (ih _).trans ((State.dial_of_clock (State.checkAllow_clock _)).trans ?_)
      exact (State.offsetActs_dial _ _ _).trans ((State.cycleAt_dial _ _).trans (State.dial_of_clock ((counted _ _ _).trans synced)))

theorem State.reach_dial (s : State) (t : Nat) : (s.reach t).dial = s.dial := by
  unfold State.reach
  split
  · exact (State.passTo_dial _ _ _).trans (State.dial_of_clock s.leak_onlyCounts.clock)
  · rfl

theorem State.countLeak_clock (s : State) : s.countLeak.clock = s.clock := s.leak_onlyCounts.clock

theorem State.applyPage_clock (s : State) (n : Nat) : (s.applyPage n).clock = s.clock := by
  unfold State.applyPage
  extract_lets act done
  have acted (xs : List (Nat × Word)) (u : State) : (xs.foldl act u).clock = u.clock := by
    induction xs generalizing u with
    | nil => rfl
    | cons x xs ih =>
      refine (ih _).trans ?_
      unfold act
      split <;> rfl
  split
  · exact acted _ s
  · rfl

theorem State.applyRwb_clock (s : State) : s.applyRwb.clock = s.clock := by
  have applied (ps : List Nat) (u : State) : (ps.foldl State.applyPage u).clock = u.clock := by
    induction ps generalizing u with
    | nil => rfl
    | cons p ps ih => exact (ih _).trans (u.applyPage_clock p)
  exact applied _ s

theorem State.sampleAllow_clock (s : State) (allow : BitVec 16) : (s.sampleAllow allow).clock = s.clock := by
  unfold State.sampleAllow
  dsimp only
  split <;> rfl

theorem State.abandonApply_clock (s : State) : s.abandonApply.1.clock = s.clock := by
  unfold State.abandonApply
  split
  · rfl
  · exact (State.incompleteAll_clock _ _ _ _).trans (State.incompleteAll_clock _ _ _ _)

theorem State.loadDiscard_clock (s : State) (u : BitVec 40) : (s.loadDiscard u).1.clock = s.clock := by
  have released (xs : List Nat) (v : State) :
      (xs.foldl (fun v n => (v.markIncomplete n 0).markIncomplete n 1) v).clock = v.clock := by
    induction xs generalizing v with
    | nil => rfl
    | cons x xs ih => exact ih _
  exact released _ s

theorem State.bellTally_clock (s : State) (old : BitVec 40) (load : Bool) (arm : DWord) : ∃ y,
    (s.bellTally old load arm).clock = ({ s.bell with applyDone := y }, s.clockOn) := by
  unfold State.bellTally
  split
  · extract_lets abandoned jump discarded raised armed
    have discard : discarded.1.clock = s.clock := by
      unfold discarded
      split
      · exact (State.loadDiscard_clock _ _).trans s.abandonApply_clock
      · exact s.abandonApply_clock
    have clock : armed.clock = s.clock := (State.raiseErrs_clock _ _ _).trans discard
    exact ⟨jump, congrArg (fun c => (({ c.1 with applyDone := jump } : Bell), c.2)) clock⟩
  · exact ⟨_, rfl⟩

theorem State.bellSync_clock (s : State) : s.bellSync.clock = s.clock := by
  have written (u : State) (v : Vector Word 64) : ({ u with sync := v } : State).clock = u.clock := rfl
  unfold State.bellSync
  extract_lets clr cleared ctl
  have clear : cleared.clock = s.clock := written s _
  split
  · exact (written cleared _).trans clear
  · exact clear

theorem State.bellEnd_clock (s : State) : ∃ x, s.bellEnd.clock = ({ s.bell with c := 0, ot := 0, splitDone := x }, s.clockOn) := by
  unfold State.bellEnd
  extract_lets split
  have hooked : ∃ x, split.clock = ({ s.bell with splitDone := x }, s.clockOn) := by
    unfold split
    split
    · exact ⟨_, s.splitNow_clock⟩
    · exact ⟨_, rfl⟩
  obtain ⟨x, hooked⟩ := hooked
  have cycle : (split.levelSync.cycleAt 0).clock = (split.levelSync.setAge 0).clock := (State.cycleAt_onlyCounts _ 0).clock
  have begins : (split.levelSync.setAge 0).clock = ({ split.levelSync.bell with c := 0, ot := 0 }, split.levelSync.clockOn) := by
    simp only [State.clock, State.setAge, Nat.zero_min, Nat.sub_self]
    rfl
  have synced : split.levelSync.clock = ({ s.bell with splitDone := x }, s.clockOn) := split.levelSync_onlyCounts.clock.trans hooked
  exact ⟨x, ((State.checkAllow_clock _).trans (cycle.trans begins)).trans
    (congrArg (fun c => (({ c.1 with c := 0, ot := 0 } : Bell), c.2)) synced)⟩

theorem State.newTick_dial (s : State) (load : Bool) (tick : BitVec 40) (missed : Bool) : (s.newTick load tick missed).dial
    = (if load then tick else s.bell.tick + 1#40, missed || (s.bell.unsync && !load), s.clockOn) := rfl

/-- A bell makes the tick the loaded one or the next, and begins a cycle of its own. -/
theorem State.bellNow_bell {s : State} (on : s.clockOn = true) (load : Bool) (tick : BitVec 40) (allow : BitVec 16) (missed : Bool) :
    let t := s.bellNow load tick allow missed
    t.bell.tick = (if load then tick else s.bell.tick + 1#40) ∧ t.bell.c = 0 ∧ t.bell.ot = 0
      ∧ t.bell.unsync = (missed || (s.bell.unsync && !load)) := by
  intro t
  have ht : t = s.bellNow load tick allow missed := rfl
  clear_value t
  rw [State.bellNow, on, Bool.not_true, if_neg Bool.false_ne_true] at ht
  extract_lets began causes old dev arm begun measured told missing sampled at ht
  have synced : began.clock = s.clock := (State.levelSync_onlyCounts _).clock.trans s.checkAllow_clock
  have counted : begun.clock = (began.newTick load tick missed).clock := State.countLeak_clock _
  have tolds : told.clock = begun.clock := State.raiseErrs_clock _ _ _
  have missings : missing.clock = told.clock := by
    unfold missing
    split <;> rfl
  have samples : (missing.applyRwb.sampleAllow allow).clock = missing.clock := (State.sampleAllow_clock _ _).trans missing.applyRwb_clock
  obtain ⟨y, tallied⟩ := (missing.applyRwb.sampleAllow allow).bellTally_clock old load arm
  obtain ⟨x, ended⟩ := sampled.bellSync.bellEnd_clock
  have before : sampled.bellSync.dial = (began.newTick load tick missed).dial := by
    refine (State.dial_of_clock sampled.bellSync_clock).trans ?_
    refine Eq.trans (congrArg (fun c => (c.1.tick, c.1.unsync, c.2)) tallied) ?_
    exact State.dial_of_clock (samples.trans (missings.trans (tolds.trans counted)))
  have after : t.clock = _ := ht ▸ ended
  have tickBefore : sampled.bellSync.bell.tick = _ := congrArg Prod.fst before
  have unsyncBefore : sampled.bellSync.bell.unsync = _ := congrArg (fun d => d.2.1) before
  have bell : t.bell = _ := congrArg Prod.fst after
  have was : began.bell = s.bell := congrArg Prod.fst synced
  rw [bell]
  refine ⟨tickBefore.trans ?_, rfl, rfl, unsyncBefore.trans ?_⟩ <;> rw [State.newTick_dial, was]

/-- Beside the sync counters the bell hook, the split hook and clear at bell change nothing that software sees. -/
theorem State.bellSync_sees (s : State) : ∃ y, s.bellSync.seen = { s.seen with sync := y } := by
  have written (u : State) (v : Vector Word 64) : ({ u with sync := v } : State).seen = { u.seen with sync := v } := rfl
  unfold State.bellSync
  extract_lets clr cleared ctl
  split
  · exact ⟨_, written s _⟩
  · exact ⟨_, written s _⟩

theorem State.bellEnd_sees (s : State) : ∃ y, s.bellEnd.seen = { s.seen with sync := y } := by
  have hooked (u : State) : ∃ y, u.splitNow.seen = { u.seen with sync := y } := by
    rw [u.splitNow_sees]
    split <;> exact ⟨_, rfl⟩
  simp only [State.bellEnd, State.checkAllow_seen, State.cycleAt_seen, State.levelSync_seen]
  split
  · exact hooked s
  · exact ⟨_, rfl⟩

theorem State.bellNow_sees (s : State) (load : Bool) (tick : BitVec 40) (allow : BitVec 16) (missed : Bool) :
    ∃ y, (s.bellNow load tick allow missed).seen = { s.seen with sync := y } := by
  unfold State.bellNow
  split
  · exact ⟨_, rfl⟩
  · extract_lets began causes old dev arm begun measured told missing sampled
    have missings : missing.seen = told.seen := by
      unfold missing
      split <;> rfl
    have before : sampled.seen = s.seen := by
      simp only [sampled, State.bellTally_seen, State.sampleAllow_seen, State.applyRwb_seen, missings, told, State.bellEvents_seen, measured,
        State.setReg_seen, begun, State.countLeak_seen, State.newTick_seen, began, State.levelSync_seen, State.checkAllow_seen]
    obtain ⟨x, hooked⟩ := sampled.bellSync_sees
    obtain ⟨y, ended⟩ := sampled.bellSync.bellEnd_sees
    exact ⟨y, by rw [ended, hooked, before]⟩

/-! ## What a bell pulse and a substituted bell leave -/

theorem State.upset_clock (s : State) (x : Upset) : (s.upset x).clock = s.clock := by
  unfold State.upset
  extract_lets hit all old
  split <;> rfl

theorem State.upsets_clock (xs : List Upset) (s : State) : (xs.foldl State.upset s).clock = s.clock := by
  induction xs generalizing s with
  | nil => rfl
  | cons x xs ih => exact (ih _).trans (s.upset_clock x)

theorem bellPulse_leaves {s : State} (on : s.clockOn = true) (load : Option (BitVec 40)) (allow : BitVec 16) (upsets : List Upset) :
    Leaves (.bellPulse load allow upsets) s fun t => t.bell.tick = load.getD (s.bell.tick + 1#40) ∧ t.bell.c = 0 ∧ t.bell.ot = 0
      ∧ t.bell.unsync = (s.bell.unsync && load.isNone) ∧ { t.seen with sync := s.seen.sync } = s.seen := by
  let u := upsets.foldl State.upset s
  have clock : u.clock = s.clock := State.upsets_clock upsets s
  have bell : u.bell = s.bell := congrArg Prod.fst clock
  have seen : u.seen = s.seen := foldl_seen _ State.upset_seen _ _
  obtain ⟨tick, c, ot, unsync⟩ := State.bellNow_bell (s := u) ((congrArg Prod.snd clock).trans on) load.isSome (load.getD 0) allow false
  obtain ⟨y, sees⟩ := u.bellNow_sees load.isSome (load.getD 0) allow false
  refine ⟨_, rfl, ?_, c, ot, ?_, ?_⟩
  · rw [tick, bell]
    cases load <;> rfl
  · rw [unsync, bell]
    cases load <;> rfl
  · rw [sees, seen]

theorem substitutedBell_leaves {s : State} (on : s.clockOn = true) (allow : BitVec 16) : Leaves (.substitutedBell allow) s fun t =>
    t.bell.tick = s.bell.tick + 1#40 ∧ t.bell.c = 0 ∧ t.bell.ot = 0 ∧ t.bell.unsync = true := by
  have dial := s.reach_dial s.lastAge
  have still : (s.reach s.lastAge).clockOn = true := (congrArg (fun d => d.2.2) dial).trans on
  obtain ⟨tick, c, ot, unsync⟩ := State.bellNow_bell still false 0 allow true
  refine ⟨_, congrArg Host.Outcome.next (if_pos on), ?_, c, ot, unsync⟩
  rw [tick]
  exact congrArg (fun d => d.1 + 1#40) dial

/-- Settles O47: a pulse by what each step of a bell leaves of the bell unit (`State.bellNow_bell`), the offsets by the one stretch of time that
leads to each (`State.reach_offset`), the leak bucket by bucket (`State.leak_level`). -/
theorem bellsAndTheirOffsets : Obligations.BellsAndTheirOffsets := by
  unfold Obligations.BellsAndTheirOffsets
  intro s on
  refine ⟨fun load allow upsets => bellPulse_leaves on load allow upsets, fun allow => substitutedBell_leaves on allow, ?_, ?_, ?_, ?_⟩
  · rintro serving ⟨ot, ramp, allow⟩ waits applied ahead within
    exact splitPoint_leaves on ot ramp allow serving waits applied ahead within
  · rintro ⟨ot, ramp, allow⟩ split applied positive within
    exact overtime_leaves on ot ramp allow split applied positive within
  · rintro serving ⟨ot, ramp, allow⟩ split waits synced free ahead within
    exact tallyApplyStart_leaves on ot ramp allow serving split waits synced free ahead within
  · intro due nodup
    refine ⟨_, rfl, ?_, s.leak_level due nodup, s.leak_seen⟩
    rw [State.leak, if_pos due]
    exact State.setReg_reg _ _ _

end Sys2Proof.Machine
end

section
/-! PROOF. Every step keeps the form (O6; R246, R260, R261), no command stops the model (O3; R232, R286), and the form holds after reset (O5).
Each command is a total change of the state; what it is made of keeps the form, so it does. -/

namespace Sys2Proof.Machine

/-! ## Changes of the state that keep the form -/

/-- A change that leaves a state in form in form. -/
def KeepsForm (f : State → State) : Prop := ∀ s, s.seen.ok → (f s).seen.ok

theorem ok_of_seen {s t : State} (sees : t.seen = s.seen) (ok : s.seen.ok) : t.seen.ok := sees ▸ ok

section
variable {f k : State → State}

/-- What software sees nothing of keeps the form. -/
theorem KeepsForm.of_seen (sees : ∀ s, (f s).seen = s.seen) : KeepsForm f := fun s => ok_of_seen (sees s)

/-- Whatever is let go at the end of a command (R117, R249, R342). -/
theorem KeepsForm.settleHeld (h : KeepsForm f) : KeepsForm fun s => (f s).settleHeld := fun s ok => (f s).settleHeld_ok (h s ok)

theorem KeepsForm.ite {c : State → Prop} {_ : ∀ s, Decidable (c s)} (h : KeepsForm f) (h' : KeepsForm k) :
    KeepsForm fun s => if c s then f s else k s := fun s ok => ite_state_ok _ _ _ (h s ok) (h' s ok)

/-- A command that acts only where its event can occur (log entry 9). -/
theorem KeepsForm.when {c : State → Prop} {_ : ∀ s, Decidable (c s)} (h : KeepsForm f) : KeepsForm fun s => if c s then f s else s :=
  h.ite fun _ ok => ok

theorem KeepsForm.unless {c : State → Prop} {_ : ∀ s, Decidable (c s)} (h : KeepsForm f) : KeepsForm fun s => if c s then s else f s :=
  KeepsForm.ite (fun _ ok => ok) h

/-! ## What instructions are made of -/

theorem KeepsForm.instr (h : KeepsForm f) {len : Nat} {gs fs : List (Fin 32)} : KeepsForm fun s => s.instr len gs fs f :=
  fun s ok => s.instr_ok len gs fs f h ok

theorem KeepsForm.notUser (h : KeepsForm f) : KeepsForm fun s => s.notUser (f s) := fun s ok => s.notUser_ok (f s) (h s ok) ok

theorem KeepsForm.commit (h : KeepsForm f) {len : Nat} : KeepsForm fun s => (f s).commit len := fun s ok => (f s).commit_ok len (h s ok)

theorem KeepsForm.jump (h : KeepsForm f) {a : State → DWord} : KeepsForm fun s => (f s).jump (a s) := fun s ok => (f s).jump_ok _ (h s ok)

theorem KeepsForm.sticky (h : KeepsForm f) {x : State → Sticky} : KeepsForm fun s => (f s).sticky (x s) :=
  fun s ok => (f s).sticky_ok _ (h s ok)

theorem keepsForm_commit {len : Nat} : KeepsForm fun s => s.commit len := fun s ok => s.commit_ok len ok
theorem keepsForm_setG {n : Fin 32} {v : State → DWord} : KeepsForm fun s => s.setG n (v s) := fun s ok => s.setG_ok n _ ok
theorem keepsForm_setF {n : Fin 32} {v : State → DWord} : KeepsForm fun s => s.setF n (v s) := fun s ok => s.setF_ok n _ ok
theorem keepsForm_setView {w : Bool} {n : Fin 32} {v : State → VView} : KeepsForm fun s => s.setView w n (v s) :=
  fun s ok => s.setView_ok w n _ ok
theorem keepsForm_except {c : Nat} {d : Word} {x : DWord} : KeepsForm fun s => s.except c d x := fun s ok => s.except_ok c d x ok
theorem keepsForm_undef : KeepsForm State.undef := fun s ok => s.undef_ok ok
theorem keepsForm_vUndef {len : Nat} : KeepsForm fun s => s.vUndef len := fun s ok => s.vUndef_ok len ok
theorem keepsForm_pushSb {x : State → SbKind} : KeepsForm fun s => s.pushSb (x s) := KeepsForm.of_seen fun s => s.pushSb_seen _

theorem State.waits_ok (s : State) (w : Wait) (ok : s.seen.ok) : ({ s with cpu := { s.cpu with wait := w } } : State).seen.ok := ok

/-- A sync instruction: its counter's number and LEVEL decide whether its work begins (R227, R275). -/
theorem KeepsForm.onCounter {work : State → Fin 64 → State} (h : ∀ c, KeepsForm fun s => work s c) {n : Byte} :
    KeepsForm fun s => s.onCounter n (work s) := by
  intro s ok
  unfold State.onCounter
  exact ite_state_ok _ _ _ (s.undef_ok ok) (ite_state_ok _ _ _ (s.except_ok _ _ _ ok) (h _ s ok))

/-- An access of a special register: the register's number and level decide whether its work begins (R260). -/
theorem KeepsForm.withSr {work : State → SpecialReg → State} (h : ∀ r, KeepsForm fun s => work s r) {n : Byte} {write : Bool} :
    KeepsForm fun s => s.withSr n write (work s) := by
  intro s ok
  unfold State.withSr
  split
  · exact s.undef_ok ok
  · exact ite_state_ok _ _ _ (s.undef_ok ok) (ite_state_ok _ _ _ (s.except_ok _ _ _ ok) (h _ s ok))

/-! ## What other commands are made of -/

/-- A message: it is refused, or it is served (R376, R377, R389). -/
theorem KeepsForm.receive {serve : State → InMsg → State} (h : ∀ m, KeepsForm fun s => serve s m) {cls : BitVec 2} {opc : BitVec 6}
    {m : InMsg} : KeepsForm fun s => s.receive cls opc m serve := by
  intro s ok
  unfold State.receive
  refine ite_state_ok _ _ _ ok (ite_state_ok _ _ _ ?_ (ite_state_ok _ _ _ (h _ _ (ite_state_ok _ _ _ ?_ ?_)) ?_))
  all_goals simpa using ok

/-- An instruction of the wrapper (R16, R458). -/
theorem KeepsForm.wrapInstr (h : KeepsForm f) {code : Byte} {c : DbgClass} : KeepsForm fun s => s.wrapInstr code c f := by
  intro s ok
  unfold State.wrapInstr
  refine ite_state_ok _ _ _ ok (ite_state_ok _ _ _ (h _ ok) ?_)
  rw [State.raise_seen]
  exact ok

/-- What meets other parties in the scratchpad (R351). -/
theorem KeepsForm.meeting (h : KeepsForm f) {n : State → Nat} : KeepsForm fun s => s.meeting (n s) f := fun s ok => s.meeting_ok _ f h ok

end

/-! ## Commands whose meaning is their own -/

/-- A command that is a total change of the state, and one that keeps the form. -/
def CompletesInForm (i : Instr) : Prop := ∃ f : State → State, (∀ s, exec i s = .next (f s)) ∧ KeepsForm f

theorem keepsForm_moveToSr (r : SpecialReg) (a : GReg) : KeepsForm fun s =>
    if s.flagsBusy r then s else if srOfLoop r then (s.commit 5).writeSr r (s.g a) else (s.writeSr r (s.g a)).commit 5 :=
  .unless (.ite (fun s ok => State.writeSr_ok _ r _ (s.commit_ok 5 ok)) fun s ok => State.commit_ok _ 5 (s.writeSr_ok r _ ok))

/-- MTSR: a vector's line is fetched first, TID empties the loop buffer (R242, R246). -/
theorem mtsr_completes (n : Byte) (a : GReg) : CompletesInForm (.mtsr n a) := by
  refine ⟨_, fun _ => rfl, .instr (.withSr fun r => ?_)⟩
  cases r with
  | vec k => exact fun s ok => s.loadVector_ok k _ ok
  | tid => exact fun s ok => State.commit_ok _ 5 (ok_of_seen (State.dropLoop_seen _) (s.writeSr_ok .tid _ ok))
  | _ => exact keepsForm_moveToSr _ a

/-- IFENCE: the entry lines are read anew (R273). -/
theorem ifence_completes : CompletesInForm .ifence := by
  refine ⟨_, fun _ => rfl, .instr fun s ok => ?_⟩
  have lines : (s.reloadLines [0, 1, 2, 3, 4, 5]).1.seen.ok := s.reloadLines_ok _ ok
  refine ite_state_ok _ _ _ (State.commit_ok _ 2 ?_) lines
  rw [State.dropLoop_seen]
  exact lines

/-- LEA with X draws the free value of its scale (log entry 17). -/
theorem lea_completes (o : MemArgs) : CompletesInForm (.lea o) := by
  refine ⟨_, fun _ => rfl, .instr (.ite (fun s ok => ?_) keepsForm_setG.commit)⟩
  have drawn : ({ s with fresh := s.fresh + 1 } : State).seen.ok := ok
  exact State.commit_ok _ _ (State.setG_ok { s with fresh := s.fresh + 1 } _ _ drawn)

theorem dpreload_completes (a : GReg) (way : Byte) : CompletesInForm (.dpreload a way) := by
  refine ⟨_, fun _ => rfl, .instr (.ite keepsForm_undef (.notUser fun s ok => s.preloadAt_ok _ 0 _ (fun t line ok => ?_) ok))⟩
  cases line with
  | none => exact t.commit_ok 5 ok
  | some line => exact ite_state_ok _ _ _ ok (State.commit_ok _ 5 (ok_of_seen (t.pushSb_seen _) ok))

theorem ipreload_completes (a : GReg) (way : Byte) : CompletesInForm (.ipreload a way) := by
  refine ⟨_, fun _ => rfl, .instr (.ite keepsForm_undef (.notUser fun s ok => s.preloadAt_ok _ 2 _ (fun t line ok => ?_) ok))⟩
  cases line with
  | none => exact t.commit_ok 5 ok
  | some line => exact t.preloadI_ok line _ _ (fun u ok => u.commit_ok 5 ok) ok

theorem iinvalVa_completes (a : GReg) : CompletesInForm (.iinvalVa a) := by
  refine ⟨_, fun _ => rfl, .instr fun s ok => s.maintAt_ok _ 2 _ (fun t line ok => State.commit_ok _ 4 ?_) ok⟩
  cases line with
  | none => exact ok
  | some line => exact ok_of_seen (t.invalILine_seen line) ok

theorem iinvalR_completes : CompletesInForm .iinvalR := by
  refine ⟨_, fun _ => rfl, .instr (.ite keepsForm_commit fun s ok =>
    s.maintAt_ok _ 2 _ (fun t line ok => State.commit_ok _ 4 (State.rangeStep_ok _ ?_)) ok)⟩
  cases line with
  | none => exact ok
  | some line => exact ok_of_seen (t.invalILine_seen line) ok

theorem vgather_completes (wide : Bool) (sz : Fin 4) (d : FReg) (b : GReg) (a : FReg) (sh : Byte) (chk : ArrayCheck) :
    CompletesInForm (.vgather wide sz d b a sh chk) :=
  ⟨_, fun _ => rfl, .ite (.instr (.unless fun s => s.element_ok wide sz _ fun t k =>
    t.load_ok _ _ _ _ _ fun u => u.elemDone_ok wide sz k)) keepsForm_vUndef⟩

theorem vscatter_completes (wide : Bool) (sz : Fin 4) (d : FReg) (b : GReg) (a : FReg) (sh : Byte) (chk : ArrayCheck) :
    CompletesInForm (.vscatter wide sz d b a sh chk) :=
  ⟨_, fun _ => rfl, .ite (.instr fun s => s.element_ok wide sz _ fun t k =>
    t.store_ok _ _ _ _ _ fun u => u.elemDone_ok wide sz k) keepsForm_vUndef⟩

theorem bellPulse_completes (load : Option (BitVec 40)) (allow : BitVec 16) (upsets : List Upset) :
    CompletesInForm (.bellPulse load allow upsets) :=
  ⟨_, fun _ => rfl, fun s ok => State.bellNow_ok _ _ _ _ _ (ok_of_seen (foldl_seen _ State.upset_seen upsets s) ok)⟩

/-- SYNCWAIT's end: the instruction commits where its counter has reached the value (R229). -/
theorem syncwaitEnd_completes : CompletesInForm .syncwaitEnd := by
  refine ⟨_, fun _ => rfl, fun s ok => ?_⟩
  split
  · exact ite_state_ok _ _ _ (s.commit_ok 5 ok) ok
  · exact ok

theorem xinvBcastTimeout_completes : CompletesInForm .xinvBcastTimeout := by
  refine ⟨_, fun _ => rfl, fun s ok => ?_⟩
  split
  · exact s.bcastDone_ok _ ok
  · exact ok

/-- TILE_TSTAT_CLEAR: one write of a register, or two (R143). -/
theorem tileTstatClear_completes (who : Accessor) (v : Word) : CompletesInForm (.tileTstatClear who v) :=
  ⟨_, fun _ => rfl, fun s ok => ite_state_ok _ _ _ (State.accessWrite_ok _ _ _ _ (s.accessWrite_ok _ _ _ ok)) (s.accessWrite_ok _ _ _ ok)⟩

/-! ## Every command -/

/-- EVERY COMMAND COMPLETES, and keeps the form: the commands stand together that are of one shape. -/
theorem command_completes (i : Instr) : CompletesInForm i := by
  cases i with
  | add | sub | andd | orr | xorr | andn | shl | shr | sar | rol | ror | mul | mulh | mulhu =>
    exact ⟨_, fun _ => rfl, fun s => s.intOp_ok _ _ _⟩
  | cmp | tst => exact ⟨_, fun _ => rfl, fun s => s.intTest_ok _ _ _⟩
  | div | divu | rem | remu => exact ⟨_, fun _ => rfl, fun s => s.divide_ok _ _ _ _ _⟩
  | divideComplete => exact ⟨_, fun _ => rfl, fun s => s.divideDone_ok⟩
  | mov | movz32 | movs32 | popc | clz | ctz => exact ⟨_, fun _ => rfl, fun s => s.unary_ok _ _ _ _⟩
  | parity | brev | brevn => exact ⟨_, fun _ => rfl, fun s => s.unaryIf_ok _ _ _ _ _⟩
  | movi16 | movi32 | movi64 => exact ⟨_, fun _ => rfl, fun s => s.moveImm_ok _ _ _⟩
  | lea o => exact lea_completes o
  | crcstep => exact ⟨_, fun _ => rfl, .instr (.ite keepsForm_setG.commit keepsForm_undef)⟩
  | undefinedInstruction => exact ⟨_, fun _ => rfl, .instr keepsForm_undef⟩
  | nop => exact ⟨_, fun _ => rfl, .instr keepsForm_commit⟩
  -- branches
  | bCc =>
    exact ⟨_, fun _ => rfl, .instr fun s ok =>
      have counted := ok_of_seen (s.countMispredict_seen _) ok
      ite_state_ok _ _ _ (State.branch_ok _ _ _ counted) (State.commit_ok _ _ counted)⟩
  | jmp | ret => exact ⟨_, fun _ => rfl, .instr fun s => s.jump_ok _⟩
  | call | callr => exact ⟨_, fun _ => rfl, .instr keepsForm_setG.jump⟩
  | brpt => exact ⟨_, fun _ => rfl, .instr fun s => s.brptAt_ok _ _⟩
  -- floating point
  | fadd | fsub | fmul | fmin | fmax => exact ⟨_, fun _ => rfl, fun s => s.fpOp2_ok _ _ _ _⟩
  | fneg | fabs | fmov | fcvt => exact ⟨_, fun _ => rfl, fun s => s.fpOp1_ok _ _ _ _⟩
  | fdiv | fsqrt => exact ⟨_, fun _ => rfl, fun s => s.fpBeside_ok _ _ _⟩
  | fma | icvtf => exact ⟨_, fun _ => rfl, .instr keepsForm_setF.sticky.commit⟩
  | fcvti => exact ⟨_, fun _ => rfl, .instr keepsForm_setG.sticky.commit⟩
  | fcmp =>
    exact ⟨_, fun _ => rfl, .instr fun s ok =>
      State.commit_ok _ _ (State.sticky_ok _ _ (s.setFlags_ok _ ok (setCond_ok _ _ (s.flags_ok ok))))⟩
  | movfg => exact ⟨_, fun _ => rfl, .instr keepsForm_setG.commit⟩
  | movgf => exact ⟨_, fun _ => rfl, .instr keepsForm_setF.commit⟩
  -- vectors
  | vadd | vsub | vmul | vmin | vmax | vcmpeq | vcmpgt | vshl | vshr | vadds | vsubs | vmulfx =>
    exact ⟨_, fun _ => rfl, fun s => s.vecInt2_ok _ _ _ _ _ _ _⟩
  | vshli | vshri | vabss | vnegs | vshrr | vshls | vfneg | vfabs => exact ⟨_, fun _ => rfl, fun s => s.vecInt1_ok _ _ _ _ _ _ _⟩
  | vand | vor | vxor | vandn | vfadd | vfsub | vfmul | vfmin | vfmax => exact ⟨_, fun _ => rfl, fun s => s.vecOp2_ok _ _ _ _ _ _⟩
  | vmov | vcvtif | vcvtfi => exact ⟨_, fun _ => rfl, fun s => s.vecOp1_ok _ _ _ _ _ _⟩
  | vnars | vnarrs | vwiden | vfwiden | vfnarrow | vcvth | vcvthf | vcvtbf => exact ⟨_, fun _ => rfl, fun s => s.vecFixed_ok _ _ _ _ _ _ _⟩
  | vfcmpeq | vfcmplt | vfcmple => exact ⟨_, fun _ => rfl, fun s => s.vecCmp_ok _ _ _ _ _ _ _⟩
  | vdup | vins | vbsl => exact ⟨_, fun _ => rfl, .ite (.instr keepsForm_setView.commit) keepsForm_vUndef⟩
  | vext => exact ⟨_, fun _ => rfl, .ite (.instr keepsForm_setG.commit) keepsForm_vUndef⟩
  | vfma | vcvtb => exact ⟨_, fun _ => rfl, .ite (.instr keepsForm_setView.sticky.commit) keepsForm_vUndef⟩
  -- loads, stores, moves
  | ldb | ldbs | ldh | ldhs | ldw | ldws | ldd => exact ⟨_, fun _ => rfl, fun s => s.loadG_ok _ _ _⟩
  | ldf | ldfs => exact ⟨_, fun _ => rfl, fun s => s.loadF_ok _ _⟩
  | stb | sth | stw | std => exact ⟨_, fun _ => rfl, fun s => s.storeG_ok _ _ _⟩
  | stf | stfs => exact ⟨_, fun _ => rfl, fun s => s.storeF_ok _ _⟩
  | vld =>
    exact ⟨_, fun _ => rfl, .ite (.instr fun s => s.load_ok _ _ _ _ _ fun t => t.commit_ok _) keepsForm_vUndef⟩
  | vst =>
    exact ⟨_, fun _ => rfl, .ite (.instr fun s => s.store_ok _ _ _ _ _ fun t => t.commit_ok _) keepsForm_vUndef⟩
  | vgather wide sz d b a sh chk => exact vgather_completes wide sz d b a sh chk
  | vscatter wide sz d b a sh chk => exact vscatter_completes wide sz d b a sh chk
  | bcopy => exact ⟨_, fun _ => rfl, fun s => s.bcopy_ok _ _⟩
  | bfill => exact ⟨_, fun _ => rfl, fun s => s.bfill_ok _ _⟩
  | movt => exact ⟨_, fun _ => rfl, fun s => s.movt_ok _⟩
  | crcstepM => exact ⟨_, fun _ => rfl, fun s => s.crcMem_ok _ _ _⟩
  | storeBufferPerform => exact ⟨_, fun _ => rfl, .settleHeld (.meeting fun s => s.performSb_ok _ _)⟩
  | moveUnitPerform => exact ⟨_, fun _ => rfl, .settleHeld fun s => s.performSb_ok _ _⟩
  | pageWalkDone => exact ⟨_, fun _ => rfl, fun s => s.endWalk_ok _⟩
  -- system instructions
  | syscall | fwcall | brk => exact ⟨_, fun _ => rfl, .instr keepsForm_except⟩
  | eret => exact ⟨_, fun _ => rfl, .instr (.notUser (.unless fun s => s.eret_ok))⟩
  | mfsr => exact ⟨_, fun _ => rfl, .instr (.withSr fun _ => .unless keepsForm_setG.commit)⟩
  | mtsr n a => exact mtsr_completes n a
  | ifence => exact ifence_completes
  | fence => exact ⟨_, fun _ => rfl, .instr (.unless keepsForm_pushSb.commit)⟩
  | uaopen | uaclose =>
    exact ⟨_, fun _ => rfl, .instr (.notUser fun s ok => State.commit_ok _ _ (s.setFlags_ok _ ok (setUA_ok _ _ (s.flags_ok ok))))⟩
  | wfi => exact ⟨_, fun _ => rfl, .instr (.notUser fun s ok => State.waits_ok _ .wfi (s.commit_ok 2 ok))⟩
  | syncadd => exact ⟨_, fun _ => rfl, .instr (.onCounter fun _ s ok => State.commit_ok _ 5 (s.syncAdd_ok _ _ ok))⟩
  | syncset => exact ⟨_, fun _ => rfl, .instr (.onCounter fun _ s ok => State.commit_ok _ 5 (s.syncSet_ok _ _ ok))⟩
  | syncget => exact ⟨_, fun _ => rfl, .instr (.onCounter fun _ => keepsForm_setG.commit)⟩
  | syncwait => exact ⟨_, fun _ => rfl, .instr (.onCounter fun _ => .ite keepsForm_commit fun s ok => s.waits_ok _ ok)⟩
  | syncwaitEnd => exact syncwaitEnd_completes
  | syncradd => exact ⟨_, fun _ => rfl, .instr (.ite keepsForm_undef (.unless keepsForm_pushSb.commit))⟩
  -- maintenance
  | dcleanVa | dinvalVa | dclinvVa => exact ⟨_, fun _ => rfl, fun s => s.dataVa_ok _ _ _⟩
  | dcleanR | dinvalR | dclinvR => exact ⟨_, fun _ => rfl, fun s => s.dataRange_ok _ _⟩
  | dcleanSw | dinvalSw | dclinvSw => exact ⟨_, fun _ => rfl, fun s => s.dataSetWay_ok _ _⟩
  | dinvalAll => exact ⟨_, fun _ => rfl, .instr (.notUser (.unless keepsForm_pushSb.commit))⟩
  | dpreload a way => exact dpreload_completes a way
  | ipreload a way => exact ipreload_completes a way
  | iinvalVa a => exact iinvalVa_completes a
  | iinvalR => exact iinvalR_completes
  | iinvalSw => exact ⟨_, fun _ => rfl, .instr (.notUser (KeepsForm.of_seen fun s => s.instrSetWay_seen _).commit)⟩
  | iinvalAll =>
    exact ⟨_, fun _ => rfl, .instr (.notUser (KeepsForm.of_seen fun s =>
      (State.setFills_seen _ _).trans (s.invalidateAll_seen true)).commit)⟩
  | xinv => exact ⟨_, fun _ => rfl, .instr (.ite keepsForm_undef (.ite keepsForm_except fun s => s.xinvNow_ok _ _))⟩
  | xinvBcastTimeout => exact xinvBcastTimeout_completes
  -- tiles
  | tbegin => exact ⟨_, fun _ => rfl, fun s => s.tbegin_ok _⟩
  | tmma => exact ⟨_, fun _ => rfl, fun s => s.tmma_ok _⟩
  | tmmaSeg => exact ⟨_, fun _ => rfl, fun s => s.tmmaSeg_ok _⟩
  | tclose => exact ⟨_, fun _ => rfl, fun s => s.tclose_ok _⟩
  | tconv => exact ⟨_, fun _ => rfl, fun s => s.tconv_ok _⟩
  | tload | tstore => exact ⟨_, fun _ => rfl, fun s => s.tmove_ok _ _⟩
  | tsave => exact ⟨_, fun _ => rfl, fun s => s.tsave_ok _ _⟩
  | trestore => exact ⟨_, fun _ => rfl, fun s => s.trestore_ok _⟩
  | tcrateTake => exact ⟨_, fun _ => rfl, fun s => s.tcrateTake_ok _⟩
  | tcrateReload => exact ⟨_, fun _ => rfl, fun s => s.tcrateReload_ok _⟩
  | tcrateTakeProceed => exact ⟨_, fun _ => rfl, fun s => s.takeProceed_ok⟩
  | tew => exact ⟨_, fun _ => rfl, fun s => s.tew_ok _⟩
  | tmask => exact ⟨_, fun _ => rfl, fun s => s.tmask_ok _⟩
  | tsync => exact ⟨_, fun _ => rfl, fun s => s.tsync_ok⟩
  | tsyncWaitEnd => exact ⟨_, fun _ => rfl, .when fun s => s.tsyncEnd_ok⟩
  | tileInstrStart => exact ⟨_, fun _ => rfl, .of_seen fun s => s.tileStart_seen _⟩
  | tileBlockEnd => exact ⟨_, fun _ => rfl, fun s => s.blockEnd_ok⟩
  | tileInstrComplete => exact ⟨_, fun _ => rfl, .settleHeld (.meeting fun s => s.instrComplete_ok)⟩
  | tsaveDrainDone => exact ⟨_, fun _ => rfl, .meeting fun s => s.drainDone_ok⟩
  -- the bell, the Tally, time
  | bellPulse load allow upsets => exact bellPulse_completes load allow upsets
  | substitutedBell => exact ⟨_, fun _ => rfl, fun s => s.substituteNow_ok _⟩
  | splitPoint | tallyApplyStart => exact ⟨_, fun _ => rfl, .when fun s => s.riseTo_ok _⟩
  | overtime => exact ⟨_, fun _ => rfl, .when fun s => s.reach_ok _⟩
  | tallyDescRead =>
    exact ⟨_, fun _ => rfl, .when fun s ok => State.serveWaiting_ok _ (ok_of_seen (s.readDesc_seen _ _) ok)⟩
  | tallySlotApplyDone => exact ⟨_, fun _ => rfl, fun s ok => State.serveWaiting_ok _ (s.applyDone_ok ok)⟩
  | tallyHeldStage => exact ⟨_, fun _ => rfl, fun s => s.serveWaiting_ok⟩
  | rasLeak => exact ⟨_, fun _ => rfl, .of_seen State.leak_seen⟩
  -- messages and lanes
  | reqRd | reqWr | reqRegrd | reqRegwr | reqSadd => exact ⟨_, fun _ => rfl, .receive fun _ s => s.requestIn_ok _⟩
  | rspRdata | rspAck | rspErr => exact ⟨_, fun _ => rfl, .receive fun _ s => s.answerIn_ok _ _⟩
  | rspNotice => exact ⟨_, fun _ => rfl, .receive fun _ => .of_seen fun s => s.noticeIn_seen _ _ _ _⟩
  | tallyContrib => exact ⟨_, fun _ => rfl, .receive fun _ s => s.tallyIn_ok _⟩
  | ctrlXinv => exact ⟨_, fun _ => rfl, .receive fun _ => .of_seen fun s => s.xinvIn_seen _⟩
  | ctrlXack => exact ⟨_, fun _ => rfl, .receive fun _ s => s.xackIn_ok _⟩
  | ctrlHole => exact ⟨_, fun _ => rfl, .receive fun _ _ ok => ok⟩
  | ctrlHello => exact ⟨_, fun _ => rfl, .of_seen fun s => s.helloIn_seen _⟩
  | laneUp => exact ⟨_, fun _ => rfl, .settleHeld (.of_seen fun s => s.laneUp_seen _)⟩
  | laneDown => exact ⟨_, fun _ => rfl, .settleHeld fun s => s.laneDown_ok _⟩
  | txCredit => exact ⟨_, fun _ => rfl, .of_seen fun s => s.txCredit_seen _ _⟩
  | txNak => exact ⟨_, fun _ => rfl, .settleHeld (.of_seen fun s => s.txNak_seen _ _)⟩
  | helloRetry => exact ⟨_, fun _ => rfl, .of_seen fun s => s.helloRetry_seen _⟩
  | flitRxReject => exact ⟨_, fun _ => rfl, .of_seen fun s => s.flitReject_seen _ _⟩
  | nakRetry => exact ⟨_, fun _ => rfl, .of_seen fun s => s.nakRetry_seen _⟩
  | goodFlitExpected => exact ⟨_, fun _ => rfl, .of_seen fun s => s.goodFlit_seen _⟩
  | holeNoticeSend => exact ⟨_, fun _ => rfl, .of_seen State.holeNotice_seen⟩
  -- the scratchpad, S1, BOOT
  | spxReadData => exact ⟨_, fun _ => rfl, fun s => s.spxData_ok _⟩
  | spxCorrWriteback => exact ⟨_, fun _ => rfl, fun s => s.corrWriteback_ok⟩
  | spx1ReqAccept => exact ⟨_, fun _ => rfl, .of_seen State.s1Accept_seen⟩
  | spx1Rsp => exact ⟨_, fun _ => rfl, fun s => s.s1Response_ok _ _⟩
  | bootReqAccept => exact ⟨_, fun _ => rfl, .of_seen State.bootAccept_seen⟩
  | bootResponse => exact ⟨_, fun _ => rfl, fun s => s.bootResponse_ok _ _⟩
  | groupPwrAck => exact ⟨_, fun _ => rfl, .of_seen fun s => s.groupAck_seen _⟩
  | groupOpenDone => exact ⟨_, fun _ => rfl, fun s => s.groupOpen_ok _⟩
  | groupCloseDone => exact ⟨_, fun _ => rfl, fun s => s.groupClose_ok _⟩
  | bankPwrAckLoss => exact ⟨_, fun _ => rfl, fun s => s.bankLoss_ok _⟩
  -- asynchronous sources
  | asyncEntry => exact ⟨_, fun _ => rfl, fun s => s.sample_ok⟩
  | nmiEdge => exact ⟨_, fun _ => rfl, .when fun _ ok => ok⟩
  | irqExt => exact ⟨_, fun _ => rfl, .of_seen fun _ => State.latchWfi_seen _⟩
  -- resets and power
  | rstWholeAssert => exact ⟨_, fun _ => rfl, fun s _ => s.wholeReset_ok⟩
  | rstWholeRelease => exact ⟨_, fun _ => rfl, .of_seen fun s => s.wholeUp_seen _ _ _⟩
  | fuseAck => exact ⟨_, fun _ => rfl, fun s => s.fuseWord_ok _⟩
  | rstReq =>
    exact ⟨_, fun _ => rfl, .unless (.settleHeld fun s ok => State.railsGood_ok _ (s.requestReset_ok _ _ ok))⟩
  | drainComplete => exact ⟨_, fun _ => rfl, .settleHeld (.of_seen State.drained_seen)⟩
  | drainTimeout => exact ⟨_, fun _ => rfl, .settleHeld (.of_seen State.drainOver_seen)⟩
  | scrubDone => exact ⟨_, fun _ => rfl, .settleHeld fun s => s.scrubbed_ok⟩
  | rstHoldRelease => exact ⟨_, fun _ => rfl, .settleHeld fun s => s.holdLow_ok⟩
  | allowanceExhausted => exact ⟨_, fun _ => rfl, fun s => s.exhaustMove_ok⟩
  | rampLevelStep => exact ⟨_, fun _ => rfl, fun s => s.rampMove_ok⟩
  | tempHot | tempCrit | tempCool => exact ⟨_, fun _ => rfl, .of_seen fun s => s.setTemp_seen _⟩
  | pwrThrottle => exact ⟨_, fun _ => rfl, .when fun _ ok => ok⟩
  | pwrStateReq => exact ⟨_, fun _ => rfl, .settleHeld fun s => s.powerReq_ok _⟩
  | pwrStateEnter => exact ⟨_, fun _ => rfl, fun s => s.rest_ok⟩
  | wakeStart => exact ⟨_, fun _ => rfl, .of_seen State.startWake_seen⟩
  | pwrRailOkRise => exact ⟨_, fun _ => rfl, .settleHeld fun s => s.railRise_ok _⟩
  | wakeComplete => exact ⟨_, fun _ => rfl, fun s => s.endWake_ok⟩
  | railFail => exact ⟨_, fun _ => rfl, .settleHeld fun s => s.railLoss_ok _⟩
  -- registers
  | resetRelease | pageApplyArm | pageApplyCancel | pageLockWrite | evtSetWrite | evtRawClear | errInfoClear | pairLowWrite | tileTuseWrite
  | tileTuseOpWrite | tileDeferClear | convCtrlWrite | coreDetWrite | coreMchkClear | cacheEnableWrite | xlatCtrlWrite | spxBankpwrWrite
  | fabAbsorbClrWrite | bellSkewClrWrite | syncValWrite | syncAddWrite | weighEnallowWrite | rasBktWrite | rasLpopWrite | rasSummaryClear
  | lifeSessOpen =>
    exact ⟨_, fun _ => rfl, fun s => s.accessWrite_ok _ _ _⟩
  | resetCoreRst | pairHighWrite | regWrite | fabLaneOffWrite | rasFenceGo | rasFenceReapply | rasRetireGo | rasRetireReapply | lifeXreq =>
    exact ⟨_, fun _ => rfl, .settleHeld fun s => s.accessWrite_ok _ _ _⟩
  | convSeedWrite | spxBaseWrite => exact ⟨_, fun _ => rfl, fun s => s.accessPair_ok _ _ _⟩
  | pairLowRead => exact ⟨_, fun _ => rfl, .of_seen fun s => s.accessRead_seen _ _⟩
  | tileMaskWrite => exact ⟨_, fun _ => rfl, .ite (fun s => s.accessPair_ok _ _ _) fun s => s.accessWrite_ok _ _ _⟩
  | tileTstatClear who v => exact tileTstatClear_completes who v
  | pitchStagedAccess =>
    exact ⟨_, fun _ => rfl, .ite (fun s => s.accessWrite_ok _ _ _) (.of_seen fun s => s.accessRead_seen _ _)⟩
  -- the life cycle and the debug ports
  | challengeReady => exact ⟨_, fun _ => rfl, .when fun _ ok => ok⟩
  | challengeExpire => exact ⟨_, fun _ => rfl, .unless fun _ ok => ok⟩
  | lifeSessSubmit => exact ⟨_, fun _ => rfl, .when (.settleHeld fun s => s.lifeSubmit_ok _)⟩
  | lifeVerifyDone => exact ⟨_, fun _ => rfl, .settleHeld fun s => s.verifyDone_ok⟩
  | tapIdcode => exact ⟨_, fun _ => rfl, .of_seen fun s => s.tapInstr_seen _ _ fun t => t.dbgOut_seen _⟩
  | tapSamplePreload | tapExtest => exact ⟨_, fun _ => rfl, .of_seen fun s => s.tapInstr_seen _ _ State.capture'_seen⟩
  | tapWrap | tapBypass => exact ⟨_, fun _ => rfl, .of_seen fun s => s.tapInstr_seen _ _ fun _ => rfl⟩
  | wsBypass => exact ⟨_, fun _ => rfl, .wrapInstr fun _ ok => ok⟩
  | wsExtest | wsIntest => exact ⟨_, fun _ => rfl, .wrapInstr (.of_seen State.capture'_seen)⟩
  | dbgHalt => exact ⟨_, fun _ => rfl, .wrapInstr (.of_seen State.askHalt_seen)⟩
  | dbgResume | dbgStep => exact ⟨_, fun _ => rfl, .wrapInstr fun s => s.goOn_ok _⟩
  | dbgAccess => exact ⟨_, fun _ => rfl, .settleHeld (.wrapInstr fun s => s.dbgAccess_ok _)⟩
  | scan => exact ⟨_, fun _ => rfl, .wrapInstr fun s => s.scanned_ok⟩
  | mbist => exact ⟨_, fun _ => rfl, .wrapInstr fun s => s.selfTest_ok _⟩
  | lcStateRead => exact ⟨_, fun _ => rfl, .wrapInstr (.of_seen fun s => s.dbgOut_seen _)⟩
  | lcStateWrite => exact ⟨_, fun _ => rfl, .settleHeld (.wrapInstr fun s => s.lifeXreq_ok _)⟩
  | lcSession => exact ⟨_, fun _ => rfl, .settleHeld (.wrapInstr fun s => s.session_ok _)⟩

/-! ## Every step -/

/-- A step completes, and keeps the form. -/
theorem step_completes (s : State) : ∃ t, step s = .next t ∧ (s.seen.ok → t.seen.ok) := by
  unfold step
  split
  · exact ⟨_, rfl, s.idle_ok⟩
  · next i rest _ =>
    obtain ⟨f, completes, keeps⟩ := command_completes i
    exact ⟨_, completes _, keeps { s with pending := rest }⟩

/-- Settles O6: what a step answers is what `step_completes` says it is. -/
theorem everyStepKeepsTheForm : Obligations.EveryStepKeepsTheForm := by
  unfold Obligations.EveryStepKeepsTheForm
  intro s t ok steps
  obtain ⟨u, completes, keeps⟩ := step_completes s
  obtain rfl : u = t := Host.Outcome.next.inj (completes.symm.trans steps)
  exact keeps ok

theorem run_of_step {M : Host.Core} {s t : M.State} (first : M.step s = .next t) (n : Nat) : M.run (n + 1) s = M.run n t := by
  rw [Host.Core.run, first]

theorem safeRun (n : Nat) (s : State) : SafeRun n s := by
  induction n generalizing s with
  | zero => exact ⟨s, rfl⟩
  | succ n ih =>
    obtain ⟨t, completes, -⟩ := step_completes s
    obtain ⟨u, runs⟩ := ih t
    exact ⟨u, (run_of_step (M := Sys2Proof.core) completes n).trans runs⟩

/-- Settles O3: each command by `command_completes`, each run by induction on its steps. -/
theorem noCommandStops : Obligations.NoCommandStops := by
  unfold Obligations.NoCommandStops
  refine ⟨fun i s => ?_, safeRun⟩
  obtain ⟨f, completes, -⟩ := command_completes i
  exact ⟨f s, completes s, trivial⟩

/-- Settles O5: the storages are empty, FLAGS holds level M alone, frames and vectors are 0 (`State.reset_ok`). -/
theorem resetIsInForm : Obligations.ResetIsInForm := State.reset_ok

end Sys2Proof.Machine
end

section
/-! PROOF. Asynchronous sources (O53; R243 to R248, R256, R274, R286, R458): what the sampling of a core that can sample comes to for each
source that is due, none of a higher priority being due, and what the entry then shows; a WFI that a line ends. -/

namespace Sys2Proof.Machine

/-! ## A line as sampled (R34, R274) -/

theorem getLsbD_lineSet (ext : Byte) (line : Fin 8) (level : Bool) (i : Nat) (hi : i < 8) :
    (if level then ext ||| 1#8 <<< line.val else ext &&& ~~~(1#8 <<< line.val)).getLsbD i = if i = line.val then level else ext.getLsbD i := by
  have bit : (1#8 <<< line.val).getLsbD i = decide (i = line.val) := by
    revert i
    revert line
    decide
  cases level with
  | true =>
    rw [if_pos rfl, BitVec.getLsbD_or, bit]
    by_cases h : i = line.val <;> simp [h]
  | false =>
    rw [if_neg Bool.false_ne_true, BitVec.getLsbD_and, BitVec.getLsbD_not, bit]
    by_cases h : i = line.val <;> simp [h, hi]

/-- A WFI has ended where a source is pending and enabled while IE is 0, and waits on otherwise. -/
theorem State.latchWfi_wait (s : State) :
    s.latchWfi = { s with cpu := { s.cpu with
      wait := if s.cpu.wait = .wfi ∧ flagIE s.cpu.flags = false ∧ s.irqReady = true then .none else s.cpu.wait } } := by
  have ends : (s.cpu.wait == .wfi && !s.wfiHolds) = true ↔ s.cpu.wait = .wfi ∧ flagIE s.cpu.flags = false ∧ s.irqReady = true := by
    by_cases wfi : s.cpu.wait = .wfi <;> simp [State.wfiHolds, wfi]
  simp only [State.latchWfi, ends]
  split <;> rfl

theorem State.latchWfi_irqReady (s : State) : s.latchWfi.irqReady = s.irqReady := by
  rw [State.latchWfi_wait]
  rfl

theorem irqExt_leaves (s : State) (line : Fin 8) (level : Bool) : Leaves (.irqExt line level) s fun t =>
    (∀ i, i < 8 → t.cpu.ext.getLsbD i = if i = line.val then level else s.cpu.ext.getLsbD i)
      ∧ { t with cpu := { t.cpu with ext := s.cpu.ext, wait := s.cpu.wait } } = s
      ∧ t.cpu.wait = if s.cpu.wait = .wfi ∧ flagIE s.cpu.flags = false ∧ t.irqReady = true then .none else s.cpu.wait := by
  let u : State := { s with cpu := { s.cpu with
    ext := if level then s.cpu.ext ||| 1#8 <<< line.val else s.cpu.ext &&& ~~~(1#8 <<< line.val) } }
  have latched := u.latchWfi_wait
  refine ⟨u.latchWfi, rfl, ?_, ?_, ?_⟩
  · rw [latched]
    exact getLsbD_lineSet s.cpu.ext line level
  · rw [latched]
  · rw [u.latchWfi_irqReady, latched]

/-! ## What an entry shows (R245, R286, R287) -/

theorem State.oweTrap_cpu (s : State) : ∃ x, s.oweTrap = { s with cpu := { s.cpu with trapOwed := x } } := by
  unfold State.oweTrap
  extract_lets ended
  split
  · exact ⟨_, rfl⟩
  · exact ⟨s.cpu.trapOwed, rfl⟩

/-- The frame holds IP as the return address and, in XCAUSE, the level before the entry. -/
theorem State.enterAsync_sees (s : State) (id : Nat) (toM : Bool) (vec : Fin 6) (cause : Nat) (detail : Word) (xaddr : DWord) :
    (s.enterAsync id toM vec cause detail xaddr).seen = s.seen.entered toM vec (xcause true s.pl cause detail) xaddr s.cpu.ip := by
  obtain ⟨x, owes⟩ := s.oweTrap_cpu
  rw [State.enterAsync, State.enter_sees, State.setReg_seen, State.oweTrap_seen, owes]
  rfl

theorem State.enterMchk_sees (s : State) : s.enterMchk.seen
    = s.seen.entered true 5 (xcause true s.pl 0x40 (w32 (fld (s.reg 0x1114) 16 8))) (s.reg64 0x102C) s.cpu.ip :=
  State.enterAsync_sees _ _ _ _ _ _ _

/-- Where CORE_DELEG delegates the source and the level is not M, it enters S. -/
theorem State.enterIrq_delegated {s : State} {deleg : Nat} (h : (s.reg (pCORE + 0x188)).getLsbD deleg = true ∧ s.pl ≤ 1) (id cause : Nat)
    (detail : Word) : (s.enterIrq id deleg cause detail).seen = s.seen.entered false 1 (xcause true s.pl cause detail) 0#64 s.cpu.ip := by
  rw [State.enterIrq, if_pos (Bool.and_eq_true_iff.mpr ⟨h.1, decide_eq_true h.2⟩), State.enterAsync_sees]

theorem State.enterIrq_kept {s : State} {deleg : Nat} (h : ¬((s.reg (pCORE + 0x188)).getLsbD deleg = true ∧ s.pl ≤ 1))
    (id cause : Nat) (detail : Word) :
    (s.enterIrq id deleg cause detail).seen = s.seen.entered true 3 (xcause true s.pl cause detail) 0#64 s.cpu.ip := by
  rw [State.enterIrq, if_neg fun both => h ((Bool.and_eq_true_iff.mp both).imp_right of_decide_eq_true), State.enterAsync_sees]

/-- The halt writes no frame: IP goes to LIFE_DBGPC (R458). -/
theorem State.takeHalt_reg64 (s : State) : s.takeHalt.reg64 0xE120 = s.cpu.ip := s.setReg64_reg64 _ _

/-! ## The source of the highest priority (R243) -/

section
variable {s : State} (samples : s.canSample = true)
include samples

theorem State.sample_mchk (mchk : s.cpu.mchkDue = true) : s.sample = s.enterMchk := by
  simp [State.sample, samples, mchk]

variable (noMchk : s.cpu.mchkDue = false)
include noMchk

theorem State.sample_delayed (rep : s.repDelays = true) : s.sample = s := by
  simp [State.sample, samples, noMchk, rep]

variable (noRep : s.repDelays = false)
include noRep

theorem State.sample_halt (halt : s.cpu.haltDue = true) : s.sample = s.takeHalt := by
  simp [State.sample, samples, noMchk, noRep, halt]

variable (noHalt : s.cpu.haltDue = false)
include noHalt

theorem State.sample_nmi (nmi : s.cpu.nmi = true) :
    s.sample = ({ s with cpu := { s.cpu with nmi := false } } : State).enterAsync 0 true 4 0x41 0#32 0#64 := by
  simp [State.sample, samples, noMchk, noRep, noHalt, nmi]

variable (noNmi : s.cpu.nmi = false) (ie : flagIE s.cpu.flags = true)
include noNmi ie

theorem State.sample_line {n : Nat} (top : s.topExt = some n) : s.sample = s.enterIrq (2 + n) (16 + n) (0x48 + n) 0#32 := by
  simp [State.sample, samples, noMchk, noRep, noHalt, noNmi, ie, top]

theorem State.sample_pageEvent (noLine : s.topExt = none) (page : s.pageIrq = true) :
    s.sample = s.enterIrq 10 24 0x50 (w32 s.pageIrqs) := by
  simp [State.sample, samples, noMchk, noRep, noHalt, noNmi, ie, noLine, page]

end

theorem asyncEntry_does {s : State} {v : Seen} (sees : s.sample.seen = v) : Does .asyncEntry s v := ⟨_, rfl, sees⟩

/-- Settles O53: the lines by `State.latchWfi_wait`, each source by what sampling comes to where it is the highest that is due. -/
theorem asynchronousSources : Obligations.AsynchronousSources := by
  unfold Obligations.AsynchronousSources
  refine fun s => ⟨fun on => congrArg Host.Outcome.next (if_pos on), irqExt_leaves s, fun samples => ?_⟩
  intro entered line
  refine ⟨fun mchk => asyncEntry_does ?_, fun noMchk rep => congrArg Host.Outcome.next (s.sample_delayed samples noMchk rep),
    fun noMchk noRep => ⟨fun halt => ?_, fun noHalt => ⟨fun nmi => asyncEntry_does ?_,
      fun noNmi ie => ⟨fun n top => ?_, fun noLine page => ?_⟩⟩⟩⟩
  · rw [s.sample_mchk samples mchk, State.enterMchk_sees]
  · refine ⟨_, rfl, ?_⟩
    rw [s.sample_halt samples noMchk noRep halt]
    exact ⟨rfl, s.takeHalt_reg64, s.takeHalt_seen⟩
  · rw [s.sample_nmi samples noMchk noRep noHalt nmi, State.enterAsync_sees]
    rfl
  · have sampled := s.sample_line samples noMchk noRep noHalt noNmi ie top
    by_cases delegated : (s.reg 0x1188).getLsbD (16 + n) = true ∧ s.pl ≤ 1
    · exact (if_pos delegated).mpr (asyncEntry_does (by rw [sampled, State.enterIrq_delegated delegated]))
    · exact (if_neg delegated).mpr (asyncEntry_does (by rw [sampled, State.enterIrq_kept delegated]))
  · have sampled := s.sample_pageEvent samples noMchk noRep noHalt noNmi ie noLine page
    split
    · next delegated => exact asyncEntry_does (by rw [sampled, State.enterIrq_delegated delegated])
    · next kept => exact asyncEntry_does (by rw [sampled, State.enterIrq_kept kept])

end Sys2Proof.Machine
end

section
/-! PROOF. The bit functions and the CRC (O9, O11; R265, R282): each recursion by what it has found in the bits that it has passed. -/

namespace Sys2Proof.Machine

/-! ## Counts of bits -/

theorem popLow_eq_length (x : DWord) (n : Nat) : popLow x n = ((List.range n).filter x.getLsbD).length := by
  induction n with
  | zero => rfl
  | succ n ih => cases h : x.getLsbD n <;> simp [popLow, List.range_succ, List.filter_append, ih, h]

/-- The zeros above the outermost set bit among the low `n`. -/
theorem clzLow_spec (x : DWord) (n : Nat) :
    clzLow x n ≤ n ∧ (∀ i, n - clzLow x n ≤ i → i < n → x.getLsbD i = false)
      ∧ (clzLow x n < n → x.getLsbD (n - 1 - clzLow x n) = true) := by
  induction n with
  | zero => exact ⟨Nat.le_refl 0, fun i _ h => absurd h (Nat.not_lt_zero i), fun h => absurd h (Nat.not_lt_zero _)⟩
  | succ n ih =>
    obtain ⟨le, zeros, one⟩ := ih
    cases top : x.getLsbD n with
    | true =>
      rw [clzLow, if_pos top]
      exact ⟨Nat.zero_le _, fun i _ _ => by omega, fun _ => top⟩
    | false =>
      rw [clzLow, if_neg (by rw [top]; exact Bool.false_ne_true)]
      refine ⟨by omega, fun i above below => ?_, fun within => ?_⟩
      · by_cases last : i = n
        · exact last ▸ top
        · exact zeros i (by omega) (by omega)
      · rw [show n + 1 - 1 - (1 + clzLow x n) = n - 1 - clzLow x n by omega]
        exact one (by omega)

/-- The zeros below the lowest set bit among the top `n`. -/
theorem ctzFrom_spec (x : DWord) {n : Nat} (most : n ≤ 64) :
    ctzFrom x n ≤ n ∧ (∀ i, 64 - n ≤ i → i < 64 - n + ctzFrom x n → x.getLsbD i = false)
      ∧ (ctzFrom x n < n → x.getLsbD (64 - n + ctzFrom x n) = true) := by
  induction n with
  | zero => exact ⟨Nat.le_refl 0, fun i _ h => by rw [ctzFrom] at h; omega, fun h => absurd h (Nat.not_lt_zero _)⟩
  | succ n ih =>
    obtain ⟨le, zeros, one⟩ := ih (by omega)
    cases low : x.getLsbD (63 - n) with
    | true =>
      rw [ctzFrom, if_pos low]
      exact ⟨Nat.zero_le _, fun i _ _ => by omega, fun _ => by rwa [show 64 - (n + 1) + 0 = 63 - n by omega]⟩
    | false =>
      rw [ctzFrom, if_neg (by rw [low]; exact Bool.false_ne_true)]
      refine ⟨by omega, fun i above below => ?_, fun within => ?_⟩
      · by_cases first : i = 63 - n
        · exact first ▸ low
        · exact zeros i (by omega) (by omega)
      · rw [show 64 - (n + 1) + (1 + ctzFrom x n) = 64 - n + ctzFrom x n by omega]
        exact one (by omega)

/-! ## Reversals -/

theorem getLsbD_one_shiftLeft (p i : Nat) : (1#64 <<< p).getLsbD i = (decide (i < 64) && decide (i = p)) := by
  rw [BitVec.getLsbD_shiftLeft, BitVec.getLsbD_one]
  by_cases below : i < p
  · simp [below, Nat.ne_of_lt below]
  · simp [below, show i - p = 0 ↔ i = p by omega]

theorem revLow_getLsbD (x : DWord) {w n : Nat} (width : w ≤ 64) (most : n ≤ w) (i : Nat) :
    (revLow w x n).getLsbD i = (decide (i < w) && decide (w - n ≤ i) && x.getLsbD (w - 1 - i)) := by
  induction n with
  | zero => rw [revLow, show (decide (i < w) && decide (w - 0 ≤ i)) = false by simp]; simp
  | succ n ih =>
    have bit : (if x.getLsbD n then 1#64 <<< (w - 1 - n) else 0#64).getLsbD i = (decide (i = w - 1 - n) && x.getLsbD n) := by
      cases x.getLsbD n with
      | true =>
        rw [if_pos rfl, getLsbD_one_shiftLeft, Bool.and_true]
        by_cases here : i = w - 1 - n
        · simp [here, show w - 1 - n < 64 by omega]
        · simp [here]
      | false => simp
    rw [revLow, BitVec.getLsbD_or, ih (by omega), bit]
    by_cases here : i = w - 1 - n
    · subst here
      rw [show w - 1 - (w - 1 - n) = n by omega]
      simp [show ¬ w - n ≤ w - 1 - n by omega, show w - 1 - n < w by omega, show w - (n + 1) ≤ w - 1 - n by omega]
    · simp [here, show w - (n + 1) ≤ i ↔ w - n ≤ i by omega]

theorem brevOf_getLsbD (x : DWord) {w : Nat} (width : w ≤ 64) (i : Nat) :
    (brevOf w x).getLsbD i = (decide (i < w) && x.getLsbD (w - 1 - i)) := by
  rw [brevOf, revLow_getLsbD x width (Nat.le_refl w)]
  simp

theorem brevnOf_getLsbD (x : DWord) {k : Nat} (width : k ≤ 64) (i : Nat) :
    (brevnOf k x).getLsbD i = if i < k then x.getLsbD (k - 1 - i) else x.getLsbD i := by
  have kept : (x >>> k <<< k).getLsbD i = (!decide (i < k) && x.getLsbD i) := by
    rw [BitVec.getLsbD_shiftLeft, BitVec.getLsbD_ushiftRight]
    by_cases low : i < k
    · simp [low]
    · rw [show k + (i - k) = i by omega]
      by_cases inside : i < 64
      · simp [inside]
      · simp [BitVec.getLsbD_of_ge x i (by omega)]
  rw [brevnOf, BitVec.getLsbD_or, kept, revLow_getLsbD x width (Nat.le_refl k)]
  by_cases low : i < k <;> simp [low]

/-- Settles O9: each function by what its recursion has found so far (`popLow_eq_length`, `clzLow_spec`, `ctzFrom_spec`, `revLow_getLsbD`). -/
theorem bitFunctionsMeanWhatTheyCount : Obligations.BitFunctionsMeanWhatTheyCount := by
  unfold Obligations.BitFunctionsMeanWhatTheyCount
  intro x
  refine ⟨popLow_eq_length x 64, ?_, ?_, fun w width => brevOf_getLsbD x width, fun k width => brevnOf_getLsbD x width, fun w _ => ?_⟩
  · obtain ⟨le, zeros, one⟩ := clzLow_spec x 64
    refine ⟨le, fun i above => ?_, one⟩
    by_cases inside : i < 64
    · exact zeros i above inside
    · exact BitVec.getLsbD_of_ge x i (Nat.not_lt.mp inside)
  · simpa using ctzFrom_spec x (Nat.le_refl 64)
  · rw [parityOf, popLow_eq_length]
    rcases Nat.mod_two_eq_zero_or_one ((List.range w).filter x.getLsbD).length with even | odd
    · rw [even]; rfl
    · rw [odd]; rfl

/-! ## The CRC stays within its width -/

theorem and_mask_toNat (x : DWord) (w : Nat) : (x &&& BitVec.ofNat 64 (2 ^ w - 1)).toNat < 2 ^ w := by
  rw [BitVec.toNat_and, BitVec.toNat_ofNat]
  have mask : (2 ^ w - 1) % 2 ^ 64 ≤ 2 ^ w - 1 := Nat.mod_le _ _
  have le := Nat.and_le_right (n := x.toNat) (m := (2 ^ w - 1) % 2 ^ 64)
  have pos := Nat.two_pow_pos w
  omega

theorem and_mask_of_lt {x : DWord} {w : Nat} (width : w ≤ 64) (h : x.toNat < 2 ^ w) : x &&& BitVec.ofNat 64 (2 ^ w - 1) = x := by
  refine BitVec.eq_of_toNat_eq ?_
  have mask : 2 ^ w - 1 < 2 ^ 64 := by
    have pos := Nat.two_pow_pos w
    have le : 2 ^ w ≤ 2 ^ 64 := Nat.pow_le_pow_right (by omega) width
    omega
  rw [BitVec.toNat_and, BitVec.toNat_ofNat, Nat.mod_eq_of_lt mask, Nat.and_two_pow_sub_one_eq_mod, Nat.mod_eq_of_lt h]

/-- A word whose bits from `w` up are 0 lies below 2^w. -/
theorem toNat_lt_of_getLsbD {x : DWord} {w : Nat} (h : ∀ i, w ≤ i → x.getLsbD i = false) : x.toNat < 2 ^ w :=
  Nat.lt_pow_two_of_testBit _ h

theorem revPoly_lt {w : Nat} (width : w ≤ 64) (p : BitVec 32) : (revPoly w p).toNat < 2 ^ w := by
  refine toNat_lt_of_getLsbD fun i above => ?_
  rw [revPoly, revLow_getLsbD _ width (Nat.le_refl w)]
  simp [Nat.not_lt.mpr above]

theorem crcBitsR_lt {w : Nat} {p : DWord} (poly : p.toNat < 2 ^ w) (n : Nat) {s : DWord} (h : s.toNat < 2 ^ w) :
    (crcBitsR p n s).toNat < 2 ^ w := by
  induction n generalizing s with
  | zero => exact h
  | succ n ih =>
    have shifted : (s >>> 1).toNat < 2 ^ w := by
      rw [BitVec.toNat_ushiftRight]
      exact Nat.lt_of_le_of_lt (Nat.shiftRight_le _ _) h
    rw [crcBitsR]
    refine ih ?_
    split
    · rw [BitVec.toNat_xor]
      exact Nat.xor_lt_two_pow shifted poly
    · exact shifted

theorem crcBitsN_lt {w : Nat} (p : DWord) (n : Nat) {s : DWord} (h : s.toNat < 2 ^ w) : (crcBitsN w p n s).toNat < 2 ^ w := by
  induction n generalizing s with
  | zero => exact h
  | succ n ih => exact ih (and_mask_toNat _ w)

theorem crcByte_lt (k : CrcParam) (low : 8 ≤ k.w) (width : k.w ≤ 64) {s : DWord} (h : s.toNat < 2 ^ k.w) (b : Byte) :
    (crcByte k s b).toNat < 2 ^ k.w := by
  have byte : b.toNat < 2 ^ 8 := b.isLt
  unfold crcByte
  split
  · refine crcBitsR_lt (revPoly_lt width k.poly) 8 ?_
    rw [BitVec.toNat_xor]
    refine Nat.xor_lt_two_pow h ?_
    rw [BitVec.toNat_setWidth]
    exact Nat.lt_of_le_of_lt (Nat.mod_le _ _) (Nat.lt_of_lt_of_le byte (Nat.pow_le_pow_right (by omega) low))
  · refine crcBitsN_lt _ 8 ?_
    rw [BitVec.toNat_xor]
    refine Nat.xor_lt_two_pow h ?_
    rw [BitVec.toNat_shiftLeft, BitVec.toNat_setWidth, Nat.mod_eq_of_lt (a := b.toNat) (by omega), Nat.shiftLeft_eq]
    refine Nat.lt_of_le_of_lt (Nat.mod_le _ _) ?_
    calc b.toNat * 2 ^ (k.w - 8) < 2 ^ 8 * 2 ^ (k.w - 8) := Nat.mul_lt_mul_of_pos_right byte (Nat.two_pow_pos _)
      _ = 2 ^ k.w := by rw [← Nat.pow_add, Nat.add_sub_cancel' low]

theorem foldl_crcByte_lt (k : CrcParam) (low : 8 ≤ k.w) (width : k.w ≤ 64) (bs : List Byte) {s : DWord} (h : s.toNat < 2 ^ k.w) :
    (bs.foldl (crcByte k) s).toNat < 2 ^ k.w := by
  induction bs generalizing s with
  | nil => exact h
  | cons b bs ih => exact ih (crcByte_lt k low width h b)

/-- Settles O11: every step keeps the state within the width (`crcByte_lt`), so the mask at the start of the second part changes nothing. -/
theorem crcStepsCompose : Obligations.CrcStepsCompose := by
  unfold Obligations.CrcStepsCompose
  intro k widths st xs ys
  have low : 8 ≤ k.w := by omega
  have width : k.w ≤ 64 := by omega
  have within : (crcStep k st xs).toNat < 2 ^ k.w := foldl_crcByte_lt k low width xs (and_mask_toNat st k.w)
  refine ⟨within, ?_⟩
  rw [crcStep, List.foldl_append, crcStep.eq_def k (crcStep k st xs) ys, and_mask_of_lt width within, crcStep]

end Sys2Proof.Machine
end

section
/-! PROOF. Divisions (O12, O13; R238, R269): a quotient and its remainder at a width, as the block's own results and as the library's. -/

namespace Sys2Proof.Machine

/-! ## What a division gives at a width (R269) -/

theorem divAt_div (w : Nat) (a b : BitVec w) : divAt w .div a b = a.sdiv b :=
  BitVec.eq_of_toInt_eq (by rw [divAt, BitVec.toInt_ofInt, BitVec.toInt_sdiv])

theorem divAt_rem (w : Nat) (a b : BitVec w) : divAt w .rem a b = a.srem b := by
  rw [divAt, ← BitVec.toInt_srem, BitVec.ofInt_toInt]

theorem divAt_divu (w : Nat) (a b : BitVec w) : divAt w .divu a b = a / b := by
  rw [divAt, ← BitVec.toNat_udiv, BitVec.ofNat_toNat, BitVec.setWidth_eq]

theorem divAt_remu (w : Nat) (a b : BitVec w) : divAt w .remu a b = a % b := by
  rw [divAt, ← BitVec.toNat_umod, BitVec.ofNat_toNat, BitVec.setWidth_eq]

/-- The signed quotient but for the most negative value by -1. -/
theorem divAt_div_toInt {w : Nat} {a b : BitVec w} (h : a ≠ BitVec.intMin w ∨ b ≠ -1#w) :
    (divAt w .div a b).toInt = a.toInt.tdiv b.toInt := by
  rw [divAt_div, BitVec.toInt_sdiv_of_ne_or_ne a b h]

theorem divAt_rem_toInt (w : Nat) (a b : BitVec w) : (divAt w .rem a b).toInt = a.toInt.tmod b.toInt := by
  rw [divAt_rem, BitVec.toInt_srem]

theorem divAt_divu_toNat (w : Nat) (a b : BitVec w) : (divAt w .divu a b).toNat = a.toNat / b.toNat := by
  rw [divAt_divu, BitVec.toNat_udiv]

theorem divAt_remu_toNat (w : Nat) (a b : BitVec w) : (divAt w .remu a b).toNat = a.toNat % b.toNat := by
  rw [divAt_remu, BitVec.toNat_umod]

/-- With X = 1 the low halves are divided, and DIV and REM extended by sign. -/
theorem divResult_signed {op : DivOp} (h : op.signedResult = true) (hi lo p q : Word) :
    divResult op true (hi ++ p) (lo ++ q) = (divAt 32 op p q).signExtend 64 := by
  rw [divResult, if_pos rfl, BitVec.setWidth_append_eq_right, BitVec.setWidth_append_eq_right, if_pos h]

theorem divResult_unsigned {op : DivOp} (h : op.signedResult = false) (hi lo p q : Word) :
    divResult op true (hi ++ p) (lo ++ q) = (divAt 32 op p q).setWidth 64 := by
  rw [divResult, if_pos rfl, BitVec.setWidth_append_eq_right, BitVec.setWidth_append_eq_right, if_neg (by rw [h]; exact Bool.false_ne_true)]

theorem toInt_signExtend64 (x : Word) : (x.signExtend 64).toInt = x.toInt := BitVec.toInt_signExtend_of_le (by decide)

theorem toNat_setWidth64 (x : Word) : (x.setWidth 64).toNat = x.toNat := BitVec.toNat_setWidth_of_le (by decide)

theorem divisionRoundsTowardZero : DivisionRoundsTowardZero := by
  intro a b p q _ _ most mostW
  refine ⟨fun usual => ⟨divAt_div_toInt (not_and_or.mp usual), divAt_rem_toInt 64 a b⟩, ?_, divAt_divu_toNat 64 a b, divAt_remu_toNat 64 a b,
    fun hi lo => ⟨fun usual => ⟨?_, ?_⟩, ?_, ?_, ?_⟩⟩
  · rintro ⟨rfl, rfl⟩
    decide
  · rw [divResult_signed rfl, toInt_signExtend64, divAt_div_toInt (not_and_or.mp usual)]
  · rw [divResult_signed rfl, toInt_signExtend64, divAt_rem_toInt]
  · rintro ⟨rfl, rfl⟩
    rw [divResult_signed rfl, divResult_signed rfl]
    decide
  · rw [divResult_unsigned rfl, toNat_setWidth64, divAt_divu_toNat]
  · rw [divResult_unsigned rfl, toNat_setWidth64, divAt_remu_toNat]

/-- Settles O13: the integer identities of `Int.tdiv` and `Int.tmod` modulo 2^64, and those of the unsigned division. -/
theorem quotientAndRemainderBelongTogether : Obligations.QuotientAndRemainderBelongTogether := by
  unfold Obligations.QuotientAndRemainderBelongTogether
  intro a b nonzero
  have positive : 0 < b.toNat := Nat.pos_of_ne_zero fun zero => nonzero (BitVec.eq_of_toNat_eq zero)
  have magnitude : 0 < b.toInt.natAbs := Int.natAbs_pos.mpr fun zero => nonzero (BitVec.eq_of_toInt_eq zero)
  have rem : (divResult .rem false a b).toInt = a.toInt.tmod b.toInt := divAt_rem_toInt 64 a b
  refine ⟨?_, ?_, ?_, ?_, ?_⟩
  · calc divResult .divu false a b * b + divResult .remu false a b
        = BitVec.ofNat 64 (a.toNat / b.toNat) * BitVec.ofNat 64 b.toNat + BitVec.ofNat 64 (a.toNat % b.toNat) := by
          rw [BitVec.ofNat_toNat, BitVec.setWidth_eq]; rfl
      _ = BitVec.ofNat 64 (a.toNat / b.toNat * b.toNat + a.toNat % b.toNat) := by rw [BitVec.ofNat_add, BitVec.ofNat_mul]
      _ = a := by rw [Nat.div_add_mod', BitVec.ofNat_toNat, BitVec.setWidth_eq]
  · rw [show (divResult .remu false a b).toNat = _ from divAt_remu_toNat 64 a b]
    exact Nat.mod_lt _ positive
  · calc divResult .div false a b * b + divResult .rem false a b
        = BitVec.ofInt 64 (a.toInt.tdiv b.toInt) * BitVec.ofInt 64 b.toInt + BitVec.ofInt 64 (a.toInt.tmod b.toInt) := by
          rw [BitVec.ofInt_toInt]; rfl
      _ = BitVec.ofInt 64 (a.toInt.tdiv b.toInt * b.toInt + a.toInt.tmod b.toInt) := by rw [BitVec.ofInt_add, BitVec.ofInt_mul]
      _ = a := by rw [Int.tdiv_mul_add_tmod, BitVec.ofInt_toInt]
  · rw [rem, Int.natAbs_tmod]
    exact Nat.mod_lt _ magnitude
  · rw [rem]
    intro nonzero
    have sign := Int.sign_tmod a.toInt b.toInt
    have undivided : ¬ b.toInt ∣ a.toInt := fun divides => nonzero (Int.tmod_eq_zero_of_dvd divides)
    rw [if_neg undivided] at sign
    rw [← Int.sign_eq_neg_one_iff_neg, ← Int.sign_eq_neg_one_iff_neg, sign]

end Sys2Proof.Machine
end

section
/-! PROOF. Instructions of the pipe that complete at once (O7, O8, O10; R258, R265 to R267, R282): what an instruction that has arrived reads
is what software sees, and what its shared form writes. -/

namespace Sys2Proof.Machine

/-! ## What an instruction reads -/

@[simp] theorem State.arrived_f (s : State) (len : Nat) (n : Fin 32) : (s.arrived len).f n = s.seen.readF n := by
  rw [State.f_seen, s.arrived_seen len]

@[simp] theorem State.arrived_intSrc (s : State) (len : Nat) (b : IntSrc) : (s.arrived len).intSrc b = s.seen.src b := by
  rw [State.intSrc_seen, s.arrived_seen len]

@[simp] theorem State.arrived_flags (s : State) (len : Nat) : (s.arrived len).cpu.flags = s.seen.flags := by
  rw [State.flags_seen, s.arrived_seen len]

@[simp] theorem State.arrived_ip (s : State) (len : Nat) : (s.arrived len).cpu.ip = s.seen.ip := by
  rw [State.ip_seen, s.arrived_seen len]

@[simp] theorem Seen.putG_flags (v : Seen) (n : Fin 32) (x : DWord) : (v.putG n x).flags = v.flags := by
  rw [Seen.putG]
  split <;> rfl

/-- G0 reads as 0 whatever was written to it. -/
theorem Seen.putG_readG (v : Seen) (n m : Fin 32) (x : DWord) : (v.putG n x).readG m = if m = n ∧ n ≠ 0 then x else v.readG m := by
  by_cases zero : n = 0
  · simp [Seen.putG, zero]
  · by_cases same : m = n
    · subst same
      simp [Seen.putG, Seen.readG, zero]
    · have other : n.val ≠ m.val := fun h => same (Fin.ext h.symm)
      simp [Seen.putG, Seen.readG, zero, same, other]

theorem State.setG_flags (s : State) (n : Fin 32) (x : DWord) : (s.setG n x).cpu.flags = s.cpu.flags := by
  rw [State.flags_seen, State.setG_sees, Seen.putG_flags, State.flags_seen]

/-! ## The shared forms -/

section
variable {s : State} {i : Instr}

/-- An integer operation writes its result and, where X is 1, FLAGS. -/
theorem Does.intOp {o : IntArgs} (issues : s.issues (srcLen o.b) (o.d :: o.a :: srcRegs o.b) []) (f : DWord → DWord → DWord)
    (k : DWord → DWord → DWord → Cond) (exec : exec i s = .next (s.intOp o f k)) :
    Does i s (s.seen.integer o (f (s.seen.readG o.a) (s.seen.src o.b)) (k (s.seen.readG o.a) (s.seen.src o.b)
      (f (s.seen.readG o.a) (s.seen.src o.b)))) := by
  refine Does.of_work issues exec ?_
  dsimp only
  rw [State.commit_sees, s.arrived_g, s.arrived_intSrc, s.arrived_flags, Seen.integer]
  cases o.x with
  | true => rw [if_pos rfl, State.setFlags_sees, State.setG_sees, s.arrived_seen, Seen.condIf, if_pos rfl, Seen.cond, Seen.putG_flags]
  | false =>
    rw [if_neg Bool.false_ne_true, State.setG_sees, s.arrived_seen, Seen.condIf, if_neg Bool.false_ne_true]

theorem Does.intTest {a : GReg} {b : IntSrc} (issues : s.issues (srcLen b) (a :: srcRegs b) []) (k : DWord → DWord → Cond)
    (exec : exec i s = .next (s.intTest a b k)) : Does i s ((s.seen.cond (k (s.seen.readG a) (s.seen.src b))).next (srcLen b)) := by
  refine Does.of_work issues exec ?_
  rw [State.commit_sees, State.setFlags_sees, s.arrived_g, s.arrived_intSrc, s.arrived_flags, s.arrived_seen, Seen.cond]

theorem Does.unary {len : Nat} {d a : GReg} (issues : s.issues len [d, a] []) (f : DWord → DWord) (exec : exec i s = .next (s.unary len d a f)) :
    Does i s ((s.seen.putG d (f (s.seen.readG a))).next len) := by
  refine Does.of_work issues exec ?_
  rw [State.commit_sees, State.setG_sees, s.arrived_g, s.arrived_seen]

theorem Does.unaryIf {ok : Bool} {len : Nat} {d a : GReg} (issues : s.issues len [d, a] []) (f : DWord → DWord) (inRange : ok = true)
    (exec : exec i s = .next (s.unaryIf ok len d a f)) : Does i s ((s.seen.putG d (f (s.seen.readG a))).next len) :=
  Does.unary issues f (exec.trans (congrArg Host.Outcome.next (if_pos inRange)))

theorem Does.moveImm {len : Nat} {d : GReg} (issues : s.issues len [d] []) (x : DWord) (exec : exec i s = .next (s.moveImm len d x)) :
    Does i s ((s.seen.putG d x).next len) := by
  refine Does.of_work issues exec ?_
  rw [State.commit_sees, State.setG_sees, s.arrived_seen]

end

/-! ## Integer operations -/

theorem integerOperations : IntegerOperations := by
  intro s o issues v a b n plain
  have logic {i : Instr} (f : DWord → DWord → DWord) (exec : exec i s = .next (s.intOp o f fun _ _ r => condLogic r)) : plain i (f a b) :=
    Does.intOp issues f (fun _ _ r => condLogic r) exec
  exact ⟨Does.intOp issues (fun a b => a + b) (fun a b _ => condAdd a b) rfl, Does.intOp issues (fun a b => a - b) (fun a b _ => condSub a b) rfl,
    logic (fun a b => a &&& b) rfl, logic (fun a b => a ||| b) rfl, logic (fun a b => a ^^^ b) rfl, logic (fun a b => a &&& ~~~b) rfl,
    logic (fun a b => a <<< shAmt b) rfl, logic (fun a b => a >>> shAmt b) rfl, logic (fun a b => a.sshiftRight (shAmt b)) rfl,
    logic (fun a b => a.rotateLeft (shAmt b)) rfl, logic (fun a b => a.rotateRight (shAmt b)) rfl, logic (fun a b => a * b) rfl,
    logic mulh rfl, logic mulhu rfl⟩

/-- Settles O7: each operation is the one form (`Does.intOp`, `Does.intTest`) with its result and its flags. -/
theorem integerOperationsAndCompares : Obligations.IntegerOperationsAndCompares := by
  refine ⟨integerOperations, fun s a b issues => ⟨?_, ?_⟩⟩
  · exact Does.intTest issues condSub rfl
  · exact Does.intTest issues (fun x y => condLogic (x &&& y)) rfl

/-! ## Moves, constants, LEA -/

/-- What LEA multiplies its index by: 1, or with X = 1 a free value. -/
theorem lea_does {s : State} {o : MemArgs} (issues : s.issues (memLen o) [o.d, o.b, o.a] []) : ∃ m : DWord, (o.x = false → m = 1) ∧
    Does (.lea o) s ((s.seen.putG o.d (s.seen.readG o.b + s.seen.readG o.a * m + dispVal o.disp)).next (memLen o)) := by
  cases scaled : o.x with
  | true =>
    refine ⟨Config.leaScale (s.arrived (memLen o)).fresh, fun h => absurd h (by decide), Does.of_work issues rfl ?_⟩
    have sees : ({ s.arrived (memLen o) with fresh := (s.arrived (memLen o)).fresh + 1 } : State).seen = s.seen := s.arrived_seen _
    rw [if_pos scaled, State.commit_sees, State.setG_sees, State.g_seen, State.g_seen, sees]
  | false =>
    refine ⟨1, fun _ => rfl, Does.of_work issues rfl ?_⟩
    rw [if_neg (by rw [scaled]; exact Bool.false_ne_true), State.commit_sees, State.setG_sees, State.memAddr, s.arrived_g, s.arrived_g,
      s.arrived_seen, scaled]
    rfl

/-- Settles O8: moves by `Does.unary`, constants by `Does.moveImm`, LEA by `lea_does`. -/
theorem movesWriteOneRegister : Obligations.MovesWriteOneRegister := by
  intro s d a v
  refine ⟨fun issues => ⟨?_, ?_, ?_⟩, fun i issues => ?_, fun i issues => ?_, fun i issues => ?_, fun o issues => lea_does issues⟩
  · exact Does.unary issues id rfl
  · exact Does.unary issues (fun x => (x.setWidth 32).setWidth 64) rfl
  · exact Does.unary issues (fun x => (x.setWidth 32).signExtend 64) rfl
  · exact Does.moveImm issues (i.signExtend 64) rfl
  · exact Does.moveImm issues (i.signExtend 64) rfl
  · exact Does.moveImm issues i rfl

/-! ## Bit instructions and CRCSTEP -/

theorem bitInstructionsWriteOneRegister : BitInstructionsWriteOneRegister := by
  intro s d a v x
  refine ⟨fun n issues low high => ?_, fun n issues width => ?_, fun issues => ?_⟩
  · have inRange : decide (1 ≤ n.toNat ∧ n.toNat ≤ 64) = true := decide_eq_true ⟨low, high⟩
    exact ⟨Does.unaryIf issues (parityOf n.toNat) inRange rfl, Does.unaryIf issues (brevnOf n.toNat) inRange rfl⟩
  · have inRange : (n == 8#8 || n == 16#8 || n == 32#8 || n == 64#8) = true := by
      simpa [or_assoc] using width
    exact Does.unaryIf issues (brevOf n.toNat) inRange rfl
  · exact ⟨Does.unary issues (fun x => w64 (popLow x 64)) rfl, Does.unary issues (fun x => w64 (clzLow x 64)) rfl,
      Does.unary issues (fun x => w64 (ctzFrom x 64)) rfl⟩

theorem crcStepWritesTheStep : CrcStepWritesTheStep := by
  intro s d a c issues small v n
  refine Does.of_work issues rfl ?_
  rw [if_pos (show crcCtlOk c = true from decide_eq_true small), State.commit_sees, State.setG_sees, s.arrived_g, s.arrived_g, s.arrived_seen]
  rfl

/-- Settles O10: the bit instructions by `Does.unary` and `Does.unaryIf`, CRCSTEP by `crcStepWritesTheStep`. -/
theorem bitAndCrcInstructions : Obligations.BitAndCrcInstructions := ⟨bitInstructionsWriteOneRegister, crcStepWritesTheStep⟩

end Sys2Proof.Machine
end

section
/-! PROOF. Divisions and roots beside the pipe, branches, scalar floating point (O12, O14 to O18; R238, R259, R268 to R270, R280, R281), and the
forms that are undefined (O25; R264, R265, R291). -/

namespace Sys2Proof.Machine

/-! ## What is under way beside an instruction -/

/-- Loads, parts in M1, the store buffer, the divide-and-root unit, reads of the scratchpad, what was fetched ahead. -/
structure InFlight where
  loads : List LoadJob
  m1 : List M1Part
  sb : List SbEntry
  div : Option DivJob
  reads : List SpxRead
  fetched : List (Nat × Nat)
  fromLine : Option Nat

def State.inFlight (s : State) : InFlight := ⟨s.cpu.loads, s.cpu.m1, s.cpu.sb, s.cpu.div, s.spx.reads, s.cpu.fetched, s.cpu.fromLine⟩

theorem State.endStep_inFlight (s : State) : s.endStep.inFlight = s.inFlight := by
  unfold State.endStep
  split <;> rfl

@[simp] theorem State.setG_inFlight (s : State) (n : Fin 32) (v : DWord) : (s.setG n v).inFlight = s.inFlight := by
  unfold State.setG
  split <;> rfl

/-- A commit leaves it as it is. -/
@[simp] theorem State.commit_inFlight (s : State) (len : Nat) : (s.commit len).inFlight = s.inFlight := by
  rw [State.commit, State.endStep_inFlight]
  unfold loopBack
  split
  · split <;> rfl
  · rfl

@[simp] theorem State.commitUnit_inFlight (s : State) : s.commitUnit.inFlight = s.inFlight := State.endStep_inFlight _

theorem State.commit_div (s : State) (len : Nat) : (s.commit len).cpu.div = s.cpu.div := congrArg InFlight.div (s.commit_inFlight len)

/-! ## The divide-and-root unit (R238) -/

section
variable {s : State} {i : Instr}

/-- An integer division that finds the unit free and a divisor other than 0. -/
theorem Leaves.divide {x : Bool} {d a b : GReg} (op : DivOp) (issues : s.issues 3 [d, a, b] []) (free : (s.arrived 3).cpu.div = none)
    (nonzero : divByZero x (s.seen.readG b) = false) (exec : exec i s = .next (s.divide op x d a b)) :
    Leaves i s fun t =>
      t.seen = s.seen.next 3 ∧ t.cpu.div = some ⟨false, d, divResult op x (s.seen.readG a) (s.seen.readG b), 0⟩ := by
  refine Leaves.of_work issues exec ?_
  rw [free, if_neg (by decide), s.arrived_g, s.arrived_g, nonzero, if_neg Bool.false_ne_true]
  exact ⟨(State.commit_sees _ 3).trans (congrArg (Seen.next · 3) (s.arrived_seen 3)), State.commit_div _ 3⟩

theorem Does.divideByZero {x : Bool} {d a b : GReg} {op : DivOp} (issues : s.issues 3 [d, a, b] []) (free : (s.arrived 3).cpu.div = none)
    (zero : divByZero x (s.seen.readG b) = true) (exec : exec i s = .next (s.divide op x d a b)) :
    Does i s (s.trapped 3 cDIVIDE 0#32 0#64) := by
  refine Does.trap issues exec ?_
  rw [free, if_neg (by decide), s.arrived_g, if_pos zero]

/-- An operation of the unit in floating point. -/
theorem Leaves.fpBeside {srcs : List FReg} {d : FReg} (issues : s.issues 3 [] (d :: srcs)) (free : (s.arrived 3).cpu.div = none)
    (f : State → DWord × Sticky) (exec : exec i s = .next (s.fpBeside srcs d f)) :
    Leaves i s fun t => t.seen = s.seen.next 3 ∧ t.cpu.div = some ⟨true, d, (f (s.arrived 3)).1, (f (s.arrived 3)).2⟩ := by
  refine Leaves.of_work issues exec ?_
  rw [free, if_neg (by decide)]
  exact ⟨(State.commit_sees _ 3).trans (congrArg (Seen.next · 3) (s.arrived_seen 3)), State.commit_div _ 3⟩

end

theorem divideUnitWritesItsResult : DivideUnitWritesItsResult := by
  intro s j working
  refine ⟨s.divideDone, rfl, ?_⟩
  rw [State.divideDone, working]
  dsimp only
  cases j.fp with
  | true => exact ⟨rfl, rfl⟩
  | false => exact ⟨congrArg InFlight.div (State.setG_inFlight _ j.dest j.val), State.setG_sees _ j.dest j.val⟩

/-- Settles O12: a division goes to the unit (`Leaves.divide`) or traps (`Does.divideByZero`), and what it gives is `divisionRoundsTowardZero`. -/
theorem divisions : Obligations.Divisions := by
  refine ⟨fun s x d a b issues free nonzero => ⟨?_, ?_, ?_, ?_⟩, fun s x d a b issues free zero => ⟨?_, ?_, ?_, ?_⟩,
    divideUnitWritesItsResult, divisionRoundsTowardZero⟩
  · exact Leaves.divide .div issues free nonzero rfl
  · exact Leaves.divide .divu issues free nonzero rfl
  · exact Leaves.divide .rem issues free nonzero rfl
  · exact Leaves.divide .remu issues free nonzero rfl
  · exact Does.divideByZero (op := .div) issues free zero rfl
  · exact Does.divideByZero (op := .divu) issues free zero rfl
  · exact Does.divideByZero (op := .rem) issues free zero rfl
  · exact Does.divideByZero (op := .remu) issues free zero rfl

/-- Settles O18: both go to the unit (`Leaves.fpBeside`). -/
theorem floatDivisionsGoToTheUnit : Obligations.FloatDivisionsGoToTheUnit := by
  intro s x d a b free v p
  refine ⟨fun issues => ?_, fun issues => ?_⟩
  · have goes := Leaves.fpBeside issues free (fun s => fpDiv (.ofX x) (s.f a) (s.f b)) (i := .fdiv x d a b) rfl
    rwa [s.arrived_f, s.arrived_f] at goes
  · have goes := Leaves.fpBeside issues free (fun s => fpSqrt (.ofX x) (s.f a)) (i := .fsqrt x d a) rfl
    rwa [s.arrived_f] at goes

/-! ## Branches (R268, R280, R281) -/

theorem State.branch_sees (s : State) (len : Nat) (target : DWord) : (s.branch len target).seen = s.seen.goTo target := s.goTo_sees target _

theorem bCc_does {s : State} {cc : Fin 15} {t : BranchDisp} (issues : s.issues (branchLen t) [] []) : Does (.bCc cc t) s
    (if condHolds cc.castSucc s.seen.flags then s.seen.goTo (s.seen.ip + branchVal t) else s.seen.next (branchLen t)) := by
  refine Does.of_work issues rfl ?_
  dsimp only
  rw [s.arrived_flags, State.ip_seen, State.countMispredict_seen, s.arrived_seen]
  split
  · rw [State.branch_sees, State.countMispredict_seen, s.arrived_seen]
  · rw [State.commit_sees, State.countMispredict_seen, s.arrived_seen]

/-- Settles O14: a conditional branch by `bCc_does`, the others by what a jump and a commit show. -/
theorem branchesAndCallsGoWhereTheySay : Obligations.BranchesAndCallsGoWhereTheySay := by
  intro s v
  refine ⟨fun cc t issues => bCc_does issues, fun a issues => Does.of_work issues rfl ?_, fun d issues => Does.of_work issues rfl ?_,
    fun a issues => Does.of_work issues rfl ?_, fun issues => Does.of_work issues rfl ?_, fun issues => Does.of_work issues rfl ?_⟩
  · rw [State.jump_sees, s.arrived_g, s.arrived_seen]
  · rw [State.jump_sees, State.setG_sees, s.arrived_ip, s.arrived_seen]
  · rw [State.jump_sees, State.setG_sees, s.arrived_ip, s.arrived_g, s.arrived_seen]
  · rw [State.jump_sees, s.arrived_g, s.arrived_seen]
  · rw [State.commit_sees, s.arrived_seen]

/-- Settles O15: the block begins by what `State.brptAt` writes; a length of 0 is undefined. -/
theorem blockRepeatBegins : Obligations.BlockRepeatBegins := by
  intro s a len issues v bgn fin
  refine ⟨fun nonempty => Does.of_work issues rfl ?_, fun empty => Does.trap issues rfl (if_pos empty)⟩
  have count : (s.arrived 5).retireInstr.g a = v.readG a := s.arrived_g 5 a
  rw [State.brptAt, if_neg nonempty]
  dsimp only
  rw [State.endStep_seen, count, s.arrived_ip]
  have sees : (s.arrived 5).retireInstr.seen = v := s.arrived_seen 5
  rw [← sees]
  rfl

/-! ## Scalar floating point (R259, R261, R270) -/

theorem addSticky_zero (f : DWord) : addSticky f 0 = f := by simp [addSticky]

theorem Seen.sticky_zero (v : Seen) : v.sticky 0 = v := congrArg v.putFlags (addSticky_zero v.flags)

section
variable {s : State} {i : Instr}

theorem Does.fpOp2 {d a b : FReg} (issues : s.issues 3 [] [d, a, b]) (f : DWord → DWord → DWord × Sticky)
    (exec : exec i s = .next (s.fpOp2 d a b f)) :
    Does i s (s.seen.float 3 d (f (s.seen.readF a) (s.seen.readF b))) := by
  refine Does.of_work issues exec ?_
  dsimp only
  rw [State.commit_sees, State.sticky_sees, State.setF_sees, s.arrived_f, s.arrived_f, s.arrived_seen, Seen.float]

theorem Does.fpOp1 {len : Nat} {d a : FReg} (issues : s.issues len [] [d, a]) (f : DWord → DWord × Sticky)
    (exec : exec i s = .next (s.fpOp1 len d a f)) : Does i s (s.seen.float len d (f (s.seen.readF a))) := by
  refine Does.of_work issues exec ?_
  dsimp only
  rw [State.commit_sees, State.sticky_sees, State.setF_sees, s.arrived_f, s.arrived_seen, Seen.float]

/-- The same where no exception can arise. -/
theorem Does.fpMove {d a : FReg} (issues : s.issues 3 [] [d, a]) (f : DWord → DWord) (exec : exec i s = .next (s.fpOp1 3 d a fun v => (f v, 0))) :
    Does i s ((s.seen.putF d (f (s.seen.readF a))).next 3) := by
  have moves := Does.fpOp1 issues _ exec
  rwa [Seen.float, Seen.sticky_zero] at moves

end

/-- Settles O16: each operation is the one form (`Does.fpOp2`) with its result; FMA reads F[D] too, and FCMP writes FLAGS. -/
theorem floatArithmetic : Obligations.FloatArithmetic := by
  intro s x d a b v p fa fb
  refine ⟨fun issues => ⟨?_, ?_, ?_, ?_, ?_, Does.of_work issues rfl ?_⟩, fun issues => Does.of_work issues rfl ?_⟩
  · exact Does.fpOp2 issues (fpBin FVal.add p) rfl
  · exact Does.fpOp2 issues (fpBin FVal.sub p) rfl
  · exact Does.fpOp2 issues (fpBin FVal.mul p) rfl
  · exact Does.fpOp2 issues (fpSel fvMin p) rfl
  · exact Does.fpOp2 issues (fpSel fvMax p) rfl
  · dsimp only
    rw [State.commit_sees, State.sticky_sees, State.setF_sees, s.arrived_f, s.arrived_f, s.arrived_f, s.arrived_seen, Seen.float]
  · dsimp only
    rw [State.commit_sees, State.sticky_sees, State.setFlags_sees, s.arrived_f, s.arrived_f, s.arrived_flags, s.arrived_seen, Seen.cond]

/-- The bits of a precision that a move takes (R259), and its sign bit. -/
theorem fpBits_ofX (x : Bool) (y : DWord) : fpBits (.ofX x) y = if x then y else (y.setWidth 32).setWidth 64 := by cases x <;> rfl

theorem fpSignBit_ofX (x : Bool) : fpSignBit (.ofX x) = if x then 0x8000000000000000#64 else 0x80000000#64 := by cases x <;> rfl

theorem floatMoves : FloatMoves := by
  intro s x n m v bits sign
  refine ⟨fun issues => ⟨?_, ?_, ?_⟩, fun issues => Does.of_work issues rfl ?_, fun issues => Does.of_work issues rfl ?_⟩
  · have negates := Does.fpMove issues (fun y => fpBits (.ofX x) y ^^^ fpSignBit (.ofX x)) (i := .fneg x n m) rfl
    rwa [fpBits_ofX, fpSignBit_ofX] at negates
  · have clears := Does.fpMove issues (fun y => fpBits (.ofX x) y &&& ~~~fpSignBit (.ofX x)) (i := .fabs x n m) rfl
    rwa [fpBits_ofX, fpSignBit_ofX] at clears
  · have copies := Does.fpMove issues (fun y => fpBits (.ofX x) y) (i := .fmov x n m) rfl
    rwa [fpBits_ofX] at copies
  · rw [State.commit_sees, State.setG_sees, fpBits_ofX, s.arrived_f, s.arrived_seen]
  · rw [State.commit_sees, State.setF_sees, fpBits_ofX, s.arrived_g, s.arrived_seen]

theorem withPrefix_ite (n : Nat) (p : Bool) : (if p then n + 1 else n) = withPrefix n p := by cases p <;> rfl

theorem floatConversions : FloatConversions := by
  intro s tz x n m v len r p
  have length : len = withPrefix 3 tz := withPrefix_ite 3 tz
  clear_value len
  subst length
  refine ⟨fun issues => ?_, fun issues => Does.of_work issues rfl ?_, fun issues => Does.of_work issues rfl ?_⟩
  · have source : Prec.ofX (!x) = if x then .single else .double := by cases x <;> rfl
    rw [source]
    exact Does.fpOp1 issues (fpCvt (if x then .single else .double) (rndOf tz)) rfl
  · dsimp only
    rw [State.commit_sees, State.sticky_sees, State.setG_sees, s.arrived_f, s.arrived_seen]
    rfl
  · dsimp only
    rw [State.commit_sees, State.sticky_sees, State.setF_sees, s.arrived_g, s.arrived_seen]
    rfl

/-- Settles O17: the moves by `Does.fpMove`, the conversions by `floatConversions`. -/
theorem floatMovesAndConversions : Obligations.FloatMovesAndConversions := ⟨floatMoves, floatConversions⟩

/-! ## Undefined forms (R264, R265, R291) -/

/-- A form that its checks refuse raises UNDEF. -/
theorem Does.refused {s : State} {i : Instr} {ok : Bool} {k : State} {len : Nat} {gs : List (Fin 32)} (issues : s.issues len gs [])
    (bad : ok = false) (exec : exec i s = .next (if ok then k else s.instr len gs [] State.undef)) :
    Does i s (s.trapped len cUNDEF 0#32 0#64) :=
  Does.trap issues (exec.trans (congrArg Host.Outcome.next (if_neg (bad ▸ Bool.false_ne_true)))) rfl

theorem viewOk_wide (n : Fin 32) : viewOk true n = decide (n.val < 16) := rfl

/-- Settles O25: each form is refused by its own check (`Does.refused`). -/
theorem undefinedFormsRaiseUndef : Obligations.UndefinedFormsRaiseUndef := by
  intro s wide sz d b a g h n trap
  refine ⟨fun issues => Does.trap issues rfl rfl, fun high => ⟨fun issues => ?_, fun issues => ?_⟩,
    fun small => ⟨fun issues => ?_, fun issues => ?_⟩,
    fun count issues => ?_, fun number issues => ?_, fun bits issues => ?_, fun control issues => ?_⟩
  · refine Does.refused issues (ok := true && viewOk true d && viewOk true b && viewOk true a) ?_ rfl
    simp only [viewOk_wide, Bool.true_and, Bool.and_eq_false_iff, decide_eq_false_iff_not]
    omega
  · refine Does.refused issues (ok := viewOk true d && viewOk true b && viewOk true a) ?_ rfl
    simp only [viewOk_wide, Bool.and_eq_false_iff, decide_eq_false_iff_not]
    omega
  · refine Does.refused issues (ok := fpSize sz && viewOk wide d && viewOk wide b && viewOk wide a) ?_ rfl
    simp [fpSize, small]
  · refine Does.refused issues (ok := fpSize sz && viewOk wide d && viewOk wide a) ?_ rfl
    simp [fpSize, small]
  · refine Does.refused issues (ok := decide (n.toNat < vWidth sz) && viewOk wide d && viewOk wide a) ?_ rfl
    simp [count]
  · refine Does.refused issues (ok := viewOk wide d && decide (n.toNat < viewBits wide / vWidth sz)) ?_ rfl
    simp [number]
  · exact Does.refused issues (ok := decide (1 ≤ n.toNat ∧ n.toNat ≤ 64)) (decide_eq_false (by omega)) rfl
  · exact Does.trap issues rfl (if_neg (by simpa [crcCtlOk] using control))

end Sys2Proof.Machine
end

section
/-! PROOF. System instructions (O31 to O33; R236, R246, R260, R261, R271 to R274, R281, R286, R287): special registers as parts of what software
sees, entries and returns, fences. -/

namespace Sys2Proof.Machine

/-! ## Special registers (R260, R261) -/

theorem State.readSr_sees (s : State) (r : SpecialReg) : s.readSr r = s.seen.sr s.tprog s.stamp r := by cases r <;> rfl

theorem State.writeSr_sees (s : State) (r : SpecialReg) (x : DWord) : (s.writeSr r x).seen = s.seen.putSr r x := by
  cases r with
  | flags =>
    have user : (s.pl == 0) = decide (flagPL s.seen.flags = 0#2) := by
      rw [Bool.eq_iff_iff, beq_iff_eq, decide_eq_true_iff, ← BitVec.toNat_inj, State.pl, State.flags_seen]
      rfl
    by_cases level : flagPL s.seen.flags = 0#2 <;> simp [State.writeSr, Seen.putSr, user, level, mtsrFlagsMask, State.flags_seen]
  | xip m | xflags m | xcause m | xaddr m | xbrc m => cases m <;> rfl
  | _ => rfl

theorem State.withSr_lets {n : Byte} {r : SpecialReg} {s : State} {write : Bool} (listed : specialReg n = some r)
    (may : write = true → srWritable r = true) (level : srLevel r ≤ s.pl) (k : SpecialReg → State) : s.withSr n write k = k r := by
  have writable : (write && !srWritable r) = false := by
    cases write with
    | true => rw [may rfl]; rfl
    | false => rfl
  rw [State.withSr, listed]
  dsimp only
  rw [writable, if_neg Bool.false_ne_true, if_neg (Nat.not_lt.mpr level)]

theorem State.flagsBusy_iff (s : State) (r : SpecialReg) : s.flagsBusy r = true ↔ r = .flags ∧ ∃ j ∈ s.cpu.div, j.fp = true := by
  simp [State.flagsBusy, Option.any_eq_true]

theorem srOfLoop_iff (r : SpecialReg) : srOfLoop r = true ↔ r ∈ [SpecialReg.brs, .bre, .brc] := by cases r <;> simp [srOfLoop]

/-- What MTSR leaves of a register that is neither a vector nor TID. -/
theorem State.moveToSr_sees {s : State} {r : SpecialReg} (ready : s.flagsBusy r = false) (x : DWord) :
    (if s.flagsBusy r then s else if srOfLoop r then (s.commit 5).writeSr r x else (s.writeSr r x).commit 5).seen
      = if r ∈ [SpecialReg.brs, .bre, .brc] then (s.seen.next 5).putSr r x else (s.seen.putSr r x).next 5 := by
  rw [ready, if_neg Bool.false_ne_true]
  by_cases loop : srOfLoop r = true
  · rw [if_pos loop, if_pos ((srOfLoop_iff r).mp loop), State.writeSr_sees, State.commit_sees]
  · rw [if_neg loop, if_neg (mt (srOfLoop_iff r).mpr loop), State.commit_sees, State.writeSr_sees]

theorem State.loadVector_sees {s : State} {k : Fin 6} {x : DWord} {p : Part} {ps : List Part}
    (fetched : (s.fetchLine (x &&& ~~~0x3F#64)).2 = .parts (p :: ps)) : (s.loadVector k x).seen = (s.seen.putSr (.vec k) x).next 5 := by
  rw [State.loadVector, fetched]
  dsimp only
  rw [State.commit_sees]
  exact congrArg (Seen.next · 5) ((State.writeSr_sees _ _ _).trans (congrArg (Seen.putSr · (.vec k) x) (s.fetchLine_frame _)))

section
variable {s : State} {g : GReg} {n : Byte} {r : SpecialReg} (listed : specialReg n = some r) (issues : s.issues 5 [g] []) (level : srLevel r ≤ s.pl)
include listed issues level

theorem Does.mfsr {v : Seen} (done : (if (s.arrived 5).flagsBusy r then s.arrived 5
    else ((s.arrived 5).setG g ((s.arrived 5).readSr r)).commit 5).seen = v) : Does (.mfsr g n) s v := by
  refine Does.of_work issues rfl ?_
  rwa [State.withSr_lets listed (by simp) (s.arrived_pl 5 ▸ level)]

theorem mtsr_does_vec {k : Fin 6} (vector : r = .vec k) {p : Part} {ps : List Part}
    (fetched : ((s.arrived 5).fetchLine (s.seen.readG g &&& ~~~0x3F#64)).2 = .parts (p :: ps)) :
    Does (.mtsr n g) s ((s.seen.putSr r (s.seen.readG g)).next 5) := by
  subst vector
  refine Does.of_work issues rfl ?_
  rw [State.withSr_lets listed (fun _ => rfl) (s.arrived_pl 5 ▸ level)]
  dsimp only
  rw [s.arrived_g, State.loadVector_sees fetched, s.arrived_seen]

theorem mtsr_does (writable : srWritable r = true) (ready : (s.arrived 5).flagsBusy r = false) (scalar : ∀ k, r ≠ .vec k) :
    Does (.mtsr n g) s (if r ∈ [SpecialReg.brs, .bre, .brc] then (s.seen.next 5).putSr r (s.seen.readG g)
      else (s.seen.putSr r (s.seen.readG g)).next 5) := by
  refine Does.of_work issues rfl ?_
  have other := State.moveToSr_sees ready (s.seen.readG g)
  rw [s.arrived_seen] at other
  rw [State.withSr_lets listed (fun _ => writable) (s.arrived_pl 5 ▸ level), s.arrived_g]
  cases r with
  | vec k => exact absurd rfl (scalar k)
  | tid =>
    rw [if_neg (by decide), ← s.arrived_seen 5, ← State.writeSr_sees]
    exact State.commit_sees _ 5
  | _ => exact other

theorem mtsr_waits (flags : r = .flags) (busy : (s.arrived 5).flagsBusy r = true) : Does (.mtsr n g) s s.seen := by
  subst flags
  refine Does.of_work issues rfl ?_
  rw [State.withSr_lets listed (fun _ => rfl) (s.arrived_pl 5 ▸ level)]
  dsimp only
  rw [if_pos busy, s.arrived_seen]

end

/-- Settles O31: MFSR and MTSR once their checks let them in (`State.withSr_lets`), a vector once its line has been fetched. -/
theorem specialRegistersReadAndWrite : Obligations.SpecialRegistersReadAndWrite := by
  intro s g n r listed issues level v u x busy
  have ready (idle : ¬busy) : u.flagsBusy r = false := Bool.eq_false_iff.mpr (mt (u.flagsBusy_iff r).mp idle)
  refine ⟨fun waits => ?_, fun idle => Does.mfsr listed issues level ?_,
    fun idle writable scalar => mtsr_does listed issues level writable (ready idle) scalar,
    fun k vector p ps fetched => mtsr_does_vec listed issues level vector fetched⟩
  · have waiting : u.flagsBusy r = true := (u.flagsBusy_iff r).mpr waits
    exact ⟨Does.mfsr listed issues level ((congrArg State.seen (if_pos waiting)).trans (s.arrived_seen 5)),
      mtsr_waits listed issues level waits.1 waiting⟩
  · rw [if_neg (by rw [ready idle]; exact Bool.false_ne_true), State.commit_sees, State.setG_sees, State.readSr_sees, s.arrived_seen]

/-! ## Entries and returns (R271, R286, R287) -/

theorem callsAndBreakEnterTheirHandler : CallsAndBreakEnterTheirHandler := by
  intro s issues
  exact ⟨Does.trap issues rfl rfl, Does.trap issues rfl rfl, Does.trap issues rfl rfl, by simp [State.causeToM, cFWCALL]⟩

theorem entryFlags_eq (f : DWord) (m : Bool) : entryFlags f m = (f &&& ~~~0xF00#64) ||| if m then 0x800#64 else 0x400#64 := by
  have cleared : f &&& ~~~0x100#64 &&& ~~~0x200#64 &&& ~~~0xC00#64 = f &&& ~~~0xF00#64 := by
    rw [BitVec.and_assoc, BitVec.and_assoc]
    rfl
  cases m <;> exact congrArg (· ||| _) cleared

theorem xcause_sync (lvl cause : Nat) : xcause false lvl cause 0#32 = w64 (cause * 2 ^ 40 + lvl * 2 ^ 48) :=
  congrArg w64 (by simp only [Bool.false_eq_true, if_false, BitVec.toNat_ofNat]; omega)

/-- What software sees after the exception of an instruction of two bytes, part by part. -/
theorem EntersLevel.of_does {i : Instr} {s : State} {m : Bool} {c : Nat} (level : (s.arrived 2).causeToM c = m)
    (traps : Does i s (s.trapped 2 c 0#32 0#64)) : EntersLevel i s m c := by
  obtain ⟨t, exec, sees⟩ := traps
  rw [State.trapped, level, xcause_sync] at sees
  refine ⟨t, exec, ?_⟩
  change t.seen.frameM = _ ∧ t.seen.frameS = _ ∧ t.seen.flags = _ ∧ t.seen.brc = _ ∧ t.seen.ip = _ ∧ _
  rw [sees, ← entryFlags_eq]
  cases m <;> exact ⟨rfl, rfl, rfl, rfl, rfl, rfl⟩

theorem State.eret_sees {s : State} {fr : Frame} (frame : (if s.pl = 2 then s.cpu.frameM else s.cpu.frameS) = fr)
    (level : (flagPL fr.xflags).toNat ≤ s.pl) : s.eret.seen = { s.seen with ip := fr.xip, flags := fr.xflags, brc := fr.xbrc } := by
  rw [State.eret, frame, if_neg (Nat.not_lt.mpr level)]
  exact State.endStep_seen _

theorem State.eret_priv {s : State} {fr : Frame} (frame : (if s.pl = 2 then s.cpu.frameM else s.cpu.frameS) = fr)
    (level : s.pl < (flagPL fr.xflags).toNat) : s.eret = s.except cPRIV 0#32 0#64 := by
  rw [State.eret, frame, if_pos level]

theorem State.arrived_frame (s : State) (len : Nat) : (if (s.arrived len).pl = 2 then (s.arrived len).cpu.frameM else (s.arrived len).cpu.frameS)
    = if s.pl = 2 then s.seen.frameM else s.seen.frameS := by
  rw [s.arrived_pl]
  exact congrArg (fun v : Seen => if s.pl = 2 then v.frameM else v.frameS) (s.arrived_seen len)

theorem State.notUser_lets {s : State} (h : s.pl ≠ 0) (k : State) : s.notUser k = k := if_neg h

theorem returnRestoresTheFrame : ReturnRestoresTheFrame := by
  intro s issues above v fr
  have lets : (s.arrived 2).pl ≠ 0 := by
    rw [s.arrived_pl]
    omega
  have frame := s.arrived_frame 2
  cases busy : (s.arrived 2).cpu.div.any fun j => j.fp with
  | true =>
    rw [if_pos rfl]
    refine Does.of_work issues rfl ?_
    rw [State.notUser_lets lets, State.flagsBusy, busy, if_pos (by decide), s.arrived_seen]
  | false =>
    have work : (s.arrived 2).notUser (if (s.arrived 2).flagsBusy .flags then s.arrived 2 else (s.arrived 2).eret) = (s.arrived 2).eret := by
      rw [State.notUser_lets lets, State.flagsBusy, busy, if_neg (by decide)]
    rw [if_neg Bool.false_ne_true]
    by_cases level : s.pl < (flagPL fr.xflags).toNat
    · rw [if_pos level]
      exact Does.trap issues rfl (work.trans (State.eret_priv frame ((s.arrived_pl 2).trans_lt level)))
    · rw [if_neg level]
      refine Does.of_work issues rfl ?_
      rw [work, State.eret_sees frame ((Nat.not_lt.mp level).trans_eq (s.arrived_pl 2).symm), s.arrived_seen]

theorem flagPL_toNat (f : DWord) : (flagPL f).toNat = f.toNat / 1024 % 4 := by
  rw [flagPL, BitVec.extractLsb'_toNat, Nat.shiftRight_eq_div_pow]

theorem callsAndReturnComplete : CallsAndReturnComplete := by
  intro s issues deleg m
  obtain ⟨syscall, fwcall, brk, toM⟩ := callsAndBreakEnterTheirHandler s issues
  have delegated (c : Nat) (other : (c == 0x0B) = false) : (s.arrived 2).causeToM c = m c := by
    rw [State.causeToM, s.arrived_pl, other, Bool.or_false]
  refine ⟨.of_does (delegated 0x0A rfl) syscall, .of_does (delegated 0x0C rfl) brk, .of_does toM fwcall, fun fr frame level idle => ?_⟩
  have above : 1 ≤ s.pl := by omega
  have chosen : (if s.pl = 2 then s.seen.frameM else s.seen.frameS) = fr := by
    rcases frame with ⟨top, rfl⟩ | ⟨one, rfl⟩
    · exact if_pos top
    · exact if_neg (by omega)
  have notBusy : (s.arrived 2).cpu.div.any (fun j => j.fp) = false := by
    refine Bool.eq_false_iff.mpr fun any => ?_
    obtain ⟨j, working, float⟩ := Option.any_eq_true _ _ |>.mp any
    exact Bool.false_ne_true ((idle j working).symm.trans float)
  obtain ⟨t, exec, sees⟩ := returnRestoresTheFrame s issues above
  rw [chosen, notBusy, if_neg Bool.false_ne_true, if_neg (by rw [flagPL_toNat]; omega)] at sees
  refine ⟨t, exec, ?_⟩
  change t.seen.ip = _ ∧ t.seen.flags = _ ∧ t.seen.brc = _ ∧ _
  rw [sees]
  exact ⟨rfl, rfl, rfl, rfl⟩

/-- Settles O32: each entry is the trap of its cause, taken apart by `EntersLevel.of_does`; ERET by `returnRestoresTheFrame`. -/
theorem handlersAreEnteredAndLeft : Obligations.HandlersAreEnteredAndLeft :=
  ⟨callsAndBreakEnterTheirHandler, callsAndReturnComplete, returnRestoresTheFrame⟩

/-! ## Fences, the user-access window, WFI (R272 to R274) -/

/-- Loading the entry lines again changes nothing that software sees. -/
theorem State.reloadLines_seen (s : State) (ns : List (Fin 6)) : (s.reloadLines ns).1.seen = s.seen := by
  induction ns generalizing s with
  | nil => rfl
  | cons n ns ih =>
    have line := s.fetchLine_frame s.cpu.vecs[n]
    rw [State.reloadLines]
    split
    · exact ih s
    · dsimp only
      split
      · exact (ih _).trans line
      · exact line
      · exact (ih _).trans line

/-- Settles O33: FENCE by `State.pushSb_sb`, IFENCE by `State.reloadLines_seen`, the others by what their commit leaves. -/
theorem fencesWindowsAndWait : Obligations.FencesWindowsAndWait := by
  intro s issues v
  refine ⟨fun room => Leaves.of_work issues rfl ?_, fun reloaded => Leaves.of_work issues rfl ?_, fun above => ?_⟩
  · rw [State.sbFull, if_neg (by simpa using room), State.commit_sees, State.pushSb_seen, s.arrived_seen, State.commit_sb]
    exact ⟨rfl, State.pushSb_sb _ _⟩
  · dsimp only
    rw [if_pos reloaded, State.commit_sees]
    have kept := fun t : State => t.commit_inFlight 2
    exact ⟨congrArg (Seen.next · 2) ((State.reloadLines_seen _ _).trans (s.arrived_seen 2)), congrArg InFlight.fetched (kept _),
      congrArg InFlight.fromLine (kept _)⟩
  · have lets : (s.arrived 2).pl ≠ 0 := by
      rw [s.arrived_pl]
      omega
    refine ⟨Does.of_work issues rfl ?_, Does.of_work issues rfl ?_, Leaves.of_work issues rfl ?_⟩
    · rw [State.notUser_lets lets, State.commit_sees, State.setFlags_sees, s.arrived_flags, s.arrived_seen]
      rfl
    · rw [State.notUser_lets lets, State.commit_sees, State.setFlags_sees, s.arrived_flags, s.arrived_seen]
      rfl
    · rw [State.notUser_lets lets]
      exact ⟨(State.commit_sees _ 2).trans (congrArg (Seen.next · 2) (s.arrived_seen 2)), rfl⟩

end Sys2Proof.Machine
end

section
/-! PROOF. Data of a load arrive from the scratchpad (O27; R233, R259, R267, R284, R290, R361). -/

namespace Sys2Proof.Machine

theorem State.setF_inFlight (s : State) (n : Fin 32) (v : DWord) : (s.setF n v).inFlight = s.inFlight := rfl

theorem State.setView_inFlight (s : State) (wide : Bool) (n : Fin 32) (v : VView) : (s.setView wide n v).inFlight = s.inFlight := by
  cases wide <;> rfl

theorem State.writeDest_inFlight (s : State) (d : LoadDest) (bs : List Byte) (bad : Bool) : (s.writeDest d bs bad).inFlight = s.inFlight := by
  cases d with
  | g n sgn => exact s.setG_inFlight n _
  | f n => rfl
  | v wide n => exact s.setView_inFlight wide n _
  | el wide n w k => exact s.setView_inFlight wide n _
  | crc n sel => exact s.setG_inFlight n _

theorem State.writeDest_sees (s : State) {d : LoadDest} (noCrc : ∀ n sel, d ≠ .crc n sel) (bs : List Byte) :
    (s.writeDest d bs false).seen = s.seen.loaded d bs := by
  cases d with
  | g n sgn => exact s.setG_sees n _
  | f n => rfl
  | v wide n => exact s.setView_sees wide n _
  | el wide n w k => exact s.setView_sees wide n _
  | crc n sel => exact absurd rfl (noCrc n sel)

/-- Jobs other than the one that was changed are still there once that one is gone. -/
theorem filter_modJob (id : Nat) {f : LoadJob → LoadJob} (keeps : ∀ j, (f j).id = j.id) (jobs : List LoadJob) :
    (jobs.map fun j => if j.id == id then f j else j).filter (fun j => j.id != id) = jobs.filter fun j => j.id != id := by
  induction jobs with
  | nil => rfl
  | cons j jobs ih =>
    rw [List.map_cons]
    by_cases same : j.id = id
    · rw [if_pos (beq_iff_eq.mpr same), List.filter_cons_of_neg (by simp [keeps, same]), List.filter_cons_of_neg (by simp [same]), ih]
    · rw [if_neg (by simpa using same), List.filter_cons_of_pos (by simpa using same), List.filter_cons_of_pos (by simpa using same), ih]

theorem find?_modJob {id : Nat} {f : LoadJob → LoadJob} (keeps : ∀ j, (f j).id = j.id) {jobs : List LoadJob} {job : LoadJob}
    (found : jobs.find? (fun j => j.id == id) = some job) :
    (jobs.map fun j => if j.id == id then f j else j).find? (fun j => j.id == id) = some (f job) := by
  have here : (job.id == id) = true := List.find?_some (p := fun j : LoadJob => j.id == id) found
  have test : ((fun j : LoadJob => j.id == id) ∘ fun j => if j.id == id then f j else j) = fun j => j.id == id := by
    funext j
    dsimp only [Function.comp]
    split
    · rw [keeps]
    · rfl
  rw [List.find?_map, test, found, Option.map_some, if_pos here]

/-- The last bytes that a load waits for end it: they go to its destination with those of older stores over them. -/
theorem State.deliver_last {s : State} {p : Piece} {job : LoadJob} (found : s.cpu.loads.find? (fun j => j.id == p.job) = some job)
    (last : job.missing = p.len) (bs : List Byte) : ∃ t : State, t.inFlight = { s.inFlight with loads := s.cpu.loads.filter fun j => j.id != p.job }
      ∧ t.seen = s.seen ∧ s.deliver p bs = t.writeDest job.dest
        (job.fwd.foldl (fun b f => putBytes b f.1 f.2) (putBytes job.bytes p.pos ((bs.drop p.off).take p.len))) job.bad := by
  have keeps (j : LoadJob) : ({ j with bytes := putBytes j.bytes p.pos ((bs.drop p.off).take p.len), missing := j.missing - p.len } : LoadJob).id
      = j.id := rfl
  have gone := filter_modJob p.job keeps s.cpu.loads
  refine ⟨{ s with cpu := { s.cpu with loads := s.cpu.loads.filter fun j => j.id != p.job } }, rfl, rfl, ?_⟩
  rw [State.deliver, State.settleLoad]
  simp only [State.modJob, find?_modJob keeps found, last, Nat.sub_self, if_true, gone, LoadJob.value]

theorem State.finishRead_clean (s : State) (u reader : Nat) (need : BitVec 4) {data : List Byte} (len : data.length = 32) :
    s.finishRead u reader false need (cleanMark u) 0#288 data = (s, data, false) := by
  rw [State.finishRead, decodeUnit_clean u len]
  simp

/-- A unit that no wrong bit has struck returns as it was read. -/
theorem State.spxData_clean {s : State} {r : SpxRead} {rest : List SpxRead} (reads : s.spx.reads = r :: rest) (activation : r.weight = false)
    (mark : r.mark = cleanMark r.unit) (up : s.unitDown r.unit = false) (len : r.data.length = 32) :
    ∃ t : State, t.inFlight = { s.inFlight with reads := rest } ∧ t.seen = s.seen ∧ s.spxData 0#288 = t.deliver r.piece r.data := by
  let u : State := { s with spx := { s.spx with reads := rest } }
  have down : u.unitDown r.unit = false := up
  have noFlips : r.mark.flips ^^^ 0#288 = 0#288 := by rw [mark, BitVec.xor_zero]; rfl
  refine ⟨if u.mark r.unit == r.mark && u.unitData r.unit == r.data then u.setMark (cleanMark r.unit) else u, ?_, ?_, ?_⟩
  · split <;> rfl
  · split <;> rfl
  · rw [State.spxData, reads]
    simp only [u, down, noFlips, activation, Bool.false_eq_true, if_false]
    rw [mark]
    exact congrArg (fun q : State × List Byte × Bool => if q.2.2 then _ else q.1.deliver r.piece q.2.1) (State.finishRead_clean _ r.unit 2 _ len)

/-- Settles O27: a clean unit returns as it was read (`State.spxData_clean`), and its bytes end the load (`State.deliver_last`). -/
theorem scratchpadDataReachesTheRegister : Obligations.ScratchpadDataReachesTheRegister := by
  intro s r rest job reads found last good noCrc activation mark up len bytes
  obtain ⟨t, flight, sees, returned⟩ := State.spxData_clean reads activation mark up len
  have loads : t.cpu.loads = s.cpu.loads := congrArg InFlight.loads flight
  obtain ⟨u, flight', sees', ends⟩ := State.deliver_last (s := t) (p := r.piece) (loads ▸ found) last r.data
  rw [good] at ends
  have written := (u.writeDest_inFlight job.dest (job.fwd.foldl (fun b f => putBytes b f.1 f.2) bytes) false).trans flight'
  refine ⟨_, congrArg Host.Outcome.next (returned.trans ends), ?_, ?_, ?_⟩
  · exact (congrArg InFlight.reads written).trans (congrArg InFlight.reads flight)
  · exact (congrArg InFlight.loads written).trans (loads ▸ rfl)
  · rw [State.writeDest_sees u noCrc, sees', sees]

end Sys2Proof.Machine
end

section
/-! PROOF. Loads of the own scratchpad and units of CRCSTEP.M (O26, O37; R233, R267, R276, R282, R298 to R300, R328): an access that goes through at
TR, the reads that its load waits for, what its commit shows. -/

namespace Sys2Proof.Machine

/-! ## An access at TR -/

theorem State.admits.atTR {s : State} {a : Acc} {store : Bool} {ps : List Part} (h : s.admits a store ps) (k : State → List Part → State) :
    s.atTR a store k = k (s.access a).1 ps := by
  obtain ⟨parts, noTile, noTrap, noEntry⟩ := h
  rw [State.atTR, parts]
  dsimp only
  rw [noTile, List.isEmpty_nil, Bool.not_true, if_neg Bool.false_ne_true, noTrap, if_neg Bool.false_ne_true, noEntry, if_neg Bool.false_ne_true]

theorem State.access_arrived_seen (s : State) (len : Nat) (a : Acc) : ((s.arrived len).access a).1.seen = s.seen :=
  (State.access_seen _ a).trans (s.arrived_seen len)

theorem State.memAcc_sees (s : State) (o : MemArgs) (kind size : Nat) (std : Bool) : s.memAcc o kind size std = s.seen.scalar o kind size std := rfl

theorem State.vmemAcc_sees (s : State) (o : VMemArgs) (wide : Bool) (kind : Nat) : s.vmemAcc o wide kind = s.seen.vectorAcc o wide kind := rfl

theorem State.elementAcc_sees (s : State) (wide : Bool) (sz : Fin 4) (b : GReg) (a : FReg) (sh : Byte) (chk : ArrayCheck) (kind k : Nat) :
    (⟨s.elemAddr wide sz b a sh.toNat k, vWidth sz / 8, kind, .v, false, chk.tlb, false, false, true⟩ : Acc)
      = s.seen.elementAcc wide sz b a sh chk kind k := rfl

/-! ## A load commits and waits for its bytes -/

theorem State.noteSlip_frame (s : State) (ps : List Part) : ∃ r f, s.noteSlip ps = { s with regs := r, fresh := f } := by
  unfold State.noteSlip State.slip
  split
  · split
    · dsimp only
      split <;> exact ⟨_, _, rfl⟩
    · exact ⟨s.regs, s.fresh, rfl⟩
  · exact ⟨s.regs, s.fresh, rfl⟩

/-- The read of one unit of the scratchpad for a piece of a load (R25). -/
def State.unitRead (s : State) (off : Nat) (pc : Piece) (x : Bool × Nat) : SpxRead :=
  let u := off / 32 + x.2
  let lo := max off (32 * u)
  let hi := min (off + pc.len) (32 * u + 32)
  ⟨⟨pc.job, pc.pos + (lo - off), lo - 32 * u, hi - lo⟩, u, s.unitData u, s.mark u, x.1⟩

theorem State.spxPieces_s2 {s : State} (s2 : s.build.s2 = true) (off : Nat) (wt : List Bool) (pc : Piece) : s.spxPieces off wt pc
    = ({ s with spx := { s.spx with reads := s.spx.reads ++ wt.zipIdx.map (s.unitRead off pc) } } : State).charge 5 wt.length := if_pos s2

theorem unitReads_weight (s : State) (off : Nat) (pc : Piece) (wt : List Bool) : (wt.zipIdx.map (s.unitRead off pc)).map (·.weight) = wt := by
  rw [List.map_map]
  exact List.zipIdx_map_fst 0 wt

theorem unitReads_unit (s : State) (off : Nat) (pc : Piece) (wt : List Bool) :
    (wt.zipIdx.map (s.unitRead off pc)).map (·.unit) = (List.range wt.length).map (off / 32 + ·) := by
  rw [List.map_map, List.range_eq_range', ← List.zipIdx_map_snd 0 wt, List.map_map]
  rfl

/-- What a committed load of one part of the own scratchpad leaves under way, `t` being the state after it and `u` before (`Awaits`). -/
def State.awaiting (u t : State) (d : LoadDest) (p : Part) (off : Nat) (wt : List Bool) : Prop :=
  ∃ job rs, t.cpu.loads = u.cpu.loads ++ [job] ∧ job.dest = d ∧ job.missing = p.len
    ∧ t.spx.reads = u.spx.reads ++ rs ∧ (∀ r ∈ rs, r.piece.job = job.id ∧ r.data = u.unitData r.unit ∧ r.mark = u.mark r.unit)
    ∧ if (p.device && u.cpu.sb.any fun e => olderTag e.tag u.cpu.ptag && e.kind.hasDevice) || (p.strict && u.deviceOut) then
        rs = [] ∧ t.cpu.m1.map (·.part) = [p]
      else t.cpu.m1 = [] ∧ rs.map (·.weight) = wt ∧ rs.map (·.unit) = (List.range wt.length).map (off / 32 + ·)

theorem State.awaiting_congr {u t t' : State} (flight : t'.inFlight = t.inFlight) {d : LoadDest} {p : Part} {off : Nat} {wt : List Bool}
    (h : u.awaiting t d p off wt) : u.awaiting t' d p off wt := by
  have loads : t'.cpu.loads = t.cpu.loads := congrArg InFlight.loads flight
  have m1 : t'.cpu.m1 = t.cpu.m1 := congrArg InFlight.m1 flight
  have reads : t'.spx.reads = t.spx.reads := congrArg InFlight.reads flight
  rw [State.awaiting, loads, m1, reads]
  exact h

/-- The one part of a load, M1 holding no older one: it waits there for device accesses, or its units are read. -/
theorem State.issueLoad_awaits {u : State} {p : Part} {off : Nat} {wt : List Bool} (target : p.tgt = .spx off wt) (s2 : u.build.s2 = true)
    (empty : u.cpu.m1 = []) (d : LoadDest) (nt : Bool) (chk : ArrayErr) :
    (u.issueLoad d [p] nt chk).seen = u.seen ∧ u.awaiting (u.issueLoad d [p] nt chk) d p off wt := by
  have bytes : partsLen [p] = p.len := Nat.zero_add p.len
  let job : LoadJob := ⟨u.cpu.nextJob, u.cpu.ptag, d, List.replicate p.len 0#8, p.len, false, forwarded u.cpu.sb 0 [p]⟩
  let m : M1Part := ⟨p, nt, chk, false, u.cpu.ptag, ⟨u.cpu.nextJob, 0, 0, p.len⟩⟩
  let queued : State := { u with cpu := { u.cpu with loads := u.cpu.loads ++ [job], nextJob := u.cpu.nextJob + 1, m1 := [m] } }
  have issued : u.issueLoad d [p] nt chk = (queued.noteSlip [p]).runM1 1 := by
    rw [State.issueLoad, empty, bytes]
    rfl
  obtain ⟨r, f, slipped⟩ := queued.noteSlip_frame [p]
  let alone : State := { queued with regs := r, fresh := f, cpu := { queued.cpu with m1 := [] } }
  have step : (queued.noteSlip [p]).runM1 1
      = match (alone.loadPart m).2 with
        | none => (alone.loadPart m).1
        | some m' => { (alone.loadPart m).1 with cpu := { (alone.loadPart m).1.cpu with m1 := [m'] } } := by
    rw [slipped]
    rfl
  have waits : alone.deviceWaits m
      = ((p.device && u.cpu.sb.any fun e => olderTag e.tag u.cpu.ptag && e.kind.hasDevice) || (p.strict && u.deviceOut)) := rfl
  rw [issued, step, State.awaiting, ← waits]
  cases held : alone.deviceWaits m with
  | true =>
    have stays : alone.loadPart m = (alone, some m) := if_pos held
    rw [stays]
    exact ⟨rfl, job, [], rfl, rfl, rfl, (List.append_nil _).symm, fun _ h => absurd h List.not_mem_nil, rfl, rfl⟩
  | false =>
    have read : alone.loadPart m = (alone.spxPieces off wt m.piece, none) := by
      rw [State.loadPart, held, if_neg Bool.false_ne_true]
      dsimp only
      rw [show m.part.tgt = .spx off wt from target]
    rw [read, State.spxPieces_s2 (s := alone) s2]
    refine ⟨rfl, job, wt.zipIdx.map (alone.unitRead off m.piece), rfl, rfl, rfl, rfl, fun x h => ?_, rfl, unitReads_weight alone off _ wt,
      unitReads_unit alone off _ wt⟩
    obtain ⟨y, -, rfl⟩ := List.mem_map.mp h
    exact ⟨rfl, rfl, rfl⟩

/-- An instruction whose work is a load that goes through at TR, with what its commit shows. -/
theorem Awaits.of_load {i : Instr} {s : State} {len : Nat} {gs fs : List (Fin 32)} {k : State → State} {a : Acc} {d : LoadDest} {nt : Bool}
    {chk : ArrayErr} {done : State → State} {v : Seen} {p : Part} {off : Nat} {wt : List Bool} (issues : s.issues len gs fs)
    (exec : exec i s = .next (s.instr len gs fs k)) (work : k (s.arrived len) = (s.arrived len).load a d nt chk done)
    (flight : ∀ t, (done t).inFlight = t.inFlight) (shows : ∀ t, t.seen = s.seen → (done t).seen = v) (target : p.tgt = .spx off wt)
    (admits : (s.arrived len).admits a false [p]) (s2 : ((s.arrived len).access a).1.build.s2 = true)
    (empty : ((s.arrived len).access a).1.cpu.m1 = []) : Awaits i s ((s.arrived len).access a).1 v d p off wt := by
  obtain ⟨sees, awaits⟩ := State.issueLoad_awaits target s2 empty d nt chk
  have runs : k (s.arrived len) = done (((s.arrived len).access a).1.issueLoad d [p] nt chk) := work.trans (admits.atTR _)
  exact Leaves.of_work issues exec (runs ▸ ⟨shows _ (sees.trans (s.access_arrived_seen len a)), State.awaiting_congr (flight _) awaits⟩)

/-! ## Scalar loads (R267) -/

theorem State.commit_of_seen {s t : State} (sees : t.seen = s.seen) (len : Nat) : (t.commit len).seen = s.seen.next len := by
  rw [State.commit_sees, sees]

theorem scalarLoadsReadTheScratchpad : ScalarLoadsReadTheScratchpad := by
  intro s o p off wt target s1 v awaits g
  have loaded {i : Instr} {gs fs : List (Fin 32)} {size : Nat} {d : LoadDest} {k : State → State}
      (exec : exec i s = .next (s.instr (memLen o) gs fs k))
      (work : k s1 = s1.load (v.scalar o 0 size false) d o.nt o.chk.cache fun t => t.commit (memLen o)) : awaits i gs fs size d :=
    fun issues admits s2 empty => Awaits.of_load issues exec work (State.commit_inFlight · _) (fun _ sees => State.commit_of_seen sees _) target
      admits s2 empty
  have loadG {i : Instr} (size : Nat) (sgn : Bool) (exec : exec i s = .next (s.loadG o size sgn)) : awaits i g [] size (.g o.d sgn) :=
    loaded exec (by rw [State.memAcc_sees, s.arrived_seen])
  have loadF {i : Instr} (size : Nat) (exec : exec i s = .next (s.loadF o size)) : awaits i [o.b, o.a] [o.d] size (.f o.d) :=
    loaded exec (by rw [State.memAcc_sees, s.arrived_seen])
  exact ⟨loadG 1 false rfl, loadG 1 true rfl, loadG 2 false rfl, loadG 2 true rfl, loadG 4 false rfl, loadG 4 true rfl, loadG 8 false rfl,
    loadF 8 rfl, loadF 4 rfl⟩

/-! ## Vector loads (R298 to R300) -/

theorem State.vissues_one {s : State} {len : Nat} {gs : List (Fin 32)} {wide : Bool} {n : FReg} (h : s.vissues len gs [(wide, n)]) :
    viewOk wide n = true ∧ s.issues len gs (viewList wide n) := by
  obtain ⟨ok, issues⟩ := h
  rw [List.flatMap_cons, List.flatMap_nil, List.append_nil] at issues
  exact ⟨ok _ (List.mem_singleton.mpr rfl), issues⟩

theorem State.elemDone_inFlight (s : State) (wide : Bool) (sz : Fin 4) (k : Nat) : (s.elemDone wide sz k).inFlight = s.inFlight := by
  unfold State.elemDone
  split
  · exact State.commitUnit_inFlight _
  · exact State.commit_inFlight _ _

theorem State.elemDone_sees {s t : State} (sees : t.seen = s.seen) (wide : Bool) (sz : Fin 4) (k : Nat) : (t.elemDone wide sz k).seen
    = if k + 1 < viewBits wide / vWidth sz then { s.seen with veidx := w64 (k + 1) } else Seen.next { s.seen with veidx := 0#64 } (vLen 5 wide) := by
  rw [← sees, State.elemDone]
  split
  · exact State.commitUnit_seen _
  · exact State.commit_sees _ _

/-- An element that VEIDX names is within the view. -/
theorem State.element_within {s : State} {wide : Bool} {sz : Fin 4} {j : Nat} (index : s.cpu.veidx.toNat = j) (within : j < viewBits wide / vWidth sz)
    (k : State → Nat → State) : s.element wide sz k = k s j := by
  rw [State.element, index]
  exact if_neg (Nat.not_le.mpr within)

theorem State.arrived_veidx (s : State) (len : Nat) : (s.arrived len).cpu.veidx = s.seen.veidx := congrArg Seen.veidx (s.arrived_seen len)

theorem vectorLoadsReadTheScratchpad : VectorLoadsReadTheScratchpad := by
  intro s wide p off wt target v
  constructor
  · intro o len
    have length : len = vLen 6 wide := withPrefix_ite 6 wide
    clear_value len
    subst length
    intro acc u issues admits s2 empty
    obtain ⟨ok, issues⟩ := State.vissues_one issues
    exact Awaits.of_load issues (congrArg Host.Outcome.next (if_pos ok))
      (by rw [State.vmemAcc_sees, s.arrived_seen])
      (State.commit_inFlight · _) (fun _ sees => State.commit_of_seen sees _) target admits s2 empty
  · intro sz d b a sh chk len
    have length : len = vLen 5 wide := withPrefix_ite 5 wide
    clear_value len
    subst length
    intro k n c u issues okD scale apart free within admits s2 empty
    obtain ⟨okA, issues⟩ := State.vissues_one issues
    have ok : (viewOk wide d && viewOk wide a && decide (sh.toNat ≤ 3) && !(viewRegs wide d).any fun n => (viewRegs wide a).contains n) = true := by
      simpa [okD, okA, scale] using apart
    refine Awaits.of_load (nt := false) (chk := chk.cache) issues (congrArg Host.Outcome.next (if_pos ok)) ?_ (State.elemDone_inFlight · wide sz k)
      (fun _ sees => State.elemDone_sees sees wide sz k) target admits s2 empty
    rw [free, if_neg Bool.false_ne_true, State.element_within (congrArg BitVec.toNat (s.arrived_veidx _)) within,
      State.elementAcc_sees, s.arrived_seen]

/-- Settles O26: each load by `Awaits.of_load` with its address and what its commit shows. -/
theorem loadsReadTheScratchpad : Obligations.LoadsReadTheScratchpad := ⟨scalarLoadsReadTheScratchpad, vectorLoadsReadTheScratchpad⟩

/-! ## CRCSTEP.M (R276, R282) -/

theorem State.unitDone_sees (s : State) (rep : Bool) (len : Nat) : (s.unitDone rep len).seen = s.seen.unitDone rep len := by
  cases rep with
  | false => exact (s.commit_sees len).trans (if_neg (by simp)).symm
  | true =>
    by_cases last : s.seen.readG 6 = 0#64
    · have more : ¬(s.g 6 != 0#64) = true := by simpa [State.g_seen] using last
      rw [State.unitDone, Bool.not_true, if_neg Bool.false_ne_true, if_neg more, Seen.unitDone, if_neg (by simp [last])]
      exact s.commit_sees len
    · have more : (s.g 6 != 0#64) = true := by simpa [State.g_seen] using last
      rw [State.unitDone, Bool.not_true, if_neg Bool.false_ne_true, if_pos more, Seen.unitDone, if_pos ⟨rfl, last⟩]
      exact s.commitRepUnit_seen

theorem State.unitDone_inFlight (s : State) (rep : Bool) (len : Nat) : (s.unitDone rep len).inFlight = s.inFlight := by
  unfold State.unitDone
  split
  · exact s.commit_inFlight len
  · split
    · exact s.commitUnit_inFlight
    · exact s.commit_inFlight len

/-- Settles O37: with bytes to go it is a load (`Awaits.of_load`), whose commit moves G4 and G6. -/
theorem crcStepReadsMemory : Obligations.CrcStepReadsMemory := by
  intro s rep d c small v len n issues
  have control : ¬(!crcCtlOk c) = true := by simpa [crcCtlOk] using small
  have bytes : min ((s.arrived len).g 6).toNat (crcWidth c) = n := congrArg (fun x : DWord => min x.toNat (crcWidth c)) (s.arrived_g len 6)
  constructor
  · intro nothing
    refine Does.of_work issues rfl ?_
    rw [if_neg control, if_pos ((s.arrived_g len 6).trans nothing)]
    exact State.commit_of_seen (s.arrived_seen len) len
  · intro p off wt target a u more admits s2 empty
    refine Awaits.of_load (nt := false) (chk := .ok) (done := fun t => ((t.setG 4 (t.g 4 + w64 n)).setG 6 (t.g 6 - w64 n)).unitDone rep len)
      issues rfl ?_ ?_ ?_ target admits s2 empty
    · dsimp only
      rw [if_neg control, if_neg ((s.arrived_g len 6).trans_ne more), bytes, s.arrived_g]
      rfl
    · intro t
      rw [State.unitDone_inFlight, State.setG_inFlight, State.setG_inFlight]
    · intro t sees
      rw [State.unitDone_sees, State.setG_sees, State.setG_sees, State.g_seen, State.g_seen, sees]

end Sys2Proof.Machine
end

section
/-! PROOF. Stores and units of the move engine (O28, O36; R215, R219, R237, R267, R276 to R279, R298, R299): what enters the store buffer, and
what the commit shows. -/

namespace Sys2Proof.Machine

/-! ## What a store puts into the store buffer -/

theorem State.storeChecks_cpu (s : State) (chk : ArrayErr) (ps : List Part) : (s.storeChecks chk ps).cpu = s.cpu := by
  unfold State.storeChecks
  induction ps generalizing s with
  | nil => rfl
  | cons p ps ih =>
    rw [List.foldl_cons, ih]
    split <;> rfl

/-- The entry of the committing instruction stands last, with its tag; nothing that software sees changes. -/
theorem State.pushSb_entry {s t : State} (cpu : (t.cpu.sb, t.cpu.ptag) = (s.cpu.sb, s.cpu.ptag)) (k : SbKind) :
    ∃ e, (t.pushSb k).cpu.sb = s.cpu.sb ++ [e] ∧ e.kind = k ∧ e.waiting = false ∧ e.tag = s.cpu.ptag := by
  obtain ⟨sb, ptag⟩ := Prod.mk.inj cpu
  exact ⟨⟨t.cpu.ptag, t.reqTid, k, false⟩, sb ▸ rfl, rfl, rfl, ptag⟩

theorem State.noteSlip_cpu (s : State) (ps : List Part) : (s.noteSlip ps).cpu = s.cpu := by
  obtain ⟨r, f, slipped⟩ := s.noteSlip_frame ps
  rw [slipped]

theorem State.storeHits_sb (s : State) (ps qs : List Part) :
    (((s.noteSlip ps).storeHits qs).cpu.sb, ((s.noteSlip ps).storeHits qs).cpu.ptag) = (s.cpu.sb, s.cpu.ptag) := by
  change ((s.noteSlip ps).cpu.sb, (s.noteSlip ps).cpu.ptag) = _
  rw [s.noteSlip_cpu ps]

/-- The state in which a store stands in the store buffer before its instruction commits. -/
def State.buffering (u : State) (ps : List Part) (bs : List Byte) (nt : Bool) (chk : ArrayErr) : State :=
  (((if chk = .ok then u else u.storeChecks chk ps).noteSlip ps).storeHits ps).pushSb (.store (overParts ps bs) nt)

theorem State.buffering_seen (u : State) (ps : List Part) (bs : List Byte) (nt : Bool) (chk : ArrayErr) :
    (u.buffering ps bs nt chk).seen = u.seen := by
  rw [State.buffering, State.pushSb_seen, State.storeHits_seen, State.noteSlip_seen]
  split
  · rfl
  · exact u.storeChecks_seen chk ps

theorem State.buffering_entry (u : State) (ps : List Part) (bs : List Byte) (nt : Bool) (chk : ArrayErr) :
    ∃ e, (u.buffering ps bs nt chk).cpu.sb = u.cpu.sb ++ [e] ∧ e.kind = .store (overParts ps bs) nt ∧ e.waiting = false
      ∧ e.tag = u.cpu.ptag := by
  refine State.pushSb_entry ((State.storeHits_sb _ ps ps).trans ?_) _
  split
  · rfl
  · rw [u.storeChecks_cpu]

theorem State.sbFull_of_room {s : State} (room : s.cpu.sb.length < 8) : s.sbFull = false := decide_eq_false (Nat.not_le.mpr room)

section
variable {s : State} {a : Acc} {ps : List Part} {bs : List Byte} (admits : s.admits a true ps)
include admits

theorem State.store_buffers (later : (s.access a).1.storeAtOnce ps bs = none) (room : (s.access a).1.cpu.sb.length < 8) (nt : Bool) (chk : ArrayErr)
    (done : State → State) : s.store a bs nt chk done = done ((s.access a).1.buffering ps bs nt chk) := by
  rw [State.store, admits.atTR, later]
  exact if_neg (by rw [State.sbFull_of_room room]; exact Bool.false_ne_true)

/-- A register write that takes effect at once finds nothing that it has to wait for. -/
theorem State.store_writes {off : Nat} {y : Word} (now : (s.access a).1.storeAtOnce ps bs = some (off, y)) (noStore : (s.access a).1.cpu.sb = [])
    (noLoad : (s.access a).1.cpu.m1 = []) (noDevice : (s.access a).1.deviceOut = false) (noWait : (s.access a).1.writeWaits .local off y = false)
    (nt : Bool) (chk : ArrayErr) (done : State → State) : s.store a bs nt chk done = (done (s.access a).1).writeReg .local off y := by
  rw [State.store, admits.atTR, now]
  exact if_neg (by simp [noStore, noLoad, noDevice, noWait])

end

/-- An instruction whose work is a store that goes through at TR, with what its commit shows. -/
theorem Buffered.of_store {i : Instr} {s : State} {len : Nat} {gs fs : List (Fin 32)} {k : State → State} {a : Acc} {nt : Bool} {chk : ArrayErr}
    {done : State → State} {v : Seen} {ps : List Part} {bs : List Byte} (issues : s.issues len gs fs)
    (exec : exec i s = .next (s.instr len gs fs k)) (work : k (s.arrived len) = (s.arrived len).store a bs nt chk done)
    (flight : ∀ t, (done t).inFlight = t.inFlight) (shows : ∀ t, t.seen = s.seen → (done t).seen = v)
    (admits : (s.arrived len).admits a true ps)
    (later : ((s.arrived len).access a).1.storeAtOnce ps bs = none) (room : ((s.arrived len).access a).1.cpu.sb.length < 8) :
    Buffered i s ((s.arrived len).access a).1 v ps bs nt := by
  refine Leaves.of_work issues exec ?_
  rw [work, State.store_buffers admits later room]
  have kept : (done (((s.arrived len).access a).1.buffering ps bs nt chk)).cpu.sb = _ := congrArg InFlight.sb (flight _)
  rw [kept]
  exact ⟨shows _ ((State.buffering_seen _ ps bs nt chk).trans (s.access_arrived_seen len a)), State.buffering_entry _ ps bs nt chk⟩

/-! ## Scalar stores (R267) -/

theorem scalarStoresEnterTheStoreBuffer : ScalarStoresEnterTheStoreBuffer := by
  intro s o ps s1 v buffered written stores g x
  have stored {i : Instr} {gs fs : List (Fin 32)} {size : Nat} {std : Bool} {x : DWord} {k : State → State}
      (exec : exec i s = .next (s.instr (memLen o) gs fs k))
      (work : k s1 = s1.store (v.scalar o 1 size std) (leBytes x.toNat size) o.nt o.chk.cache fun t => t.commit (memLen o)) :
      stores i gs fs size std x := by
    refine ⟨fun issues admits later room => ?_, fun off y issues admits now noStore noLoad noDevice noWait => ?_⟩
    · exact Buffered.of_store issues exec work (State.commit_inFlight · _) (fun _ sees => State.commit_of_seen sees _) admits later room
    · rw [exec, s.instr_issues _ _ _ _ issues]
      exact congrArg Host.Outcome.next (work.trans (State.store_writes admits now noStore noLoad noDevice noWait _ _ _))
  have storeG {i : Instr} (size : Nat) (std : Bool) (exec : exec i s = .next (s.storeG o size std)) : stores i g [] size std x :=
    stored exec (by rw [State.memAcc_sees, State.g_seen, s.arrived_seen])
  have storeF {i : Instr} (size : Nat) (exec : exec i s = .next (s.storeF o size)) : stores i [o.b, o.a] [o.d] size false (v.readF o.d) :=
    stored exec (by rw [State.memAcc_sees, State.f_seen, s.arrived_seen])
  exact ⟨storeG 1 false rfl, storeG 2 false rfl, storeG 4 false rfl, storeG 8 true rfl, storeF 8 rfl, storeF 4 rfl⟩

/-! ## Vector stores (R298, R299) -/

theorem State.vissues_two {s : State} {len : Nat} {gs : List (Fin 32)} {wide : Bool} {n m : FReg} (h : s.vissues len gs [(wide, n), (wide, m)]) :
    viewOk wide n = true ∧ viewOk wide m = true ∧ s.issues len gs (viewList wide n ++ viewList wide m) := by
  obtain ⟨ok, issues⟩ := h
  rw [List.flatMap_cons, List.flatMap_cons, List.flatMap_nil, List.append_nil] at issues
  exact ⟨ok _ List.mem_cons_self, ok _ (List.mem_cons_of_mem _ List.mem_cons_self), issues⟩

theorem vectorStoresEnterTheStoreBuffer : VectorStoresEnterTheStoreBuffer := by
  intro s wide ps v
  constructor
  · intro o len
    have length : len = vLen 6 wide := withPrefix_ite 6 wide
    clear_value len
    subst length
    intro acc u bs issues admits later room
    obtain ⟨ok, issues⟩ := State.vissues_one issues
    refine Buffered.of_store (chk := o.chk.cache) issues (congrArg Host.Outcome.next (if_pos ok)) ?_
      (State.commit_inFlight · _) (fun _ sees => State.commit_of_seen sees _) admits later room
    rw [State.vmemAcc_sees, State.view_seen, s.arrived_seen]
    rfl
  · intro sz d b a sh chk len
    have length : len = vLen 5 wide := withPrefix_ite 5 wide
    clear_value len
    subst length
    intro k n c u bs issues scale within admits later room
    obtain ⟨okD, okA, issues⟩ := State.vissues_two issues
    have ok : (viewOk wide d && viewOk wide a && decide (sh.toNat ≤ 3)) = true := by simp [okD, okA, scale]
    refine Buffered.of_store (chk := chk.cache) issues (congrArg Host.Outcome.next (if_pos ok)) ?_
      (State.elemDone_inFlight · wide sz k) (fun _ sees => State.elemDone_sees sees wide sz k) admits later room
    rw [State.element_within (congrArg BitVec.toNat (s.arrived_veidx _)) within, State.elementAcc_sees, State.view_seen, s.arrived_seen]

/-- Settles O28: each store by `Buffered.of_store`, or by `State.store_writes` where it writes a register at once. -/
theorem storesEnterTheStoreBuffer : Obligations.StoresEnterTheStoreBuffer := ⟨scalarStoresEnterTheStoreBuffer, vectorStoresEnterTheStoreBuffer⟩

/-! ## Units of the move engine (R276 to R279) -/

theorem State.admitsUnit.unitAtTR {s : State} {src dst : List Acc} {ps qs : List Part} (h : s.admitsUnit src dst ps qs)
    (k : State → List Part → List Part → State) : s.unitAtTR src dst k = k ((s.accessAll src).1.accessAll dst).1 ps qs := by
  obtain ⟨sources, destinations, noTile, noTrap⟩ := h
  rw [State.unitAtTR]
  dsimp only
  rw [sources, destinations]
  dsimp only [joinOut]
  rw [noTile, List.isEmpty_nil, Bool.not_true, if_neg Bool.false_ne_true, noTrap, if_neg Bool.false_ne_true]

theorem State.admitsUnit.fillAtTR {s : State} {dst : List Acc} {qs : List Part} (h : s.admitsUnit [] dst [] qs)
    (k : State → List Part → List Part → State) : s.unitAtTR [] dst k = k (s.accessAll dst).1 [] qs := h.unitAtTR k

theorem State.admitsUnit.sendAtTR {s : State} {src : List Acc} {ps : List Part} (h : s.admitsUnit src [] ps [])
    (k : State → List Part → List Part → State) : s.unitAtTR src [] k = k (s.accessAll src).1 ps [] := h.unitAtTR k

theorem State.units_arrived_seen (s : State) (len : Nat) (src dst : List Acc) :
    (((s.arrived len).accessAll src).1.accessAll dst).1.seen = s.seen := by
  rw [State.accessAll_seen, State.accessAll_seen, s.arrived_seen]

theorem State.arrived_blockUnit (s : State) (len : Nat) :
    (s.arrived len).blockUnit = min (s.seen.readG 6).toNat (64 - (s.seen.readG 5).toNat % 64) := by
  rw [State.blockUnit, s.arrived_g, s.arrived_g]

/-- A string instruction with nothing to do goes on. -/
theorem Does.noUnit {i : Instr} {s : State} {len : Nat} {gs : List (Fin 32)} {k : State → State} (issues : s.issues len gs [])
    (nothing : s.seen.readG 6 = 0#64) (exec : exec i s = .next (s.instr len gs [] fun u => if u.g 6 = 0#64 then u.commit len else k u)) :
    Does i s (s.seen.next len) := by
  refine Does.of_work issues exec ?_
  rw [s.arrived_g, if_pos nothing]
  exact State.commit_of_seen (s.arrived_seen len) len

theorem State.unitDone_sb (s : State) (rep : Bool) (len : Nat) : (s.unitDone rep len).cpu.sb = s.cpu.sb :=
  congrArg InFlight.sb (s.unitDone_inFlight rep len)

theorem State.setG_sb (s : State) (n : Fin 32) (x : DWord) : (s.setG n x).cpu.sb = s.cpu.sb := congrArg InFlight.sb (s.setG_inFlight n x)

theorem outsideAt_none {ps : List Part} (inside : ∀ p ∈ ps, p.outside = false) (pos : Nat) : outsideAt pos ps = none := by
  induction ps generalizing pos with
  | nil => rfl
  | cons p ps ih =>
    rw [outsideAt, inside p List.mem_cons_self, if_neg Bool.false_ne_true]
    exact ih (fun q h => inside q (List.mem_cons_of_mem p h)) _

theorem bcopy_commits {s : State} {nt rep : Bool} {n : Nat} {ps qs : List Part}
    (count : n = min (s.seen.readG 6).toNat (64 - (s.seen.readG 5).toNat % 64))
    (more : s.seen.readG 6 ≠ 0#64) (issues : s.issues (stringLen 2 rep nt) [4, 5, 6] []) :
    let v := s.seen
    let src := unitPieces (v.readG 4) 0 (misplaced [v.readG 4, v.readG 5] n) 2 n
    let dst := unitPieces (v.readG 5) 1 (misplaced [v.readG 4, v.readG 5] n) 1 n
    let u := (((s.arrived (stringLen 2 rep nt)).accessAll src).1.accessAll dst).1
    (s.arrived (stringLen 2 rep nt)).admitsUnit src dst ps qs → u.cpu.sb.length < 8 → Leaves (.bcopy nt rep) s fun t =>
      t.seen = (((v.putG 4 (v.readG 4 + w64 n)).putG 5 (v.readG 5 + w64 n)).putG 6 (v.readG 6 - w64 n)).unitDone rep (stringLen 2 rep nt)
        ∧ ∃ e, t.cpu.sb = u.cpu.sb ++ [e] ∧ e.kind = .copy ps qs nt [] := by
  intro v src dst u admits room
  refine Leaves.of_work issues rfl ?_
  have full : ¬u.sbFull = true := ne_true_of_eq_false (State.sbFull_of_room room)
  have sees : u.seen = v := s.units_arrived_seen _ src dst
  rw [s.arrived_g, if_neg more]
  dsimp only
  rw [s.arrived_blockUnit, ← count, s.arrived_g, s.arrived_g, admits.unitAtTR, if_neg full]
  constructor
  · rw [State.unitDone_sees, State.setG_sees, State.setG_sees, State.setG_sees, State.g_seen, State.g_seen, State.g_seen, State.pushSb_seen,
      State.storeHits_seen, State.noteSlip_seen, sees]
  · rw [State.unitDone_sb, State.setG_sb, State.setG_sb, State.setG_sb]
    obtain ⟨e, last, kind, -⟩ := State.pushSb_entry (u.storeHits_sb (ps ++ qs) qs) (.copy ps qs nt [])
    exact ⟨e, last, kind⟩

theorem bfill_commits {s : State} {nt rep : Bool} {n : Nat} {qs : List Part}
    (count : n = min (s.seen.readG 6).toNat (64 - (s.seen.readG 5).toNat % 64))
    (more : s.seen.readG 6 ≠ 0#64) (issues : s.issues (stringLen 2 rep nt) [5, 6, 7] []) :
    let v := s.seen
    let dst := unitPieces (v.readG 5) 1 (misplaced [v.readG 5] n) 1 n
    let u := ((s.arrived (stringLen 2 rep nt)).accessAll dst).1
    (s.arrived (stringLen 2 rep nt)).admitsUnit [] dst [] qs → u.cpu.sb.length < 8 → Leaves (.bfill nt rep) s fun t =>
      t.seen = ((v.putG 5 (v.readG 5 + w64 n)).putG 6 (v.readG 6 - w64 n)).unitDone rep (stringLen 2 rep nt)
        ∧ ∃ e, t.cpu.sb = u.cpu.sb ++ [e] ∧ e.kind = .fill qs (fillBytes (v.readG 5) (v.readG 7) n) nt := by
  intro v dst u admits room
  refine Leaves.of_work issues rfl ?_
  have full : ¬u.sbFull = true := ne_true_of_eq_false (State.sbFull_of_room room)
  have sees : u.seen = v := (State.accessAll_seen _ dst).trans (s.arrived_seen _)
  have bytes : fillBytes (u.g 5) (u.g 7) n = fillBytes (v.readG 5) (v.readG 7) n := by rw [State.g_seen, State.g_seen, sees]
  rw [s.arrived_g, if_neg more]
  dsimp only
  rw [s.arrived_blockUnit, ← count, s.arrived_g, admits.fillAtTR, if_neg full]
  constructor
  · have entered (k : SbKind) : (((u.noteSlip qs).storeHits qs).pushSb k).seen = v := by
      rw [State.pushSb_seen, State.storeHits_seen, State.noteSlip_seen, sees]
    rw [State.unitDone_sees, State.setG_sees, State.setG_sees]
    exact congrArg (fun v : Seen => ((v.putG 5 (v.readG 5 + w64 n)).putG 6 (v.readG 6 - w64 n)).unitDone rep (stringLen 2 rep nt)) (entered _)
  · rw [State.unitDone_sb, State.setG_sb, State.setG_sb]
    obtain ⟨e, last, kind, -⟩ := State.pushSb_entry (u.storeHits_sb qs qs) (.fill qs (fillBytes (u.g 5) (u.g 7) n) nt)
    exact ⟨e, last, kind.trans (congrArg (SbKind.fill qs · nt) bytes)⟩

/-- A unit of MOVT that is handed over: its entry, and the registers as it commits. -/
theorem State.movtUnit_leaves (s : State) (rep : Bool) (n : Nat) (ps : List Part) :
    let v := s.seen
    let t := s.movtUnit rep n ps
    t.seen = (((v.putG 4 (v.readG 4 + w64 n)).putG 5 (nextTaw (v.readG 5) n)).putG 6 (v.readG 6 - w64 n)).unitDone rep (stringLen 2 rep false)
      ∧ ∃ e, t.cpu.sb = s.cpu.sb ++ [e] ∧ e.kind = .movt ps (v.readG 5) (s.cpu.movtStamp.getD s.stamp) s.bell.unsync := by
  intro v t
  let entered : State := ({ s with cpu := { s.cpu with movtStamp := some (s.cpu.movtStamp.getD s.stamp) } } : State).pushSb
    (.movt ps (s.g 5) (s.cpu.movtStamp.getD s.stamp) s.bell.unsync)
  let dropped : State := if s.bell.unsync then
      entered.raiseErr pTALLY ⟨8, (s.g 5).toNat / 2 ^ 26 % 64, entered.stamp, (hi32 (s.g 5)).setWidth 64⟩ else entered
  have commits : t = (((dropped.setG 4 (dropped.g 4 + w64 n)).setG 5 (nextTaw (s.g 5) n)).setG 6 (dropped.g 6 - w64 n)).unitDone rep
      (stringLen 2 rep false) := rfl
  have sees : dropped.seen = v := by
    dsimp only [dropped]
    split
    · exact State.raiseErr_seen _ _ _
    · rfl
  have stores : dropped.cpu.sb = entered.cpu.sb := by
    dsimp only [dropped]
    split
    · exact congrArg Prod.snd (State.raiseErr_tileAndStores _ _ _)
    · rfl
  rw [commits]
  constructor
  · rw [State.unitDone_sees, State.setG_sees, State.setG_sees, State.setG_sees, State.g_seen, State.g_seen, State.g_seen, sees]
  · rw [State.unitDone_sb, State.setG_sb, State.setG_sb, State.setG_sb, stores]
    exact State.pushSb_sb _ _

theorem movt_commits {s : State} {rep : Bool} {n : Nat} {ps : List Part}
    (count : n = min (s.seen.readG 6).toNat (256 - (s.seen.readG 5).toNat % 256))
    (more : s.seen.readG 6 ≠ 0#64) (issues : s.issues (stringLen 2 rep false) [4, 5, 6] []) :
    let v := s.seen
    let src := unitPieces (v.readG 4) 0 (misplaced [v.readG 4] n) 5 n
    let u := ((s.arrived (stringLen 2 rep false)).accessAll src).1
    (s.arrived (stringLen 2 rep false)).admitsUnit src [] ps [] → u.cpu.sb.length < 8 → (∀ p ∈ ps, p.outside = false) →
      (v.readG 5).toNat / 2 ^ 21 % 32 = 0 → Leaves (.movt rep) s fun t =>
      t.seen = (((v.putG 4 (v.readG 4 + w64 n)).putG 5 (nextTaw (v.readG 5) n)).putG 6 (v.readG 6 - w64 n)).unitDone rep (stringLen 2 rep false)
        ∧ ∃ e st, t.cpu.sb = u.cpu.sb ++ [e] ∧ e.kind = .movt ps (v.readG 5) st u.bell.unsync ∧ st = u.cpu.movtStamp.getD u.stamp := by
  intro v src u admits room inside range
  refine Leaves.of_work issues rfl ?_
  have sees : u.seen = v := (State.accessAll_seen _ src).trans (s.arrived_seen _)
  have full : ¬u.sbFull = true := ne_true_of_eq_false (State.sbFull_of_room room)
  have inRange : ¬(u.g 5).toNat / 2 ^ 21 % 32 ≠ 0 := by
    rw [State.g_seen, sees]
    exact not_not_intro range
  obtain ⟨shows, e, last, kind⟩ := (u.noteSlip ps).movtUnit_leaves rep n ps
  obtain ⟨r, f, slipped⟩ := u.noteSlip_frame ps
  rw [State.noteSlip_seen, sees] at shows kind
  rw [s.arrived_g, if_neg more]
  dsimp only
  rw [s.arrived_g, s.arrived_g, ← count, admits.sendAtTR, outsideAt_none inside]
  dsimp only
  rw [if_neg inRange, if_neg full]
  refine ⟨shows, e, _, last.trans ?_, kind.trans ?_, rfl⟩
  · rw [u.noteSlip_cpu]
  · rw [slipped]
    rfl

/-- Settles O36: each unit by what its work leaves in the store buffer and in G4, G5 and G6 (`bcopy_commits`, `bfill_commits`, `movt_commits`). -/
theorem stringUnitsCommit : Obligations.StringUnitsCommit := by
  intro s rep nt v len mlen g4 g5 g6 n m copied filled moved
  refine ⟨fun nothing => ⟨fun issues => Does.noUnit issues nothing rfl, fun issues => Does.noUnit issues nothing rfl,
    fun issues => Does.noUnit issues nothing rfl⟩, fun more ps qs => ⟨?_, ?_, ?_⟩⟩
  · exact fun issues admits room => bcopy_commits rfl more issues admits room
  · exact fun issues admits room => bfill_commits rfl more issues admits room
  · exact fun issues admits room inside range => movt_commits rfl more issues admits room inside range

end Sys2Proof.Machine
end

section
/-! PROOF. The vector extension (O20 to O24; R289 to R297): an instruction whose form is defined works once its views are free, and the shared
forms write a view that they compute from the views that software sees. -/

namespace Sys2Proof.Machine

/-! ## Views that an instruction names -/

theorem State.vissues_dest_source {s : State} {len : Nat} {gs : List (Fin 32)} {p q : Bool} {d a : FReg}
    (h : s.vissues len gs [(p, d), (q, a)]) : (viewOk p d && viewOk q a) = true ∧ s.issues len gs (viewList p d ++ viewList q a) := by
  obtain ⟨ok, issues⟩ := h
  simp only [List.flatMap_cons, List.flatMap_nil, List.append_nil] at issues
  simp only [List.forall_mem_cons] at ok
  obtain ⟨okD, okA, -⟩ := ok
  exact ⟨by rw [okD, okA]; rfl, issues⟩

theorem State.vissues_dest_sources {s : State} {len : Nat} {gs : List (Fin 32)} {p q r : Bool} {d b a : FReg}
    (h : s.vissues len gs [(p, d), (q, b), (r, a)]) :
    (viewOk p d && viewOk q b && viewOk r a) = true ∧ s.issues len gs (viewList p d ++ viewList q b ++ viewList r a) := by
  obtain ⟨ok, issues⟩ := h
  simp only [List.flatMap_cons, List.flatMap_nil, List.append_nil] at issues
  simp only [List.forall_mem_cons] at ok
  obtain ⟨okD, okB, okA, -⟩ := ok
  exact ⟨by rw [okD, okB, okA]; rfl, by rwa [List.append_assoc]⟩

/-- Without exceptions FLAGS stays as it was. -/
theorem Seen.vector_exact (v : Seen) (len : Nat) (wide : Bool) (d : FReg) (r : VView) : v.vector len wide d (r, 0) = v.packed len wide d r :=
  congrArg (Seen.next · len) (Seen.sticky_zero _)

/-! ## The shared forms -/

section
variable {s : State} {i : Instr}

/-- A form that its checks define does its work on the state with its bytes there. -/
theorem Does.defined {ok : Bool} {len : Nat} {gs fs : List (Fin 32)} {k : State → State} {refusal : State} {v : Seen} (issues : s.issues len gs fs)
    (good : ok = true) (exec : exec i s = .next (if ok then s.instr len gs fs k else refusal)) (sees : (k (s.arrived len)).seen = v) : Does i s v :=
  Does.of_work issues (exec.trans (congrArg Host.Outcome.next (if_pos good))) sees

/-- It writes a view with what `f` makes of what software sees, and adds the exceptions that arise. -/
theorem Does.viewSticky {ok : Bool} {len : Nat} {gs fs : List (Fin 32)} {refusal : State} {wide : Bool} {d : FReg} (issues : s.issues len gs fs)
    (good : ok = true) (f : Seen → VView × Sticky)
    (exec : exec i s = .next (if ok then
      s.instr len gs fs fun t => ((t.setView wide d (f t.seen).1).sticky (f t.seen).2).commit len else refusal)) :
    Does i s (s.seen.vector len wide d (f s.seen)) := by
  refine Does.defined issues good exec ?_
  rw [State.commit_sees, State.sticky_sees, State.setView_sees, s.arrived_seen, Seen.vector]

/-- It writes a view and leaves FLAGS alone. -/
theorem Does.viewOnly {ok : Bool} {len : Nat} {gs fs : List (Fin 32)} {refusal : State} {wide : Bool} {d : FReg} (issues : s.issues len gs fs)
    (good : ok = true) (f : Seen → VView)
    (exec : exec i s = .next (if ok then s.instr len gs fs fun t => (t.setView wide d (f t.seen)).commit len else refusal)) :
    Does i s (s.seen.packed len wide d (f s.seen)) := by
  refine Does.defined issues good exec ?_
  rw [State.commit_sees, State.setView_sees, s.arrived_seen, Seen.packed]

/-- Two sources, every view of one width (R292). -/
theorem Does.vecOp2 {ok wide : Bool} {d b a : FReg} (issues : s.vissues (vLen 4 wide) [] [(wide, d), (wide, b), (wide, a)]) (good : ok = true)
    (f : VView → VView → VView × Sticky) (exec : exec i s = .next (s.vecOp2 ok wide d b a f)) :
    Does i s (s.seen.vector (vLen 4 wide) wide d (f (s.seen.view wide a) (s.seen.view wide b))) := by
  obtain ⟨views, issues⟩ := State.vissues_dest_sources issues
  subst good
  exact Does.viewSticky issues views (fun v => f (v.view wide a) (v.view wide b)) exec

theorem Does.vecInt2 {ok wide : Bool} {sz : Fin 4} {d b a : FReg} (issues : s.vissues (vLen 4 wide) [] [(wide, d), (wide, b), (wide, a)])
    (good : ok = true) (f : Nat → Nat → Nat) (exec : exec i s = .next (s.vecInt2 ok wide sz d b a f)) :
    Does i s (s.seen.packed (vLen 4 wide) wide d (vMap2 (viewBits wide) (vWidth sz) f (s.seen.view wide a) (s.seen.view wide b))) := by
  have writes := Does.vecOp2 issues good _ exec
  rwa [Seen.vector_exact] at writes

/-- One source; the views' widths are the form's (R291). -/
theorem Does.vecFixed {ok dq aq : Bool} {len : Nat} {d a : FReg} (issues : s.vissues len [] [(dq, d), (aq, a)]) (good : ok = true)
    (f : VView → VView × Sticky) (exec : exec i s = .next (s.vecFixed ok dq aq len d a f)) :
    Does i s (s.seen.vector len dq d (f (s.seen.view aq a))) := by
  obtain ⟨views, issues⟩ := State.vissues_dest_source issues
  subst good
  exact Does.viewSticky issues views (fun v => f (v.view aq a)) exec

theorem Does.vecFixedExact {ok dq aq : Bool} {len : Nat} {d a : FReg} (issues : s.vissues len [] [(dq, d), (aq, a)]) (good : ok = true)
    (f : VView → VView) (exec : exec i s = .next (s.vecFixed ok dq aq len d a fun x => (f x, 0))) :
    Does i s (s.seen.packed len dq d (f (s.seen.view aq a))) := by
  have writes := Does.vecFixed issues good _ exec
  rwa [Seen.vector_exact] at writes

/-- One source and one width is the case of equal views. -/
theorem State.vecOp1_fixed (s : State) (ok wide : Bool) (len : Nat) (d a : FReg) (f : VView → VView × Sticky) :
    s.vecOp1 ok wide len d a f = s.vecFixed ok wide wide len d a f := rfl

theorem Does.vecOp1 {ok wide : Bool} {len : Nat} {d a : FReg} (issues : s.vissues len [] [(wide, d), (wide, a)]) (good : ok = true)
    (f : VView → VView × Sticky) (exec : exec i s = .next (s.vecOp1 ok wide len d a f)) :
    Does i s (s.seen.vector len wide d (f (s.seen.view wide a))) :=
  Does.vecFixed issues good f (s.vecOp1_fixed .. ▸ exec)

theorem Does.vecInt1 {ok wide : Bool} {len : Nat} {sz : Fin 4} {d a : FReg} (issues : s.vissues len [] [(wide, d), (wide, a)]) (good : ok = true)
    (f : Nat → Nat) (exec : exec i s = .next (s.vecInt1 ok wide len sz d a f)) :
    Does i s (s.seen.packed len wide d (vMap1 (viewBits wide) (vWidth sz) f (s.seen.view wide a))) :=
  Does.vecFixedExact issues good (vMap1 (viewBits wide) (vWidth sz) f) exec

end

/-! ## Integer and bit operations (R294) -/

/-- Settles O20: each operation is the one form (`Does.vecInt2`) with its function of two elements. -/
theorem vectorIntegerOperations : Obligations.VectorIntegerOperations := by
  intro s wide x sz d b a issues w gives
  have op {i : Instr} {f : Nat → Nat → Nat} (exec : exec i s = .next (s.vecInt2 true wide sz d b a f)) : gives i f :=
    Does.vecInt2 issues rfl f exec
  exact ⟨op rfl, op rfl, op rfl, op rfl, op rfl, op rfl, op rfl, op rfl, op rfl⟩

theorem vectorElementMoves : VectorElementMoves := by
  intro s wide x sz d a n w v each
  refine ⟨fun issues count => ⟨?_, ?_⟩, fun issues => ?_, fun issues number => ?_, fun issues number => ?_⟩
  · exact Does.vecInt1 issues (decide_eq_true count) (fun p => p * 2 ^ n.toNat % 2 ^ w) rfl
  · exact Does.vecInt1 issues (decide_eq_true count) (fun p => elNat w (elInt w (!x) p / 2 ^ n.toNat)) rfl
  · obtain ⟨ok, issues⟩ := State.vissues_one issues
    exact Does.viewOnly issues ok (fun u => vOf w (List.replicate (viewBits wide / w) ((u.readG a).toNat % 2 ^ w))) rfl
  · obtain ⟨ok, issues⟩ := State.vissues_one issues
    exact Does.viewOnly issues (Bool.and_eq_true_iff.mpr ⟨ok, decide_eq_true number⟩)
      (fun u => setElem w n.toNat (u.view wide d) (u.readG a).toNat) rfl
  · obtain ⟨ok, issues⟩ := State.vissues_one issues
    refine Does.defined issues (Bool.and_eq_true_iff.mpr ⟨ok, decide_eq_true number⟩) rfl ?_
    dsimp only
    rw [State.commit_sees, State.setG_sees, State.view_seen, s.arrived_seen]

theorem vectorBitOperations : VectorBitOperations := by
  intro s wide d b a v va vb vd out
  refine ⟨fun issues => ?_, fun issues => Does.vecFixedExact issues rfl id rfl⟩
  have op {i : Instr} (f : VView → VView → VView) (exec : exec i s = .next (s.vecOp2 true wide d b a fun x y => (f x y, 0))) :
      Does i s (out (f va vb)) := by
    have writes := Does.vecOp2 issues rfl _ exec
    rwa [Seen.vector_exact] at writes
  refine ⟨op (· &&& ·) rfl, op (· ||| ·) rfl, op (· ^^^ ·) rfl, op (fun x y => x &&& ~~~y) rfl, ?_⟩
  obtain ⟨views, issues⟩ := State.vissues_dest_sources issues
  exact Does.viewOnly issues views (fun u => (u.view wide d &&& u.view wide a) ||| (~~~u.view wide d &&& u.view wide b)) rfl

/-- Settles O21: the immediate shifts by `Does.vecInt1`, the element moves by their own checks, the bit operations on whole views. -/
theorem vectorElementsAndBits : Obligations.VectorElementsAndBits := ⟨vectorElementMoves, vectorBitOperations⟩

/-! ## Fixed point (R295) -/

theorem elMulFx_eq (w : Nat) (rnd : Bool) (p q : Nat) : elMulFx w rnd p q
    = elSat w false ((2 * elInt w false p * elInt w false q + if rnd then 2 ^ (w - 1) else 0) / 2 ^ w) := by
  cases rnd with
  | true => rfl
  | false => exact congrArg (fun z => elSat w false (z / 2 ^ w)) (Int.add_zero _).symm

/-- Settles O22: the forms of two sources and of one, the product by `elMulFx_eq`. -/
theorem vectorFixedPoint : Obligations.VectorFixedPoint := by
  intro s wide x sz d b a n w v two one
  refine ⟨fun issues => ⟨?_, ?_, fun width => ?_⟩, fun issues => ⟨?_, ?_⟩, fun issues low high => ?_, fun issues count => ?_⟩
  · exact Does.vecInt2 issues rfl (fun p q => elSat w x (elInt w x p + elInt w x q)) rfl
  · exact Does.vecInt2 issues rfl (fun p q => elSat w x (elInt w x p - elInt w x q)) rfl
  · have defined : (sz == 1 || sz == 2) = true := by simpa using width
    have product := Does.vecInt2 issues defined (elMulFx w x) (i := .vmulfx wide x sz d b a) rfl
    rwa [show elMulFx w x = _ from funext₂ (elMulFx_eq w x)] at product
  · have magnitude := Does.vecInt1 issues rfl (fun p => elSat w false (elInt w false p).natAbs) (i := .vabss wide sz d a) rfl
    simpa only [Int.natCast_natAbs] using magnitude
  · exact Does.vecInt1 issues rfl (fun p => elSat w false (-elInt w false p)) rfl
  · exact Does.vecInt1 issues (decide_eq_true ⟨low, high⟩) (fun p => elNat w ((elInt w x p + 2 ^ (n.toNat - 1)) / 2 ^ n.toNat)) rfl
  · exact Does.vecInt1 issues (decide_eq_true count) (fun p => elSat w x (elInt w x p * 2 ^ n.toNat)) rfl

/-! ## Floating point (R296) -/

/-- Settles O23: the scalar operation on each element (`Does.vecOp2`); VFMA reads the destination too, and the sign changes are integer forms. -/
theorem vectorFloat : Obligations.VectorFloat := by
  intro s wide sz d b a size w p v va vb two cmp one
  have sizeOk : fpSize sz = true := decide_eq_true size
  refine ⟨fun issues => ?_, fun issues => ⟨?_, ?_⟩⟩
  · have op {i : Instr} {f : DWord → DWord → DWord × Sticky}
        (exec : exec i s = .next (s.vecOp2 (fpSize sz) wide d b a (vfMap2 (viewBits wide) sz f))) : Does i s (two f) :=
      Does.vecOp2 issues sizeOk _ exec
    have compares {i : Instr} {sig : Bool} {test : Ordering → Bool} (exec : exec i s = .next (s.vecCmp wide sz d b a sig test)) :
        Does i s (cmp sig test) :=
      Does.vecOp2 issues sizeOk
        (fun x y => vCollect w ((vElems (viewBits wide) w x).zipWith (vfCmp w p sig test) (vElems (viewBits wide) w y))) exec
    refine ⟨op rfl, op rfl, op rfl, op rfl, op rfl, ?_, compares rfl, compares rfl, compares rfl⟩
    obtain ⟨views, issues⟩ := State.vissues_dest_sources issues
    have defined : (fpSize sz && viewOk wide d && viewOk wide b && viewOk wide a) = true := by
      rw [sizeOk, Bool.true_and]
      exact views
    refine Does.defined issues defined rfl ?_
    dsimp only
    rw [State.commit_sees, State.sticky_sees, State.setView_sees, State.view_seen, State.view_seen, State.view_seen, s.arrived_seen, Seen.vector]
  · exact Does.vecInt1 issues sizeOk (fun e => e ^^^ 2 ^ (w - 1)) rfl
  · exact Does.vecInt1 issues sizeOk (fun e => e % 2 ^ (w - 1)) rfl

/-! ## Narrowing, widening, conversions (R291, R295, R297) -/

theorem vectorNarrowsAndWidens : VectorNarrowsAndWidens := by
  intro s x sz d a n small w v wideElems
  have sizeOk : (sz != 3) = true := bne_iff_ne.mpr small
  refine ⟨fun issues => ?_, fun issues low high => ?_, fun issues => ?_⟩
  · exact Does.vecFixedExact issues sizeOk (vNarrow w x id) rfl
  · have defined : (sz != 3 && decide (1 ≤ n.toNat ∧ n.toNat ≤ w)) = true := Bool.and_eq_true_iff.mpr ⟨sizeOk, decide_eq_true ⟨low, high⟩⟩
    exact Does.vecFixedExact issues defined (vNarrow w x fun e => shiftRound e n.toNat) rfl
  · exact Does.vecFixedExact issues sizeOk (fun y => vOf (2 * w) ((vElems 64 w y).map fun e => elNat (2 * w) (elInt w x e))) rfl

/-- TZ and WIDE lengthen a form in either order. -/
theorem vLen_withPrefix (n : Nat) (tz wide : Bool) : vLen (withPrefix n tz) wide = withPrefix (vLen n wide) tz := Nat.add_right_comm ..

theorem vectorConversions : VectorConversions := by
  intro s tz wide x sz d b a w p v r len
  have length : len = withPrefix 4 tz := withPrefix_ite 4 tz
  clear_value len
  subst length
  intro narrow widen
  have narrows {i : Instr} {f : VView → VView × Sticky} (exec : exec i s = .next (s.vecFixed true false true (withPrefix 4 tz) d a f)) :
      narrow i (f (v.view true a)) := fun issues => Does.vecFixed issues rfl f exec
  have widens {i : Instr} {f : VView → VView × Sticky} (exec : exec i s = .next (s.vecFixed true true false 4 d a f)) :
      widen i (f (v.view false a)) := fun issues => Does.vecFixed issues rfl f exec
  refine ⟨fun size issues => Does.vecOp1 issues (decide_eq_true size) _ rfl, fun size issues => ?_,
    widens rfl, narrows rfl, narrows rfl, widens rfl, fun issues => ?_, ?_⟩
  · rw [vLen_withPrefix] at issues ⊢
    exact Does.vecOp1 issues (decide_eq_true size) _ rfl
  · obtain ⟨views, issues⟩ := State.vissues_dest_sources issues
    exact Does.viewSticky issues views (fun u => vCollect 8 ((vElems 128 32 (u.view true a) ++ vElems 128 32 (u.view true b)).map fun e =>
      cvtElem (toPF8 r) (dec32 (w32 e)))) rfl
  · exact widens (f := fun y => vCollect 32 ((((vElems 64 8 y).drop (if x then 4 else 0)).take 4).map fun e =>
      cvtElem (to32 .rne) (decPF8 (BitVec.ofNat 8 e)))) rfl

/-- Settles O24: the forms of fixed views (`Does.vecFixed`) with each element's conversion. -/
theorem vectorNarrowingAndConversions : Obligations.VectorNarrowingAndConversions := ⟨vectorNarrowsAndWidens, vectorConversions⟩

end Sys2Proof.Machine
end

section
/-! PROOF. The maintenance forms and the preloads of both caches (O38; R313, R315 to R318): an address that passes its checks, the entry of
an L1D form in the store buffer, what an L1I form leaves of its cache. -/

namespace Sys2Proof.Machine

/-! ## An address that passes its checks (R313, R315), the level (R317) -/

theorem State.checkAt_arrived_seen (s : State) (len : Nat) (va : DWord) (kind : Nat) : ((s.arrived len).checkAt va kind).1.seen = s.seen :=
  (State.checkAt_seen _ va kind).trans (s.arrived_seen len)

section
variable {s : State} {va : DWord} {kind pa mt : Nat} (passes : (s.checkAt va kind).2 = .inr (pa, mt)) (k : State → Option Nat → State)
include passes

theorem State.maintAt_passes : s.maintAt va kind k = k (s.checkAt va kind).1 ((s.checkAt va kind).1.lineAt pa) := by
  rw [State.maintAt]
  simp only [passes]

theorem State.preloadAt_passes {line : Option Nat} (cacheable : (if (s.checkAt va kind).1.effType pa mt == 0
    && (s.checkAt va kind).1.cacheOn (kind == 2) then (s.checkAt va kind).1.lineAt pa else none) = line) :
    s.preloadAt va kind k = k (s.checkAt va kind).1 line := by
  rw [State.preloadAt, ← cacheable]
  simp only [passes]

/-- A preload of an address that is not cacheable has no line. -/
theorem State.preloadAt_uncacheable (uncacheable : (s.checkAt va kind).1.effType pa mt ≠ 0 ∨ (s.checkAt va kind).1.cacheOn (kind == 2) = false
    ∨ (s.checkAt va kind).1.lineAt pa = none) : s.preloadAt va kind k = k (s.checkAt va kind).1 none := by
  refine State.preloadAt_passes passes k ?_
  obtain type | off | noLine := uncacheable
  · simp [type]
  · simp [off]
  · simp [noLine]

theorem State.preloadAt_line {line : Nat} (type : (s.checkAt va kind).1.effType pa mt = 0) (on : (s.checkAt va kind).1.cacheOn (kind == 2) = true)
    (here : (s.checkAt va kind).1.lineAt pa = some line) : s.preloadAt va kind k = k (s.checkAt va kind).1 (some line) :=
  State.preloadAt_passes passes k (by simp [type, on, here])

end

theorem State.notUser_above {s : State} (above : 1 ≤ s.pl) (len : Nat) (k : State) : (s.arrived len).notUser k = k :=
  State.notUser_lets (s.arrived_pl len ▸ Nat.one_le_iff_ne_zero.mp above) k

/-! ## L1D: a form enters the store buffer (R315 to R318) -/

/-- A form commits with its entry standing last in the store buffer: `u` pushes it, `done` leaves the store buffer alone. -/
theorem Enters.of_push {i : Instr} {s u : State} {len : Nat} {gs : List (Fin 32)} {k done : State → State} {v : Seen} {entry : SbKind}
    (issues : s.issues len gs []) (exec : exec i s = .next (s.instr len gs [] k)) (work : k (s.arrived len) = done (u.pushSb entry))
    (flight : ∀ t, (done t).inFlight = t.inFlight) (shows : (done (u.pushSb entry)).seen = v) : Enters i s v entry := by
  refine Leaves.of_work issues exec (work ▸ ⟨shows, ?_⟩)
  obtain ⟨e, last, kind⟩ := u.pushSb_sb entry
  have stores : (done (u.pushSb entry)).cpu.sb = u.cpu.sb ++ [e] := (congrArg InFlight.sb (flight _)).trans last
  exact ⟨e, stores ▸ List.getLast?_concat, kind⟩

/-- The same where all that follows is the commit. -/
theorem Enters.of_commit {i : Instr} {s u : State} {len : Nat} {gs : List (Fin 32)} {k : State → State} {entry : SbKind}
    (issues : s.issues len gs []) (exec : exec i s = .next (s.instr len gs [] k)) (sees : u.seen = s.seen)
    (work : k (s.arrived len) = (u.pushSb entry).commit len) : Enters i s (s.seen.next len) entry :=
  Enters.of_push (done := (·.commit len)) issues exec work (State.commit_inFlight · len)
    (State.commit_of_seen ((u.pushSb_seen entry).trans sees) len)

theorem State.pushLine_room {s : State} (room : s.cpu.sb.length < 8) (op line : Nat) (done : State → State) :
    s.pushLine op (some line) done = done (s.pushSb (.maint op line)) :=
  if_neg (ne_true_of_eq_false (State.sbFull_of_room room))

/-- A VA or range form whose address passes its checks. -/
theorem dataLine_enters {i : Instr} {s : State} {gs : List (Fin 32)} {k done : State → State} {v : Seen} {va : DWord} {op kind pa mt : Nat}
    (issues : s.issues 4 gs []) (exec : exec i s = .next (s.instr 4 gs [] k))
    (work : k (s.arrived 4) = (s.arrived 4).maintAt va kind fun u line => u.pushLine op line done)
    (flight : ∀ t, (done t).inFlight = t.inFlight) (shows : ∀ t, t.seen = s.seen → (done t).seen = v)
    (passes : ((s.arrived 4).checkAt va kind).2 = .inr (pa, mt)) :
    let u := ((s.arrived 4).checkAt va kind).1
    (u.lineAt pa = none → Does i s v) ∧ ∀ line, u.lineAt pa = some line → u.cpu.sb.length < 8 → Enters i s v (.maint op line) := by
  intro u
  have sees : u.seen = s.seen := s.checkAt_arrived_seen 4 va kind
  have goes : k (s.arrived 4) = u.pushLine op (u.lineAt pa) done := work.trans (State.maintAt_passes passes _)
  refine ⟨fun noLine => Does.of_work issues exec ?_, fun line here room => Enters.of_push (u := u) issues exec ?_ flight (shows _ ?_)⟩
  · rw [goes, noLine]
    exact shows u sees
  · rw [goes, here]
    exact State.pushLine_room room op line done
  · exact (u.pushSb_seen _).trans sees

theorem State.rangeStep_inFlight (s : State) : s.rangeStep.inFlight = s.inFlight := by
  rw [State.rangeStep, State.setG_inFlight, State.setG_inFlight]

theorem State.rangeStep_sees (s : State) : s.rangeStep.seen = s.seen.range := by
  rw [State.rangeStep, State.setG_sees, State.setG_sees]
  rfl

theorem State.rangeStep_commit_sees {s t : State} (sees : t.seen = s.seen) (len : Nat) :
    (t.rangeStep.commit len).seen = s.seen.range.next len := by
  rw [State.commit_sees, State.rangeStep_sees, sees]

theorem dataRange_enters {i : Instr} {s : State} {op kind : Nat} (exec : exec i s = .next (s.dataRange op kind)) (issues : s.issues 4 [4, 6] []) :
    let v := s.seen
    (v.readG 6 = 0#64 → Does i s (v.next 4)) ∧ ∀ pa mt, ((s.arrived 4).checkAt (v.readG 4) kind).2 = .inr (pa, mt) →
      let u := ((s.arrived 4).checkAt (v.readG 4) kind).1
      v.readG 6 ≠ 0#64 → (u.lineAt pa = none → Does i s (v.range.next 4))
        ∧ ∀ line, u.lineAt pa = some line → u.cpu.sb.length < 8 → Enters i s (v.range.next 4) (.maint op line) := by
  intro v
  refine ⟨fun nothing => Does.noUnit issues nothing exec, fun pa mt passes more => ?_⟩
  refine dataLine_enters (done := fun t => t.rangeStep.commit 4) issues exec ?_ (fun t => ?_) (fun t sees => State.rangeStep_commit_sees sees 4) passes
  · rw [s.arrived_g, s.arrived_g, if_neg more]
  · rw [State.commit_inFlight, State.rangeStep_inFlight]

theorem dataSetWay_enters {i : Instr} {s : State} {op : Nat} {a : GReg} (exec : exec i s = .next (s.dataSetWay op a)) (issues : s.issues 4 [a] [])
    (above : 1 ≤ s.pl) (room : (s.arrived 4).cpu.sb.length < 8) : Enters i s (s.seen.next 4)
    (.maintSW op (setOf (s.seen.readG a) ((s.arrived 4).sets false)) (wayOf (s.seen.readG a))) := by
  refine Enters.of_commit (u := s.arrived 4) issues exec (s.arrived_seen 4) ?_
  rw [State.notUser_above above, State.sbFull_of_room room, if_neg Bool.false_ne_true, s.arrived_g]

/-- A preload at S or M that names a built way. -/
theorem State.preload_lets {s : State} {a : GReg} {way : Byte} {ic : Bool} (above : 1 ≤ s.pl) (built : way.toNat < (s.arrived 5).ways ic)
    (kind : Nat) (k : State → Option Nat → State) :
    (if (s.arrived 5).ways ic ≤ way.toNat then (s.arrived 5).undef
      else (s.arrived 5).notUser ((s.arrived 5).preloadAt ((s.arrived 5).g a) kind k)) = (s.arrived 5).preloadAt (s.seen.readG a) kind k := by
  rw [if_neg (Nat.not_le.mpr built), State.notUser_above above, s.arrived_g]

theorem dpreload_enters {s : State} {a : GReg} {way : Byte} {pa mt : Nat} (issues : s.issues 5 [a] []) (above : 1 ≤ s.pl)
    (built : way.toNat < (s.arrived 5).ways false) (passes : ((s.arrived 5).checkAt (s.seen.readG a) 0).2 = .inr (pa, mt)) :
    let u := ((s.arrived 5).checkAt (s.seen.readG a) 0).1
    (u.effType pa mt ≠ 0 ∨ u.cacheOn false = false ∨ u.lineAt pa = none → Does (.dpreload a way) s (s.seen.next 5))
      ∧ ∀ line, u.effType pa mt = 0 → u.cacheOn false = true → u.lineAt pa = some line → u.cpu.sb.length < 8 →
        Enters (.dpreload a way) s (s.seen.next 5) (.preload line way.toNat) := by
  intro u
  have sees : u.seen = s.seen := s.checkAt_arrived_seen 5 _ 0
  refine ⟨fun uncacheable => Does.of_work issues rfl ?_, fun line type on here room => Enters.of_commit (u := u) issues rfl sees ?_⟩
  · rw [State.preload_lets above built, State.preloadAt_uncacheable passes _ uncacheable]
    exact State.commit_of_seen sees 5
  · rw [State.preload_lets above built, State.preloadAt_line passes _ type on here]
    exact if_neg (ne_true_of_eq_false (State.sbFull_of_room room))

theorem dataCacheFormsEnterTheStoreBuffer : DataCacheFormsEnterTheStoreBuffer := by
  intro s a way v x va range place
  refine ⟨fun issues => ?_, fun issues => ⟨dataRange_enters rfl issues, dataRange_enters rfl issues, dataRange_enters rfl issues⟩,
    fun issues above room => ?_, fun issues above built pa mt passes => dpreload_enters issues above built passes⟩
  · have form {i : Instr} {op kind : Nat} (exec : exec i s = .next (s.dataVa op kind a)) : va i op kind := fun pa mt passes =>
      dataLine_enters issues exec (by rw [s.arrived_g]) (State.commit_inFlight · 4) (fun t sees => State.commit_of_seen sees 4) passes
    exact ⟨form rfl, form rfl, form rfl, fun above room =>
      ⟨dataSetWay_enters rfl issues above room, dataSetWay_enters rfl issues above room, dataSetWay_enters rfl issues above room⟩⟩
  · refine Enters.of_commit (u := s.arrived 4) issues rfl (s.arrived_seen 4) ?_
    rw [State.notUser_above above, State.sbFull_of_room room, if_neg Bool.false_ne_true]

/-! ## What is left of a cache -/

theorem State.endStep_caches (s : State) : s.endStep.caches = s.caches := by
  unfold State.endStep
  split <;> rfl

@[simp] theorem State.commit_cache (s : State) (len : Nat) (ic : Bool) : (s.commit len).cache ic = s.cache ic :=
  congrArg (fun c : Caches => if ic then c.i else c.d) (State.endStep_caches _)

@[simp] theorem State.rangeStep_cache (s : State) (ic : Bool) : s.rangeStep.cache ic = s.cache ic := by
  rw [State.cache, State.cache, State.rangeStep, State.setG_caches, State.setG_caches]

@[simp] theorem State.setCache_cache (s : State) (ic : Bool) (c : Cache) : (s.setCache ic c).cache ic = c := by
  cases ic <;> rfl

@[simp] theorem State.dropLine_lines (s : State) (ic : Bool) (i : Nat) :
    ((s.dropLine ic i).cache ic).lines = (s.cache ic).lines.filter fun c => c.1 != i := by
  rw [State.dropLine, State.setCache_cache]

theorem State.findLine_of_cache {s t : State} {ic : Bool} (same : t.cache ic = s.cache ic) (line : Nat) : t.findLine ic line = s.findLine ic line := by
  rw [State.findLine, State.findLine, same]

theorem lineOf_lineOf (pa : Nat) : lineOf (lineOf pa) = lineOf pa := by
  rw [lineOf, lineOf, Nat.mul_div_cancel _ (by decide)]

theorem State.lineAt_aligned {s : State} {pa line : Nat} (here : s.lineAt pa = some line) : lineOf line = line := by
  rw [State.lineAt] at here
  split at here
  · rw [← Option.some.inj here, lineOf_lineOf]
  · cases here

theorem filter_eq_singleton {α : Type} {p : α → Bool} {xs : List α} {x : α} (found : xs.find? p = some x) (one : (xs.filter p).length ≤ 1) :
    xs.filter p = [x] := by
  obtain ⟨ys, whole⟩ := List.head?_eq_some_iff.mp (List.head?_filter.trans found)
  rw [whole, List.length_cons] at one
  rw [whole, List.eq_nil_of_length_eq_zero (Nat.eq_zero_of_le_zero (Nat.le_of_succ_le_succ one))]

/-- No place but that of the found line holds the line, so that it is gone with that place. -/
theorem State.dropLine_findLine {s : State} {ic : Bool} {line i : Nat} {l : CLine} (found : s.findLine ic line = some (i, l))
    (one : ((s.cache ic).lines.filter fun c => c.2.line == line).length ≤ 1) : (s.dropLine ic i).findLine ic line = none := by
  rw [State.findLine, State.dropLine_lines, List.find?_eq_none]
  intro c stays holds
  obtain ⟨mem, elsewhere⟩ := List.mem_filter.mp stays
  have same : c ∈ [(i, l)] := filter_eq_singleton found one ▸ List.mem_filter.mpr ⟨mem, holds⟩
  exact bne_iff_ne.mp elsewhere (congrArg Prod.fst (List.mem_singleton.mp same))

/-! ## L1I: the forms act at once (R315 to R318) -/

theorem State.invalILine_gone {s : State} {line : Nat} (aligned : lineOf line = line)
    (one : ((s.cache true).lines.filter fun c => c.2.line == line).length ≤ 1) : (s.invalILine line).findLine true line = none := by
  rw [State.invalILine, State.dropILine, aligned]
  split
  · next found => exact State.dropLine_findLine found one
  · next missing => exact missing

/-- IINVAL.VA and IINVAL.R where the address passes its checks; `done` follows. -/
theorem instrLine_gone {i : Instr} {s : State} {gs : List (Fin 32)} {k done : State → State} {f : State → Option Nat → State} {v : Seen} {va : DWord}
    {pa mt line : Nat} (issues : s.issues 4 gs []) (exec : exec i s = .next (s.instr 4 gs [] k))
    (work : k (s.arrived 4) = (s.arrived 4).maintAt va 2 f) (inval : ∀ u, f u (some line) = done (u.invalILine line))
    (cache : ∀ t, (done t).cache true = t.cache true) (shows : ∀ t, t.seen = s.seen → (done t).seen = v)
    (passes : ((s.arrived 4).checkAt va 2).2 = .inr (pa, mt)) :
    let u := ((s.arrived 4).checkAt va 2).1
    u.lineAt pa = some line → ((u.cache true).lines.filter fun c => c.2.line == line).length ≤ 1 →
      Leaves i s fun t => t.seen = v ∧ t.findLine true line = none := by
  intro u here one
  have goes : k (s.arrived 4) = done (u.invalILine line) := by
    rw [work, State.maintAt_passes passes, here, inval]
  refine Leaves.of_work issues exec (goes ▸ ⟨shows _ ?_, ?_⟩)
  · exact (u.invalILine_seen line).trans (s.checkAt_arrived_seen 4 va 2)
  · exact (State.findLine_of_cache (cache _) line).trans (State.invalILine_gone (State.lineAt_aligned here) one)

/-- A way that takes part has no line left in the set. -/
theorem State.instrSetWay_invalid {s : State} {x : DWord} (built : wayOf x < s.ways true) (on : s.wayOff true (wayOf x) = false) :
    ∀ c ∈ ((s.instrSetWay x).cache true).lines, c.1 ≠ 16 * setOf x (s.sets true) + wayOf x := by
  intro c mem
  rw [State.instrSetWay, on, Bool.or_false, if_neg (by simpa using built), State.dropLine_lines] at mem
  exact bne_iff_ne.mp (List.mem_filter.mp mem).2

theorem State.preloadFill_instr (s : State) (way line : Nat) (ptag tid : BitVec 16) : (s.preloadFill true way line ptag tid).seen = s.seen :=
  State.beginFill_instr _ _ rfl rfl

theorem State.preloadI_begins {s : State} {line way : Nat} (on : s.wayOff true way = false) (apart : s.filling true line = false)
    (written : s.evicting line = false) (free : s.wayHeld true (s.lineSet true line) way = false) (tag : s.freeTag.isSome = true)
    (done : State → State) :
    s.preloadI line way done = done ((s.dropILine line).preloadFill true way line s.cpu.ptag s.reqTid) := by
  have tag : s.freeTag.isNone = false := Option.isNone_eq_false_iff.mpr tag
  simp [State.preloadI, on, apart, written, free, tag]

theorem ipreload_fills {s : State} {a : GReg} {way : Byte} {pa mt : Nat} (issues : s.issues 5 [a] []) (above : 1 ≤ s.pl)
    (built : way.toNat < (s.arrived 5).ways true) (passes : ((s.arrived 5).checkAt (s.seen.readG a) 2).2 = .inr (pa, mt)) :
    let u := ((s.arrived 5).checkAt (s.seen.readG a) 2).1
    (u.effType pa mt ≠ 0 ∨ u.cacheOn true = false ∨ u.lineAt pa = none → Does (.ipreload a way) s (s.seen.next 5))
      ∧ ∀ line, u.effType pa mt = 0 → u.cacheOn true = true → u.lineAt pa = some line →
        (u.wayOff true way.toNat = true → Does (.ipreload a way) s (s.seen.next 5))
          ∧ (u.wayOff true way.toNat = false → u.filling true line = false → u.evicting line = false →
            u.wayHeld true (u.lineSet true line) way.toNat = false → u.freeTag.isSome = true → Leaves (.ipreload a way) s fun t =>
              t.seen = s.seen.next 5 ∧ t = ((u.dropILine line).preloadFill true way.toNat line u.cpu.ptag u.reqTid).commit 5) := by
  intro u
  have sees : u.seen = s.seen := s.checkAt_arrived_seen 5 _ 2
  refine ⟨fun uncacheable => Does.of_work issues rfl ?_, fun line type on here => ⟨fun off => Does.of_work issues rfl ?_,
    fun inService apart written free tag => Leaves.of_work issues rfl ?_⟩⟩
  · rw [State.preload_lets above built, State.preloadAt_uncacheable passes _ uncacheable]
    exact State.commit_of_seen sees 5
  · rw [State.preload_lets above built, State.preloadAt_line passes _ type on here]
    exact (congrArg State.seen (if_pos off)).trans (State.commit_of_seen sees 5)
  · rw [State.preload_lets above built, State.preloadAt_line passes _ type on here]
    dsimp only
    rw [State.preloadI_begins inService apart written free tag]
    refine ⟨State.commit_of_seen ?_ 5, rfl⟩
    rw [State.preloadFill_instr, State.dropILine_seen, sees]

theorem instructionCacheFormsActAtOnce : InstructionCacheFormsActAtOnce := by
  intro s a way v x gone
  refine ⟨fun issues pa mt line passes => ?_, fun issues => ⟨fun nothing => Does.noUnit issues nothing rfl, fun more pa mt line passes => ?_⟩,
    fun issues above => Leaves.of_work issues rfl ?_, fun issues above => Leaves.of_work issues rfl ?_,
    fun issues above built pa mt passes => ipreload_fills issues above built passes⟩
  · exact instrLine_gone (done := (·.commit 4)) issues rfl (by rw [s.arrived_g]) (fun _ => rfl) (State.commit_cache · 4 true)
      (fun t sees => State.commit_of_seen sees 4) passes
  · exact instrLine_gone (done := (·.rangeStep.commit 4)) issues rfl (by rw [s.arrived_g, s.arrived_g, if_neg more]) (fun _ => rfl)
      (fun t => (State.commit_cache _ 4 true).trans (t.rangeStep_cache true)) (fun t sees => State.rangeStep_commit_sees sees 4) passes
  · rw [State.notUser_above above, s.arrived_g]
    refine ⟨State.commit_of_seen ((State.instrSetWay_seen _ _).trans (s.arrived_seen 4)) 4, fun built on => ?_⟩
    rw [State.commit_cache]
    exact State.instrSetWay_invalid built on
  · rw [State.notUser_above above]
    refine ⟨State.commit_of_seen ?_ 4, congrArg Cache.lines (State.commit_cache _ 4 true)⟩
    rw [State.setFills_seen, State.invalidateAll_seen, s.arrived_seen]

/-- Settles O38: an L1D form enters the store buffer once its address has passed (`dataLine_enters`), an L1I form leaves the place that it names
(`instrLine_gone`, `State.instrSetWay_invalid`) or begins its fill (`State.preloadI_begins`). -/
theorem cacheFormsAct : Obligations.CacheFormsAct := ⟨dataCacheFormsEnterTheStoreBuffer, instructionCacheFormsActAtOnce⟩

end Sys2Proof.Machine
end

section
/-! PROOF. XINV, its broadcast, the end of a page walk (O39; R331 to R333, R335, R339 to R343; logs 90, 106): what a removal leaves of the
translation stores, what the requests and the report of a broadcast leave of them, the steps of a walk. -/

namespace Sys2Proof.Machine

/-! ## What a removal leaves (R339) -/

/-- No entry that a removal covers stands in a translation store. -/
def Inval.goneFrom (i : Inval) (x : Xlat) : Prop :=
  (∀ e ∈ x.itlb, i.covers e = false) ∧ (∀ e ∈ x.dtlb, i.covers e = false) ∧ (∀ e ∈ x.ovf, i.covers e = false)
    ∧ ∀ e ∈ x.l2, i.covers e.2 = false

theorem State.invalidate_gone (s : State) (i : Inval) : i.goneFrom (s.invalidate i).xlat := by
  have kept {α : Type} (f : α → TlbEntry) (m : List α) : ∀ e ∈ m.filter fun e => !i.covers (f e), i.covers (f e) = false := fun e mem =>
    Bool.not_eq_true' _ ▸ (List.mem_filter.mp mem).2
  exact ⟨kept id _, kept id _, kept id _, kept Prod.snd _⟩

/-- A range of no bytes covers nothing. -/
theorem Inval.gone_of_empty {i : Inval} (ranged : 2 ≤ i.scope) (empty : i.len = 0) (x : Xlat) : i.goneFrom x := by
  have nothing (e : TlbEntry) : i.covers e = false := by
    have apart : i.overlaps e.va.toNat e.size = false := by simp [Inval.overlaps, empty]
    unfold Inval.covers
    split
    · omega
    · omega
    · exact apart
    · rw [apart, Bool.and_false]
  exact ⟨fun e _ => nothing e, fun e _ => nothing e, fun e _ => nothing e, fun e _ => nothing e.2⟩

/-- A commit ends what walks found for the instruction and leaves the rest of translation. -/
theorem State.commit_xlat (s : State) (len : Nat) : (s.commit len).xlat = { s.xlat with served := [], failed := [] } := by
  unfold State.commit State.endStep
  dsimp only
  split <;> rfl

/-! ## The broadcast (R341, R343) -/

theorem State.pump_xlat (s : State) (n : Fin 2) : (s.pump n).xlat = s.xlat := rfl

theorem State.enqueue_xlat (s : State) (m : OutMsg) : (s.enqueue m).1.xlat = s.xlat := by
  unfold State.enqueue
  split
  · rfl
  · exact State.pump_xlat _ _

theorem State.post_xlat (s : State) (b : Body) (dst : Word) : (s.post b dst).1.xlat = s.xlat := by
  unfold State.post
  split
  · rfl
  · split
    · rfl
    · exact State.enqueue_xlat _ _

theorem State.sendXinv_xlat (s : State) (b : Body) (m : Word) : (s.sendXinv b m).1.xlat = s.xlat := by
  have posted := s.post_xlat b m
  unfold State.sendXinv
  dsimp only
  split
  · exact posted
  · split <;> exact posted

theorem State.sendXinvs_xlat (s : State) (b : Body) (ms : List Word) : (s.sendXinvs b ms).1.xlat = s.xlat := by
  induction ms generalizing s with
  | nil => rfl
  | cons m ms ih => exact (ih _).trans (s.sendXinv_xlat b m)

/-- What the report of a broadcast's end must not disturb: what software sees, translation, XLAT_BCAST_STAT. -/
def State.bcastView (s : State) : Seen × Xlat × Word := (s.seen, s.xlat, s.reg (pXLAT + 0x11C))

theorem OnlyRegs.bcastView {s t : State} {ks : List Nat} (h : OnlyRegs s t ks) (out : pXLAT + 0x11C ∉ ks) : t.bcastView = s.bcastView := by
  obtain ⟨⟨m, rfl⟩, keeps⟩ := h
  exact congrArg (fun w => (s.seen, s.xlat, w)) (keeps _ out)

theorem State.raiseErr_bcastView (s : State) (e : ErrEvt) : (s.raiseErr pXLAT e).bcastView = s.bcastView :=
  ((s.raise_onlyRegs pXLAT e.bit).trans (State.capture_onlyRegs _ pXLAT e)).bcastView (by decide)

theorem State.setReg_bcastView (s : State) {k : Nat} (v : Word) (h : pXLAT + 0x11C ≠ k) : (s.setReg k v).bcastView = s.bcastView :=
  (s.setReg_onlyRegs v (List.mem_singleton_self k)).bcastView (by simpa using h)

theorem State.addLedger_bcastView (s : State) (type channel level : Nat) (code : Word) (addr : DWord) (fromFw : Bool) :
    (s.addLedger type channel level code addr fromFw).1.bcastView = s.bcastView := by
  unfold State.addLedger
  split
  · exact State.setReg_bcastView _ _ (by decide)
  · rfl

theorem State.flushEvts_bcastView (r : State × List ErrEvt) : (State.flushEvts r).bcastView = r.1.bcastView :=
  (State.raiseErrs_onlyRegs _ pRAS _).bcastView (by decide)

theorem State.commit_bcastStat (s : State) (len : Nat) : (s.commit len).reg (pXLAT + 0x11C) = s.reg (pXLAT + 0x11C) :=
  (State.endStep_reg _ (by decide) (by decide)).trans ((s.setReg64_onlyRegs (ks := [0x1120, 0x1124]) _ (by decide) (by decide)).2 _ (by decide))

theorem fld_setFld_low (w : Word) {n : Nat} (v : Nat) (fits : n ≤ 32) : fld (setFld w 0 n v) 0 n = v % 2 ^ n := by
  have old : fld (w &&& ~~~(BitVec.ofNat 32 ((2 ^ n - 1) * 2 ^ 0))) 0 n = 0 := by
    refine Nat.eq_of_testBit_eq fun i => ?_
    by_cases inside : i < n
    · have masked : (BitVec.ofNat 32 ((2 ^ n - 1) * 1)).getLsbD i = true := by
        simp [BitVec.getLsbD_ofNat, inside, inside.trans_le fits]
      rw [fld, Nat.testBit_mod_two_pow, Nat.pow_zero, Nat.div_one, ← BitVec.getLsbD, BitVec.getLsbD_and, BitVec.getLsbD_not, masked]
      simp
    · simp [fld, inside]
  have small : v % 2 ^ n < 2 ^ 32 := (Nat.mod_lt _ (Nat.two_pow_pos n)).trans_le (Nat.pow_le_pow_right (by decide) fits)
  rw [setFld, fld_or, old, Nat.zero_or, fld, BitVec.toNat_ofNat, Nat.pow_zero, Nat.mul_one, Nat.div_one, Nat.mod_eq_of_lt small, Nat.mod_mod]

/-- The broadcast is over: MISSING counts `n` members. -/
def State.countMissing (s : State) (n : Nat) : State :=
  (s.setReg (pXLAT + 0x11C) (setFld (s.reg (pXLAT + 0x11C)) 0 18 n)).setXlat { s.xlat with bcast := none }

theorem State.countMissing_missing (s : State) (n : Nat) : fld ((s.countMissing n).reg (pXLAT + 0x11C)) 0 18 = n % 2 ^ 18 :=
  (congrArg (fld · 0 18) (State.setReg_reg _ _ _)).trans (fld_setFld_low _ n (by decide))

/-- The end of a broadcast that has no answer from `n` members: XINV commits, nothing of translation changes but what a commit ends. -/
structure EndsBroadcast (s : State) (n : Nat) (t : State) : Prop where
  seen : t.seen = s.seen.next 5
  xlat : t.xlat = { s.xlat with bcast := none, served := [], failed := [] }
  missing : fld (t.reg (pXLAT + 0x11C)) 0 18 = n % 2 ^ 18

theorem EndsBroadcast.of_view {s t : State} {n : Nat} (view : t.bcastView = (s.countMissing n).bcastView) : EndsBroadcast s n (t.commit 5) where
  seen := State.commit_of_seen (congrArg Prod.fst view) 5
  xlat := (t.commit_xlat 5).trans (congrArg (fun v : Seen × Xlat × Word => { v.2.1 with served := [], failed := [] }) view)
  missing := by
    have stat : t.reg (pXLAT + 0x11C) = (s.countMissing n).reg (pXLAT + 0x11C) := congrArg (fun v => v.2.2) view
    rw [State.commit_bcastStat, stat, State.countMissing_missing]

/-- What the report raises beside MISSING, the event of each page and the entry of the ledger, disturbs nothing of it (R343, R442, R443). -/
theorem State.bcastDone_ends (s : State) (c : Bcast) : EndsBroadcast s (c.waiting.length + c.failed.length) (s.bcastDone c) := by
  rw [← List.length_append]
  unfold State.bcastDone
  dsimp only
  split
  · exact .of_view rfl
  · refine .of_view ?_
    rw [State.flushEvts_bcastView, State.addLedger_bcastView, State.orReg, State.setReg_bcastView _ _ (by decide), State.raise, State.orReg,
      State.setReg_bcastView _ _ (by decide), State.raiseErr_bcastView]
    rfl

/-- A broadcast leaves every translation store as it is: it ends at once where it asks no member, else XINV waits. -/
theorem State.broadcast_leaves (s : State) (i : Inval) :
    ((s.broadcast i).seen = s.seen.next 5 ∧ (s.broadcast i).xlat = { s.xlat with bcast := none, served := [], failed := [] })
      ∨ ((s.broadcast i).seen = s.seen ∧ (s.broadcast i).cpu.wait = .xinv ∧ ∃ c, (s.broadcast i).xlat = { s.xlat with bcast := some c }) := by
  unfold State.broadcast
  extract_lets st seq t body r
  have seen : r.1.seen = s.seen := State.sendXinvs_seen t body _
  have xlat : r.1.xlat = s.xlat := State.sendXinvs_xlat t body _
  clear_value r
  split
  · have ends := r.1.bcastDone_ends r.2
    exact .inl ⟨ends.seen.trans (by rw [seen]), ends.xlat.trans (by rw [xlat])⟩
  · exact .inr ⟨seen, rfl, r.2, congrArg (fun x : Xlat => { x with bcast := some r.2 }) xlat⟩

/-! ## XINV (R339, R340) -/

theorem State.xinvNow_done {s : State} (stores : s.cpu.sb = []) (out : s.storesOut = false) (bcast : Bool) (i : Inval) :
    s.xinvNow bcast i = if decide (2 ≤ i.scope) && i.len == 0 then s.dropLoop.commit 5
      else if bcast then (s.invalidate i).dropLoop.broadcast i else (s.invalidate i).dropLoop.commit 5 := by
  rw [State.xinvNow, if_neg (by simp [stores, out])]

theorem State.xinvNow_local {s : State} (stores : s.cpu.sb = []) (out : s.storesOut = false) (i : Inval) :
    (s.xinvNow false i).seen = s.seen.next 5 ∧ i.goneFrom (s.xinvNow false i).xlat := by
  rw [State.xinvNow_done stores out]
  split
  · rename_i nothing
    obtain ⟨ranged, empty⟩ := Bool.and_eq_true_iff.mp nothing
    exact ⟨State.commit_of_seen s.dropLoop_seen 5, Inval.gone_of_empty (of_decide_eq_true ranged) (eq_of_beq empty) _⟩
  · rw [if_neg Bool.false_ne_true, State.commit_xlat]
    exact ⟨State.commit_of_seen ((State.dropLoop_seen _).trans (s.invalidate_seen i)) 5, s.invalidate_gone i⟩

theorem State.xinvNow_bcast {s : State} (stores : s.cpu.sb = []) (out : s.storesOut = false) {i : Inval} (takes : i.scope < 2 ∨ i.len ≠ 0) :
    let t := s.xinvNow true i
    i.goneFrom t.xlat ∧ (t.seen = s.seen.next 5 ∧ t.xlat.bcast = none ∨ t.seen = s.seen ∧ t.cpu.wait = .xinv ∧ t.xlat.bcast.isSome = true) := by
  have gone : i.goneFrom (s.invalidate i).dropLoop.xlat := s.invalidate_gone i
  have seen : (s.invalidate i).dropLoop.seen = s.seen := (State.dropLoop_seen _).trans (s.invalidate_seen i)
  intro t
  have goes : t = (s.invalidate i).dropLoop.broadcast i := by
    refine (State.xinvNow_done stores out true i).trans ?_
    rw [if_neg (by simpa using fun ranged => takes.resolve_left (Nat.not_lt.mpr ranged)), if_pos rfl]
  rw [goes, ← seen]
  obtain ⟨ends, xlat⟩ | ⟨stays, waits, c, xlat⟩ := (s.invalidate i).dropLoop.broadcast_leaves i
  · rw [xlat]
    exact ⟨gone, .inl ⟨ends, rfl⟩⟩
  · rw [xlat]
    exact ⟨gone, .inr ⟨stays, waits, rfl⟩⟩

/-- Bit 2 of an immediate below 8 asks for the broadcast. -/
theorem xinvBcast_eq {imm : Byte} {d b a : GReg} (good : xinvBad imm d b a = false) : imm.getLsbD 2 = decide (4 ≤ imm.toNat) := by
  have small : imm.toNat < 8 := by
    by_contra high
    simp [xinvBad, Nat.not_lt.mp high] at good
  rw [BitVec.getLsbD, Nat.testBit_eq_decide_div_mod_eq, decide_eq_decide]
  omega

/-- XINV that issues and whose level admits it does its work. -/
theorem Leaves.xinv {s : State} {imm : Byte} {d b a : GReg} {p : State → Prop} (issues : s.issues 5 [d, b, a] []) (good : xinvBad imm d b a = false)
    (above : 1 ≤ s.pl) (level : 4 ≤ imm.toNat → s.pl = 2 ∨ (s.pl = 1 ∧ ((s.arrived 5).reg 0x3100).getLsbD 3 = true))
    (work : p ((s.arrived 5).xinvNow (decide (4 ≤ imm.toNat))
      ⟨imm.toNat % 4, (s.seen.readG d).setWidth 16, (s.seen.readG a).toNat % 2 ^ 57, (s.seen.readG b).toNat⟩)) :
    Leaves (.xinv imm d b a) s p := by
  refine Leaves.of_work issues rfl ?_
  have admitted : ¬((s.arrived 5).pl = 0 ∨ ((s.arrived 5).pl = 1 ∧ decide (4 ≤ imm.toNat) = true
      ∧ (!((s.arrived 5).reg (pXLAT + 0x100)).getLsbD 3) = true)) := by
    rw [s.arrived_pl]
    rintro (user | ⟨sup, shared, refused⟩)
    · omega
    · obtain m | ⟨-, allowed⟩ := level (of_decide_eq_true shared)
      · omega
      · exact absurd allowed (ne_true_of_eq_false ((Bool.not_eq_true' _).mp refused))
  dsimp only
  rw [if_neg (ne_true_of_eq_false good), xinvBcast_eq good, if_neg admitted, s.arrived_g, s.arrived_g, s.arrived_g]
  exact work

theorem xinvRemovesTranslations : XinvRemovesTranslations := by
  intro s imm d b a v u i clean
  have seen : u.seen = v := s.arrived_seen 5
  refine ⟨fun issues good stores out => ⟨fun alone above => Leaves.xinv issues good above (absurd · (Nat.not_le.mpr alone)) ?_,
      fun shared level takes => Leaves.xinv issues good (by omega) (fun _ => level) ?_⟩,
    fun c waits => ⟨s.bcastDone c, ?_, ?_⟩⟩
  · rw [decide_eq_false (Nat.not_le.mpr alone), ← seen]
    exact State.xinvNow_local stores out i
  · rw [decide_eq_true shared, ← seen]
    exact State.xinvNow_bcast stores out takes
  · exact congrArg Host.Outcome.next (by rw [waits])
  · obtain ⟨ends, xlat, missing⟩ := s.bcastDone_ends c
    exact ⟨ends, congrArg Xlat.bcast xlat, missing⟩

/-! ## The steps of a walk (R324 to R327, R332) -/

theorem State.walkRead_seen (s : State) (w : Walk) (fs : List (Nat × UnitFlips)) (pa : Nat) : (s.walkRead w fs pa).1.seen = s.seen := by
  unfold State.walkRead
  split
  · rfl
  · rfl
  · split
    · rfl
    · split
      · rfl
      · split
        · split
          · rfl
          · exact State.spxRead_seen _ _ _ _ _
        · rfl
        · exact State.slip_seen _
        · have asked := s.sendReq_read _ (readReq_reads s pa 8 s.reqTid false 0 (.walk w.id))
          dsimp only
          split
          · exact (State.slip_seen _).trans asked
          · exact (State.slip_seen _).trans asked
          · exact (State.slip_seen _).trans asked
          · rfl

theorem Walk.enterSpace_kind {w w' : Walk} {v : DWord} (goes : w.enterSpace v = .inl w') : w'.kind = w.kind := by
  unfold Walk.enterSpace at goes
  split at goes
  · cases goes
  · split at goes
    · cases goes
    · cases goes
      rfl

theorem Walk.enterTable_kind {w w' : Walk} {k : Nat} {v : DWord} (goes : w.enterTable k v = .inl w') : w'.kind = w.kind := by
  unfold Walk.enterTable at goes
  split at goes
  · cases goes
  · split at goes
    · cases goes
    · split at goes <;> cases goes
      rfl

theorem Walk.enterTable_leaf {w w' : Walk} {k : Nat} {v : DWord} {e : TlbEntry} (ends : w.enterTable k v = .inr (.leaf w' e)) : w' = w := by
  unfold Walk.enterTable at ends
  split at ends
  · cases ends
  · split at ends
    · cases ends
    · split at ends <;> cases ends
      rfl

/-- A walk changes nothing that software sees, and its leaf is for the access kind that it serves. -/
structure Walked (s : State) (w : Walk) (r : State × WalkEnd) : Prop where
  seen : r.1.seen = s.seen
  kind : ∀ w' e, r.2 = .leaf w' e → w'.kind = w.kind

theorem Walked.trans {s u : State} {w w' : Walk} {r : State × WalkEnd} (seen : u.seen = s.seen) (kind : w'.kind = w.kind) (h : Walked u w' r) :
    Walked s w r :=
  ⟨h.seen.trans seen, fun w'' e leaf => (h.kind w'' e leaf).trans kind⟩

theorem Walked.fault {s u : State} (w : Walk) (seen : u.seen = s.seen) (sub lvl : Nat) : Walked s w (u, .fault sub lvl) :=
  ⟨seen, fun _ _ leaf => WalkEnd.noConfusion leaf⟩

theorem Walked.wait {s u : State} (w w' : Walk) (seen : u.seen = s.seen) : Walked s w (u, .wait w') :=
  ⟨seen, fun _ _ leaf => WalkEnd.noConfusion leaf⟩

theorem State.walkOn_walked (s : State) (w : Walk) (fs : List (Nat × UnitFlips)) (n : Nat) : Walked s w (s.walkOn w fs n) := by
  induction n generalizing s w with
  | zero => exact Walked.wait w w rfl
  | succ n ih =>
    rw [State.walkOn]
    split
    · extract_lets latch pa q
      have answered (latch : Option DWord) : (match latch with
          | some v => (s, WalkRead.word v)
          | none => s.walkRead w fs pa).1.seen = s.seen := by
        cases latch with
        | some v => rfl
        | none => exact s.walkRead_seen w fs pa
      have read : q.1.seen = s.seen := answered latch
      clear_value q
      split
      · exact .fault w read _ _
      · exact .fault w ((q.1.walkAbort_seen pa 5).trans read) _ _
      · exact .wait w w read
      · split
        · exact (ih _ _).trans read (Walk.enterSpace_kind ‹_›)
        · exact .fault w read _ _
    · rename_i base k _
      extract_lets pa q
      have read : q.1.seen = s.seen := s.walkRead_seen w fs pa
      clear_value q
      split
      · exact .fault w read _ _
      · exact .fault w ((q.1.walkAbort_seen pa k).trans read) _ _
      · exact .wait w w read
      · split
        · exact (ih _ _).trans read (Walk.enterTable_kind ‹_›)
        · rename_i ends
          exact ⟨read, fun w' e leaf => congrArg Walk.kind (Walk.enterTable_leaf (ends.trans (congrArg Sum.inr leaf)))⟩

/-! ## The walk ends (R331 to R333, R335) -/

/-- The walk in progress and what walks have found for the instruction at TR. -/
def State.found (s : State) : Option Walk × List (Bool × TlbEntry) := (s.xlat.walk, s.xlat.served)

theorem State.putFull_xlat (s : State) (n : Nat) (m : List TlbEntry) (e : TlbEntry) : (s.putFull n m e).1.xlat = s.xlat := by
  unfold State.putFull
  split <;> rfl

theorem State.found_congr {s t : State} (same : t.xlat = s.xlat) : t.found = s.found := congrArg (fun x : Xlat => (x.walk, x.served)) same

theorem State.fillL1_found (s : State) (kind : Nat) (e : TlbEntry) : (s.fillL1 kind e).found = s.found := by
  have put (n : Nat) (m : List TlbEntry) : (s.putFull n m e).1.found = s.found := State.found_congr (s.putFull_xlat n m e)
  unfold State.fillL1
  generalize (if kind = 2 then 0x10 else 0x11) = channel
  split
  · rfl
  · split
    · exact put 16 s.xlat.itlb
    · exact put 32 s.xlat.dtlb

theorem State.fillL2_found (s : State) (e : TlbEntry) : (s.fillL2 e).found = s.found := by
  have put : (s.putFull 64 s.xlat.ovf e).1.found = s.found := State.found_congr (s.putFull_xlat 64 s.xlat.ovf e)
  unfold State.fillL2
  split
  · rfl
  · split
    · rfl
    · exact put

theorem State.walkLeaf_found (s : State) (w : Walk) (e : TlbEntry) : (s.walkLeaf w e).found = (none, (w.kind == 2, e) :: s.xlat.served) := by
  unfold State.walkLeaf
  dsimp only
  split
  · rfl
  · exact (State.fillL2_found _ e).trans (State.fillL1_found _ w.kind e)

/-- The fault of a walk that stands first among those kept answers the access that asked for the walk (R331, log 90). -/
theorem State.translate_failed {s : State} {f : WalkFault} {fs : List WalkFault} (kept : s.xlat.failed = f :: fs) (on : s.untranslated = false)
    (form : canonical f.va = true) (space : s.noSpace = false) (bad : Bool) : (s.translate f.va f.kind bad).2 = .fault f.detail none := by
  simp [State.translate, on, form, space, kept]

theorem pageWalkEnds : PageWalkEnds := by
  intro s w fs walking
  obtain ⟨seen, kind⟩ := s.walkOn_walked w fs 7
  refine ⟨s.endWalk fs, rfl, ?_⟩
  rw [State.endWalk, walking]
  dsimp only
  generalize s.walkOn w fs 7 = r at seen kind ⊢
  obtain ⟨u, fin⟩ := r
  cases fin with
  | leaf w' e =>
    have found := u.walkLeaf_found w' e
    refine ⟨(u.walkLeaf_seen w' e).trans seen, congrArg Prod.fst found, ?_⟩
    have served : (u.walkLeaf w' e).xlat.served = _ := congrArg Prod.snd found
    rw [served, kind w' e rfl]
    exact List.mem_cons_self
  | fault sub lvl =>
    exact ⟨seen, rfl, fun on form space bad => State.translate_failed (f := ⟨w.va, w.kind, xlatDetail sub lvl w.kind⟩) rfl on form space bad⟩
  | wait w' =>
    exact ⟨seen, rfl⟩

/-- Settles O39: what the removal leaves stays through the broadcast and the commit (`State.xinvNow_local`, `State.xinvNow_bcast`), the broadcast's
end by `State.bcastDone_ends`; a walk by `State.walkOn_walked` and what its end leaves (`State.walkLeaf_found`, `State.translate_failed`). -/
theorem translationsComeAndGo : Obligations.TranslationsComeAndGo := ⟨xinvRemovesTranslations, pageWalkEnds⟩

end Sys2Proof.Machine
end

section
/-! PROOF. The front command (O1) and the SEC-DED code of the activation class (O30; R357): check byte and syndrome are linear over the bits of a
word, so that wrong bits show by the syndromes of their places alone. -/

namespace Sys2Proof.Machine

/-! ## A step and the queue -/

/-- Settles O1: a queue with a command at its front is not empty. -/
theorem stepRunsTheFrontCommand : Obligations.StepRunsTheFrontCommand := fun _ _ _ => rfl

/-! ## Linearity -/

theorem positionsXor_xor (a b : Nat) (ps : List Nat) : positionsXor (a ^^^ b) ps = positionsXor a ps ^^^ positionsXor b ps := by
  induction ps generalizing a b with
  | nil => exact (Nat.xor_self 0).symm
  | cons p ps ih =>
    have low : (if (a ^^^ b) % 2 = 1 then p else 0) = (if a % 2 = 1 then p else 0) ^^^ (if b % 2 = 1 then p else 0) := by
      rw [Nat.xor_mod_two_eq]
      by_cases ha : a % 2 = 1 <;> by_cases hb : b % 2 = 1 <;> simp [ha, hb] <;> omega
    rw [positionsXor, positionsXor, positionsXor, Nat.xor_div_two, ih, low]
    ac_rfl

theorem positionsXor_zero (ps : List Nat) : positionsXor 0 ps = 0 := by
  induction ps with
  | nil => rfl
  | cons p ps ih => simp [positionsXor, ih]

theorem positionsXor_two_pow (i : Nat) (ps : List Nat) : positionsXor (2 ^ i) ps = ps.getD i 0 := by
  induction ps generalizing i with
  | nil => rfl
  | cons p ps ih =>
    cases i with
    | zero => simp [positionsXor, positionsXor_zero]
    | succ i =>
      rw [positionsXor, Nat.pow_succ, Nat.mul_div_cancel _ (by decide), ih, Nat.mul_mod_left]
      simp

theorem parityNat_xor (a b n : Nat) : parityNat (a ^^^ b) n = (parityNat a n != parityNat b n) := by
  induction n generalizing a b with
  | zero => rfl
  | succ n ih =>
    have low : ((a ^^^ b) % 2 == 1) = ((a % 2 == 1) != (b % 2 == 1)) := by
      rw [Nat.xor_mod_two_eq, Nat.add_mod]
      rcases Nat.mod_two_eq_zero_or_one a with ha | ha <;> rcases Nat.mod_two_eq_zero_or_one b with hb | hb <;> rw [ha, hb] <;> rfl
    rw [parityNat, parityNat, parityNat, Nat.xor_div_two, ih, low]
    rw [Bool.bne_eq_xor]
    simp only [Bool.xor_assoc, Bool.xor_left_comm]

theorem parityNat_zero (n : Nat) : parityNat 0 n = false := by
  induction n with
  | zero => rfl
  | succ n ih => rw [parityNat, Nat.zero_div, ih]; rfl

theorem parityNat_two_pow {i n : Nat} (h : i < n) : parityNat (2 ^ i) n = true := by
  induction n generalizing i with
  | zero => omega
  | succ n ih =>
    cases i with
    | zero => rw [parityNat, pow_zero, show 1 / 2 = 0 from rfl, parityNat_zero]; rfl
    | succ i =>
      rw [parityNat, Nat.pow_succ, Nat.mul_div_cancel _ (by decide), ih (by omega), Nat.mul_mod_left]
      rfl

/-! ## XOR of many bits -/

theorem foldl_xor (b : Bool) (bs : List Bool) : bs.foldl xor b = xor b (bs.foldl xor false) := by
  induction bs generalizing b with
  | nil => simp
  | cons c bs ih => rw [List.foldl_cons, List.foldl_cons, ih, ih (xor false c), Bool.false_xor, Bool.xor_assoc]

theorem parityNat_eq_foldl (x n : Nat) : parityNat x n = ((List.range n).map x.testBit).foldl xor false := by
  induction n generalizing x with
  | zero => rfl
  | succ n ih =>
    have rest : (List.range n).map (x.testBit ∘ Nat.succ) = (List.range n).map (x / 2).testBit :=
      List.map_congr_left fun i _ => Nat.testBit_succ x i
    rw [List.range_succ_eq_map, List.map_cons, List.map_map, List.foldl_cons, foldl_xor, rest, ← ih, parityNat, Nat.testBit_zero, Bool.false_xor]
    rfl

theorem positionsXor_testBit (d k : Nat) (ps : List Nat) : (positionsXor d ps).testBit k
    = ((List.range ps.length).map fun i => d.testBit i && (ps.getD i 0).testBit k).foldl xor false := by
  induction ps generalizing d with
  | nil => simp [positionsXor]
  | cons p ps ih =>
    have rest : ((List.range ps.length).map ((fun i => d.testBit i && ((p :: ps).getD i 0).testBit k) ∘ Nat.succ))
        = (List.range ps.length).map fun i => (d / 2).testBit i && (ps.getD i 0).testBit k :=
      List.map_congr_left fun i _ => by simp [Nat.testBit_succ]
    have head : (if d % 2 = 1 then p else 0).testBit k = (d.testBit 0 && p.testBit k) := by
      rw [Nat.testBit_zero]
      split <;> simp [*]
    rw [positionsXor, Nat.testBit_xor, ih, List.length_cons, List.range_succ_eq_map, List.map_cons, List.map_map, List.foldl_cons, foldl_xor (xor false _), rest,
      head, Bool.false_xor]
    rfl

/-! ## The check byte -/

theorem positionsXor_data_lt (d : Nat) : positionsXor d dataPositions < 2 ^ 7 := positionsXor_lt d (by decide)

theorem secded_lt (d : Nat) : secded d < 256 := by
  have := positionsXor_data_lt d
  rw [secded]
  split <;> omega

theorem secded_mod (d : Nat) : secded d % 2 ^ 7 = positionsXor d dataPositions := by
  have := positionsXor_data_lt d
  rw [secded]
  split <;> omega

theorem secded_testBit (d : Nat) {k : Nat} (h : k < 7) : (secded d).testBit k = (positionsXor d dataPositions).testBit k := by
  rw [← secded_mod, Nat.testBit_mod_two_pow]
  simp [h]

theorem secded_testBit_top (d : Nat) : (secded d).testBit 7 = (parityNat d 64 != parityNat (secded d) 7) := by
  have c := positionsXor_data_lt d
  rw [← parityNat_mod (secded d), secded_mod, Nat.testBit_eq_decide_div_mod_eq, secded]
  by_cases odd : (parityNat d 64 != parityNat (positionsXor d dataPositions) 7) = true
  · rw [if_pos odd, odd, decide_eq_true (by omega)]
  · rw [if_neg odd, Bool.eq_false_iff.mpr odd, decide_eq_false (by omega)]

/-! ## Syndromes -/

/-- What a word's check bits disagree with: the positions of its data bits against the seven stored. -/
def syndrome (x : Nat) : Nat := positionsXor (x % 2 ^ 64) dataPositions ^^^ (x / 2 ^ 64 % 2 ^ 7)

theorem syndrome_xor (x y : Nat) : syndrome (x ^^^ y) = syndrome x ^^^ syndrome y := by
  simp only [syndrome, Nat.xor_mod_two_pow, Nat.xor_div_two_pow, positionsXor_xor]
  ac_rfl

/-- The syndrome of one wrong bit: the position of a data bit, the power of two of a check bit, 0 for the overall parity. -/
def placeSyndrome (i : Nat) : Nat := if i < 64 then dataPositions.getD i 0 else if i < 71 then 2 ^ (i - 64) else 0

theorem syndrome_two_pow {i : Nat} (h : i < 72) : syndrome (2 ^ i) = placeSyndrome i := by
  unfold syndrome placeSyndrome
  by_cases data : i < 64
  · have small : 2 ^ i < 2 ^ 64 := Nat.pow_lt_pow_right (by decide) data
    rw [if_pos data, Nat.mod_eq_of_lt small, Nat.div_eq_of_lt small, positionsXor_two_pow, Nat.zero_mod, Nat.xor_zero]
  · obtain ⟨k, rfl⟩ := Nat.exists_eq_add_of_le (Nat.le_of_not_lt data)
    have check : k < 8 := by omega
    rw [if_neg data, Nat.pow_add, Nat.mul_mod_right, Nat.mul_div_cancel_left _ (by decide), positionsXor_zero, Nat.zero_xor, Nat.add_sub_cancel_left]
    revert check
    clear h data
    revert k
    decide

theorem readWord_even {x : Nat} (even : parityNat x 72 = false) : (readWord x).bad = decide (syndrome x ≠ 0) := by
  simp only [readWord, even, Bool.false_eq_true, if_false]
  rw [show positionsXor (x % 2 ^ 64) dataPositions ^^^ (x / 2 ^ 64 % 128) = syndrome x from rfl]
  split <;> simp [*]

theorem readWord_odd_check {x : Nat} (odd : parityNat x 72 = true) (check : syndrome x = 0 ∨ syndrome x = 2 ^ Nat.log2 (syndrome x))
    (small : syndrome x ≤ 71) : readWord x = ⟨x % 2 ^ 64, true, false⟩ := by
  have test : (syndrome x = 0 || syndrome x = 2 ^ Nat.log2 (syndrome x) : Bool) = true := by simpa using check
  simp only [readWord, odd, if_true]
  rw [show positionsXor (x % 2 ^ 64) dataPositions ^^^ (x / 2 ^ 64 % 128) = syndrome x from rfl, if_pos test, if_pos small]

theorem readWord_odd_data {x : Nat} (odd : parityNat x 72 = true) (data : syndrome x ≠ 0 ∧ syndrome x ≠ 2 ^ Nat.log2 (syndrome x))
    (small : syndrome x ≤ 71) :
    readWord x = ⟨x % 2 ^ 64 ^^^ 2 ^ (dataPositions.findIdx fun p => p == syndrome x), true, false⟩ := by
  have test : (syndrome x = 0 || syndrome x = 2 ^ Nat.log2 (syndrome x) : Bool) = false := by simpa using data
  simp only [readWord, odd, if_true]
  rw [show positionsXor (x % 2 ^ 64) dataPositions ^^^ (x / 2 ^ 64 % 128) = syndrome x from rfl, if_neg (by rw [test]; decide),
    if_neg (Nat.not_lt.mpr small)]

/-! ## Wrong bits in a stored word -/

section
variable {d : Nat} (h : d < 2 ^ 64)
include h

theorem stored_mod : (d + 2 ^ 64 * secded d) % 2 ^ 64 = d := by omega

theorem syndrome_stored : syndrome (d + 2 ^ 64 * secded d) = 0 := by
  rw [syndrome, stored_mod h, show (d + 2 ^ 64 * secded d) / 2 ^ 64 = secded d by omega, secded_mod, Nat.xor_self]

theorem syndrome_flip {i : Nat} (hi : i < 72) : syndrome ((d + 2 ^ 64 * secded d) ^^^ 2 ^ i) = placeSyndrome i := by
  rw [syndrome_xor, syndrome_stored h, syndrome_two_pow hi, Nat.zero_xor]

theorem parityNat_flip {i : Nat} (hi : i < 72) : parityNat ((d + 2 ^ 64 * secded d) ^^^ 2 ^ i) 72 = true := by
  rw [parityNat_xor, parityNat_secded h, parityNat_two_pow hi]
  rfl

/-- One wrong bit is corrected: its syndrome is its own place. -/
theorem readWord_flip {i : Nat} (hi : i < 72) : readWord ((d + 2 ^ 64 * secded d) ^^^ 2 ^ i) = ⟨d, true, false⟩ := by
  have odd := parityNat_flip h hi
  have syn := syndrome_flip h hi
  have low : ((d + 2 ^ 64 * secded d) ^^^ 2 ^ i) % 2 ^ 64 = d ^^^ (2 ^ i % 2 ^ 64) := by rw [Nat.xor_mod_two_pow, stored_mod h]
  by_cases data : i < 64
  · have place : ∀ i < 64, placeSyndrome i ≠ 0 ∧ placeSyndrome i ≠ 2 ^ Nat.log2 (placeSyndrome i) ∧ placeSyndrome i ≤ 71
        ∧ dataPositions.findIdx (fun p => p == placeSyndrome i) = i := by decide +kernel
    obtain ⟨notZero, notPower, small, index⟩ := place i data
    rw [readWord_odd_data odd (by rw [syn]; exact ⟨notZero, notPower⟩) (by rw [syn]; exact small), syn, index, low,
      Nat.mod_eq_of_lt (Nat.pow_lt_pow_right (by decide) data), Nat.xor_assoc, Nat.xor_self, Nat.xor_zero]
  · have place : ∀ i < 72, 64 ≤ i → (placeSyndrome i = 0 ∨ placeSyndrome i = 2 ^ Nat.log2 (placeSyndrome i)) ∧ placeSyndrome i ≤ 71
        ∧ 2 ^ i % 2 ^ 64 = 0 := by decide +kernel
    obtain ⟨check, small, high⟩ := place i hi (Nat.le_of_not_lt data)
    rw [readWord_odd_check odd (by rw [syn]; exact check) (by rw [syn]; exact small), low, high, Nat.xor_zero]

/-- Two wrong bits are found: no two places have the same syndrome. -/
theorem readWord_flips {i j : Nat} (hij : i < j) (hj : j < 72) : (readWord ((d + 2 ^ 64 * secded d) ^^^ 2 ^ i ^^^ 2 ^ j)).bad = true := by
  have apart : ∀ j < 72, ∀ i < j, placeSyndrome i ≠ placeSyndrome j := by decide +kernel
  have even : parityNat ((d + 2 ^ 64 * secded d) ^^^ 2 ^ i ^^^ 2 ^ j) 72 = false := by
    rw [parityNat_xor, parityNat_flip h (hij.trans hj), parityNat_two_pow hj]
    rfl
  rw [readWord_even even, syndrome_xor, syndrome_flip h (hij.trans hj), syndrome_two_pow hj]
  simpa using fun same => apart j hj i hij (Nat.xor_eq_zero_iff.mp same)

end

/-- Settles O30: check bits by what `positionsXor` and `parityNat` are of the bits, wrong bits by their syndromes (`readWord_flip`, `readWord_flips`). -/
theorem oneFlippedBitIsCorrectedTwoAreFound : Obligations.OneFlippedBitIsCorrectedTwoAreFound := by
  have places : ((List.range 72).filter fun p => p != 0 && 2 ^ Nat.log2 p != p) = dataPositions := by decide +kernel
  refine ⟨by decide +kernel, fun d h => ?_⟩
  dsimp only
  rw [places]
  refine ⟨⟨secded_lt d, fun k hk => ?_, ?_⟩, readWord_stored h, fun i hi => readWord_flip h hi, fun i j hij hj => readWord_flips h hij hj⟩
  · rw [secded_testBit d hk, positionsXor_testBit, show dataPositions.length = 64 by decide +kernel]
  · rw [secded_testBit_top, parityNat_eq_foldl, parityNat_eq_foldl, List.foldl_append, foldl_xor (List.foldl _ _ _)]

end Sys2Proof.Machine
end

section
/-! PROOF. A store's own read of its unit can fence the core (O29 fails): that read finds the last bank of service uncorrectable, the bank retires, and the
fence hands back the register writes that waited for the tile engine. Those are served in the drain where the fence left off, and one of
RESET's page clears the sync counters. The hypotheses hold back nothing else, but leave such writes open. -/

namespace Sys2Proof.Machine

/-- A store of one byte of the scratchpad's first word. -/
def firstByte : Part := ⟨.spx 0 [false], 1, false, false, false, 0⟩

/-- A REGWR of CORE_RST by physical identity. -/
def coreRstMsg : InMsg :=
  { lane := 0, vc := 0, flits := 1, ver := 2, cls := 0, opc := 4, rsv := false, pdie := 0, ppitch := 0, ppv := false, pdv := false, phys := true
    su := false, len := 4, tid := 0, src := 0, dst := 0, stamp := 0, addr := 0xF100, tag := 0, data := leBytes 1 4 }

/-- A running core with every bank but those of group 0 retired, bank 0 about to retire, a store to it in the store buffer, and a register write kept for the
tile engine's end. -/
def lastBank : State :=
  let s := State.reset
  { s with
    rst := { Rst.init with phase := .run, wholeLow := false }
    spx := { Spx.init with groups := Vector.replicate 16 .on }
    cpu := { s.cpu with sb := [⟨0, 0, .store [(firstByte, [5#8])] false, false⟩] }
    sync := Vector.replicate 64 1#32
    tile := { s.tile with heldTuse := [(0x118, 0#32, some coreRstMsg)] }
    ras := { s.ras with retired := BitVec.allOnes 256 <<< 0x88, levels := [(0x80, 255#32)] } }

/-- Two wrong bits in the word that the store goes to. -/
theorem storeBufferPerform_lastBank : ((lastBank.meeting 0 fun s => s.performSb false [3#288]).settleHeld).sync = Vector.replicate 64 0#32 := by
  decide +kernel

/-- Refutes O29: performing the store from `lastBank` clears the sync counters. -/
theorem not_performedStoresWriteTheirBytes : ¬ Obligations.PerformedStoresWriteTheirBytes := by
  unfold Obligations.PerformedStoresWriteTheirBytes
  intro holds
  have up : ∀ u, 0 / 32 ≤ u → u < 0 / 32 + [false].length → lastBank.unitDown u = false := fun u _ h => by
    obtain rfl : u = 0 := Nat.lt_one_iff.mp h
    decide +kernel
  have settled : lastBank.settled := by
    unfold State.settled
    decide +kernel
  obtain ⟨store, -⟩ := holds lastBank _ [] firstByte 0 [false] [5#8] false [3#288] false rfl rfl (by decide) (by decide +kernel) rfl up settled
  obtain ⟨t, done, -, sees, -⟩ := store rfl
  injection done with done
  have same : t.sync = lastBank.sync := congrArg Seen.sync sees
  rw [← done] at same
  exact absurd (storeBufferPerform_lastBank.symm.trans same) (by decide +kernel)

end Sys2Proof.Machine
end

section
/-! PROOF. Requested resets begin (R425, R426, R432), and the life cycle (O51; R450, R451, R453, R454): what the entry leaves of the state, what a
grant and a refusal write. -/

namespace Sys2Proof.Machine

/-- A command that lets go what is held, where nothing is held once it has done its work. -/
theorem Leaves.of_settled {i : Instr} {s u t : State} {p : State → Prop} (done : exec i s = .next u.settleHeld) (work : u = t) (settled : t.settled)
    (holds : p t) : Leaves i s p := ⟨t, by rw [done, work, t.settleHeld_settled settled], holds⟩

theorem Leaves.of_eq {i : Instr} {s u t : State} {p : State → Prop} (done : exec i s = .next u) (work : u = t) (holds : p t) : Leaves i s p :=
  ⟨t, by rw [done, work], holds⟩

theorem State.quiet.noneWaiting {s : State} (quiet : s.quiet) : s.tally.waiting = [] := by
  obtain ⟨⟨-, -, -, waiting, -⟩, -⟩ := quiet
  exact waiting

/-! ## The temperature (R405, R406) -/

/-- The PWR port once temp_code has been held against the thresholds. -/
def State.tempPwr (s : State) : Pwr :=
  { s.pwr with
    hotSeen := decide (s.hotAt ≤ s.pwr.temp.toNat), critSeen := decide (s.critAt ≤ s.pwr.temp.toNat)
    tempHold := decide (s.critAt ≤ s.pwr.temp.toNat)
      || (s.pwr.tempHold && decide ((if s.critAt ≤ s.hotAt then s.critAt else s.hotAt) ≤ s.pwr.temp.toNat)) }

theorem State.raiseErr_onlyRegs (s : State) (p : Nat) (e : ErrEvt) : OnlyRegs s (s.raiseErr p e) (eventKeys p) :=
  (s.raise_onlyRegs p e.bit).trans (State.capture_onlyRegs _ p e)

theorem State.checkTemp_onlyRegs (s : State) : OnlyRegs { s with pwr := s.tempPwr } s.checkTemp (eventKeys pWEIGH) := by
  let u : State := { s with pwr := s.tempPwr }
  let v : State := if decide (s.hotAt ≤ s.pwr.temp.toNat) && !s.pwr.hotSeen then u.raise pWEIGH 1 else u
  have hot : OnlyRegs u v (eventKeys pWEIGH) := by
    dsimp only [v]
    split
    · exact u.raise_onlyRegs pWEIGH 1
    · exact OnlyRegs.refl u _
  refine hot.trans ?_
  change OnlyRegs v (if decide (s.critAt ≤ s.pwr.temp.toNat) && !s.pwr.critSeen then v.raiseErr pWEIGH ⟨2, s.pwr.temp.toNat, v.stamp, 0#64⟩ else v) _
  split
  · exact v.raiseErr_onlyRegs pWEIGH _
  · exact OnlyRegs.refl v _

/-! ## The entry of a requested reset (R425, R426) -/

theorem State.unifiedWindow_regs (s : State) : ∃ m, s.unifiedWindow = { s with regs := m } := by
  unfold State.unifiedWindow
  split
  · exact ⟨_, rfl⟩
  · exact ⟨s.regs, rfl⟩

theorem State.resetRegs_leaves (s : State) (sleep : Bool) : ∃ regs groups, s.resetRegs sleep = { s with
    regs := regs, staged := [], localHold := Hold.init, remoteHold := Hold.init, spx := { s.spx with groups := groups } } := by
  unfold State.resetRegs
  obtain ⟨m, window⟩ := State.unifiedWindow_regs { s with
    regs := s.regs.filter (fun c => survives sleep c.1), staged := [], localHold := Hold.init, remoteHold := Hold.init }
  dsimp only
  rw [window]
  exact ⟨_, _, rfl⟩

/-- Before its phases begin, the entry has stopped the work in progress, given registers and the held parts of pairs their values after reset,
and let the bank groups follow. -/
theorem State.enterReset_begins (s : State) (sleep : Bool) : ∃ regs groups pwr, pwr.level = 0 ∧ pwr.railOk = s.pwr.railOk
    ∧ ((s.abandonWork.resetRegs sleep).checkTemp).bump (pRESET + 0x118) = { s.abandonWork with
        regs := regs, staged := [], localHold := Hold.init, remoteHold := Hold.init, spx := { s.spx with groups := groups }, pwr := pwr } := by
  obtain ⟨regs, groups, reset⟩ := s.abandonWork.resetRegs_leaves sleep
  obtain ⟨⟨regs', temp⟩, -⟩ := (s.abandonWork.resetRegs sleep).checkTemp_onlyRegs
  rw [temp, reset]
  refine ⟨_, groups, _, ?_, ?_, rfl⟩ <;> rfl

theorem State.enterReset_drains {s : State} (waiting : s.tally.waiting = []) (kind : Nat) (sleep force : Bool) :
    Draining s (s.enterReset kind sleep force) kind := by
  obtain ⟨regs, groups, pwr, level, -, begun⟩ := s.enterReset_begins sleep
  unfold State.enterReset
  dsimp only
  rw [begun]
  refine ⟨rfl, rfl, rfl, rfl, rfl, ?_, rfl, level, rfl⟩
  dsimp only [State.abandonWork]
  rw [waiting]
  rfl

theorem State.enterReset_life (s : State) (kind : Nat) (sleep force : Bool) : (s.enterReset kind sleep force).life = { s.life with
    opening := none, chal := none, resp := List.replicate 16 0#32, verifying := false, xreq := 0 } := by
  obtain ⟨regs, groups, pwr, -, -, begun⟩ := s.enterReset_begins sleep
  unfold State.enterReset
  dsimp only
  rw [begun]
  rfl

theorem State.enterReset_ports (s : State) (kind : Nat) (sleep force : Bool) :
    (s.enterReset kind sleep force).mchkOut = s.mchkOut ∧ (s.enterReset kind sleep force).pwr.railOk = s.pwr.railOk := by
  obtain ⟨regs, groups, pwr, -, rails, begun⟩ := s.enterReset_begins sleep
  unfold State.enterReset
  dsimp only
  rw [begun]
  exact ⟨rfl, rails⟩

/-- Where nothing is held and no register write waits, nothing is held once a reset has begun. -/
theorem State.quiet.enterReset {s : State} (quiet : s.quiet) (kind : Nat) (sleep force : Bool) : (s.enterReset kind sleep force).settled := by
  obtain ⟨⟨held, lost, xinvs, waiting, -, leaving, miss⟩, -, unanswered⟩ := quiet
  obtain ⟨regs, groups, pwr, -, -, begun⟩ := s.enterReset_begins sleep
  unfold State.enterReset
  dsimp only
  rw [begun]
  refine ⟨?_, lost, xinvs, waiting, rfl, leaving, miss⟩
  change s.tile.unanswered ++ s.net.held = []
  rw [unanswered, held, List.append_nil]

theorem State.requestReset_run {s : State} (low : s.rst.wholeLow = false) (run : s.rst.phase = .run) (power : s.pwr.state.toNat < 2) (kind : Nat)
    (force : Bool) : s.requestReset kind force = s.enterReset kind false force := by
  unfold State.requestReset
  simp only [low, run, Bool.false_eq_true, if_false]
  split <;> first | omega | rfl

theorem State.reg_congr {s t : State} (h : t.regs = s.regs) (k : Nat) : t.reg k = s.reg k := by
  rw [State.reg, h, State.reg]

theorem State.unifiedWindow_keepsRegs (s : State) : KeepsRegs s s.unifiedWindow [0x6204, 0x6208] := by
  unfold State.unifiedWindow
  split
  · exact ((s.setReg_keepsRegs _ _).mono (by decide)).trans ((State.setReg_keepsRegs _ _ _).mono (by decide))
  · exact KeepsRegs.refl s _

theorem State.resetRegs_reg (s : State) {sleep : Bool} {k : Nat} (stays : survives sleep k = true) (other : k ∉ [0x6204, 0x6208]) :
    (s.resetRegs sleep).reg k = s.reg k := by
  let u : State := { s with
    regs := s.regs.filter (fun c => survives sleep c.1), staged := [], localHold := Hold.init, remoteHold := Hold.init }
  have kept : u.reg k = s.reg k := by
    rw [State.reg, WMap.get?_filter_in _ (survives sleep) k stays, State.reg]
  have same : (s.resetRegs sleep).regs = u.unifiedWindow.regs := rfl
  rw [State.reg_congr same, u.unifiedWindow_keepsRegs k other, kept]

/-- Registers that outlive a requested reset and that its entry does not write. -/
theorem State.enterReset_reg (s : State) {kind k : Nat} {sleep force : Bool} (stays : survives sleep k = true)
    (window : k ∉ [0x6204, 0x6208]) (event : k ∉ eventKeys pWEIGH) (count : k ≠ pRESET + 0x118) :
    (s.enterReset kind sleep force).reg k = s.reg k := by
  have same : (s.enterReset kind sleep force).regs = (((s.abandonWork.resetRegs sleep).checkTemp).bump (pRESET + 0x118)).regs := rfl
  let reset := s.abandonWork.resetRegs sleep
  have temp := reset.checkTemp_onlyRegs.2 k event
  have power : ({ reset with pwr := reset.tempPwr } : State).reg k = reset.reg k := State.reg_congr rfl k
  have work : s.abandonWork.reg k = s.reg k := State.reg_congr rfl k
  rw [State.reg_congr same, State.bump, State.addReg, State.setReg_reg_ne _ _ _ _ count, temp, power, s.abandonWork.resetRegs_reg stays window, work]

/-! ## Writes of the LIFE and RESET pages (R450, R453, R416) -/

theorem State.accessWrite_word {s : State} {who : Accessor} {k : Nat} (reaches : s.reaches who (k / 0x1000) = true) (free : k ∉ waitKeys)
    (low : isPairLow k = false) (high : isPairLow (k - 4) = false) (v : Word) : s.accessWrite who k v = s.latchWfi.wordWrite k v none := by
  have serves : s.latchWfi.serves who k v := ⟨by rwa [State.latchWfi_reaches], State.writeWaits_eq_false free _ _ _⟩
  rw [State.accessWrite_of_serves serves, State.writeReg_word low high]

theorem State.accessWrite_xreq {s : State} {who : Accessor} (reaches : s.reaches who 0xE = true) (v : Word) :
    s.accessWrite who (pLIFE + 0x108) v = s.latchWfi.lifeXreq v :=
  State.accessWrite_word reaches (by decide) (by decide +kernel) (by decide +kernel) v

theorem State.accessWrite_sessOpen {s : State} {who : Accessor} (reaches : s.reaches who 0xE = true) :
    s.accessWrite who (pLIFE + 0x110) 1#32 = s.latchWfi.lifeOpen :=
  State.accessWrite_word reaches (by decide) (by decide +kernel) (by decide +kernel) 1#32

theorem State.accessWrite_coreRst {s : State} {who : Accessor} (reaches : s.reaches who 0xF = true) :
    s.accessWrite who (pRESET + 0x100) 1#32 = s.latchWfi.requestReset 0 false :=
  State.accessWrite_word reaches (by decide) (by decide +kernel) (by decide +kernel) 1#32

theorem State.accessWrite_release {s : State} {who : Accessor} (reaches : s.reaches who 0xF = true) :
    s.accessWrite who (pRESET + 0x100) 0x100#32 = s.latchWfi.askRelease :=
  State.accessWrite_word reaches (by decide) (by decide +kernel) (by decide +kernel) 0x100#32

theorem State.quiet.latchWfi {s : State} (quiet : s.quiet) : s.latchWfi.quiet := by
  rw [State.latchWfi_wait]
  exact quiet

/-! ## Transitions (R450, R451) -/

theorem State.lifeFail_onlyRegs (s : State) (result : Nat) : OnlyRegs s (s.lifeFail result) ((pLIFE + 0x10C) :: eventKeys pLIFE) :=
  (s.setReg_onlyRegs _ List.mem_cons_self).trans
    ⟨(State.raiseErr_onlyRegs _ _ _).1, (State.raiseErr_onlyRegs _ _ _).2.mono (List.subset_cons_self _ _)⟩

theorem State.lifeFail_refused (s : State) {result : Nat} (small : result < 2 ^ 8) : Refused s (s.lifeFail result) result := by
  obtain ⟨m, only⟩ := (s.lifeFail_onlyRegs result).1
  let u := s.setReg (pLIFE + 0x10C) (setFld (s.reg (pLIFE + 0x10C)) 0 8 result)
  have xstat : (s.lifeFail result).reg 0xE10C = u.reg 0xE10C := (u.raiseErr_onlyRegs pLIFE _).2 _ (by decide)
  have event : (s.lifeFail result).reg 0xE010 = u.reg 0xE010 ||| 4#32 :=
    (State.capture_evtRaw _ _ _).trans ((u.raise_reg pLIFE 2 0xE010).trans (if_pos rfl))
  refine ⟨?_, ?_, by rw [only]; rfl, by rw [only], by rw [only], by rw [only]⟩
  · rw [xstat, show u.reg 0xE10C = _ from s.setReg_reg _ _, fld_setFld_low _ _ (by decide), Nat.mod_eq_of_lt small]
  · rw [event, BitVec.getLsbD_or]
    simp

theorem State.settled.lifeFail {s : State} (settled : s.settled) (result : Nat) : (s.lifeFail result).settled := by
  obtain ⟨m, only⟩ := (s.lifeFail_onlyRegs result).1
  rw [only]
  exact settled

/-- The state in which a grant has been recorded, its reset not yet entered. -/
def State.grantNoted (s : State) (target : Nat) : State :=
  let u := (s.setReg (pLIFE + 0x10C) (w32 (2 ^ 31 + target * 2 ^ 8 + 1))).raise pLIFE 1
  State.dbgRecheck { u with life := { u.life with granted := some (BitVec.ofNat 3 target) } }

theorem State.quiet.grantNoted {s : State} (quiet : s.quiet) (target : Nat) : (s.grantNoted target).quiet := by
  obtain ⟨⟨held, lost, xinvs, waiting, m1, leaving, miss⟩, tuse, unanswered⟩ := quiet
  refine ⟨⟨held, lost, xinvs, waiting, m1, leaving, ?_⟩, tuse, unanswered⟩
  change (if _ then s.dbg.miss else none) = none
  rw [miss, ite_self]

section
variable {s : State} (low : s.rst.wholeLow = false) (run : s.rst.phase = .run) (power : s.pwr.state.toNat < 2)
include low run power

theorem State.lifeGrant_run (target : Nat) : s.lifeGrant target = (s.grantNoted target).enterReset 0 false true := by
  have notWaiting : ((s.grantNoted target).rst.phase == .wait && !(s.grantNoted target).rst.wholeLow) = false := by
    change (s.rst.phase == .wait && !s.rst.wholeLow) = false
    rw [run]
    rfl
  refine Eq.trans (if_neg ?_) (State.requestReset_run (s := s.grantNoted target) low run power 0 true)
  exact Bool.eq_false_iff.mp notWaiting

theorem State.quiet.lifeGrant (quiet : s.quiet) (target : Nat) : Granted s (s.lifeGrant target) target ∧ (s.lifeGrant target).settled := by
  have noted := quiet.grantNoted target
  obtain ⟨phase, kind, fence, queue, div, tally, sees, level, tick⟩ := State.enterReset_drains noted.noneWaiting 0 false true
  have life := (s.grantNoted target).enterReset_life 0 false true
  have xstat : (s.grantNoted target).reg 0xE10C = w32 (2 ^ 31 + target * 2 ^ 8 + 1) :=
    (State.raise_onlyRegs _ pLIFE 1).2 0xE10C (by decide) |>.trans (s.setReg_reg _ _)
  have kept := State.enterReset_reg (s.grantNoted target) (kind := 0) (k := 0xE10C) (sleep := false) (force := true) (by decide +kernel) (by decide)
    (by decide) (by decide)
  rw [State.lifeGrant_run low run power target]
  exact ⟨⟨by rw [life]; rfl, by rw [life]; rfl, kept.trans xstat, rfl, phase, kind, fence, queue, div, tally, sees, level, tick⟩,
    noted.enterReset 0 false true⟩

end

/-! ## LIFE_XREQ (R450, R453) -/

theorem xreqConfirmed_iff (v : Word) : xreqConfirmed v = true ↔ v.toNat / 2 ^ 16 = 0x4C43 := by
  have key : fld v 16 16 = v.toNat / 2 ^ 16 := Nat.mod_eq_of_lt (by have := v.isLt; omega)
  rw [xreqConfirmed, key, beq_iff_eq]

theorem xreqTarget_eq (v : Word) : xreqTarget v = v.toNat % 8 := by simp [xreqTarget, fld]

section
variable {s : State} (idle : s.life.verifying = false) {v : Word}
include idle

theorem State.lifeXreq_unconfirmed (h : v.toNat / 2 ^ 16 ≠ 0x4C43) : s.lifeXreq v = s.lifeFail 3 := by
  have wrong : xreqConfirmed v = false := Bool.eq_false_iff.mpr fun c => h ((xreqConfirmed_iff v).mp c)
  simp [State.lifeXreq, idle, wrong]

variable (confirmed : v.toNat / 2 ^ 16 = 0x4C43)
include confirmed

theorem State.lifeXreq_refused (h : ¬(transitionOk s.life.shadow.toNat (v.toNat % 8) = true ∧ s.life.granted = none)) :
    s.lifeXreq v = s.lifeFail 2 := by
  have refused : (!transitionOk s.life.shadow.toNat (v.toNat % 8) || s.life.granted.isSome) = true := by
    rw [Bool.or_eq_true, Bool.not_eq_true', ← Option.ne_none_iff_isSome, ← Bool.not_eq_true]
    exact Classical.not_and_iff_not_or_not.mp h
  rw [State.lifeXreq, idle, if_neg Bool.false_ne_true, (xreqConfirmed_iff v).mpr confirmed, if_neg (by decide), xreqTarget_eq, if_pos refused]

variable (table : transitionOk s.life.shadow.toNat (v.toNat % 8) = true) (free : s.life.granted = none)
include table free

theorem State.lifeXreq_allowed : s.lifeXreq v = if v.toNat % 8 = 3 then
    if s.life.lockout then s.lifeFail 6 else { s with life := { s.life with xreq := v } } else s.lifeGrant (v.toNat % 8) := by
  have allowed : ¬(!transitionOk s.life.shadow.toNat (v.toNat % 8) || s.life.granted.isSome) = true := by
    rw [table, free]
    decide
  rw [State.lifeXreq, idle, if_neg Bool.false_ne_true, (xreqConfirmed_iff v).mpr confirmed, if_neg (by decide), xreqTarget_eq, if_neg allowed]

end

section
variable {s : State} (quiet : s.quiet) (low : s.rst.wholeLow = false) (run : s.rst.phase = .run) (power : s.pwr.state.toNat < 2)
include quiet low run power

/-- What a write of LIFE_XREQ does outside a verification; nothing is held once it has been done. -/
theorem State.quiet.lifeXreq (idle : s.life.verifying = false) (v : Word) : Requested s (s.lifeXreq v) v ∧ (s.lifeXreq v).settled := by
  have settled := quiet.1
  by_cases confirmed : v.toNat / 2 ^ 16 = 0x4C43
  case neg =>
    rw [State.lifeXreq_unconfirmed idle confirmed]
    exact ⟨⟨fun _ => s.lifeFail_refused (by decide), fun h => absurd h confirmed, fun h => absurd h confirmed, fun h => absurd h confirmed,
      fun h => absurd h confirmed⟩, settled.lifeFail 3⟩
  by_cases ok : transitionOk s.life.shadow.toNat (v.toNat % 8) = true ∧ s.life.granted = none
  case neg =>
    rw [State.lifeXreq_refused idle confirmed ok]
    exact ⟨⟨fun h => absurd confirmed h, fun _ _ => s.lifeFail_refused (by decide), fun _ h => absurd h ok, fun _ h => absurd h ok,
      fun _ h => absurd h ok⟩, settled.lifeFail 2⟩
  obtain ⟨table, free⟩ := ok
  rw [State.lifeXreq_allowed idle confirmed table free]
  by_cases returned : v.toNat % 8 = 3
  case neg =>
    rw [if_neg returned]
    obtain ⟨granted, idle⟩ := quiet.lifeGrant low run power (v.toNat % 8)
    exact ⟨⟨fun h => absurd confirmed h, fun _ h => absurd ⟨table, free⟩ h, fun _ _ h => absurd h returned, fun _ _ h => absurd h returned,
      fun _ _ _ => granted⟩, idle⟩
  rw [if_pos returned]
  cases lockout : s.life.lockout with
  | true =>
    exact ⟨⟨fun h => absurd confirmed h, fun _ h => absurd ⟨table, free⟩ h, fun _ _ _ _ => s.lifeFail_refused (by decide),
      fun _ _ _ h => absurd (lockout.symm.trans h) (by decide), fun _ _ h => absurd returned h⟩, settled.lifeFail 6⟩
  | false =>
    exact ⟨⟨fun h => absurd confirmed h, fun _ h => absurd ⟨table, free⟩ h, fun _ _ _ h => absurd (lockout.symm.trans h) (by decide),
      fun _ _ _ _ => ⟨rfl, rfl, rfl⟩, fun _ _ h => absurd returned h⟩, settled⟩

end

/-! ## Sessions (R453, R454) -/

theorem State.settled.verifyFail {s : State} (settled : s.settled) (result : Nat) : (s.verifyFail result).settled := by
  unfold State.verifyFail
  exact State.settled.lifeFail (s := { s with life := { s.life with chal := none, verifying := false, fails := _, lockout := _ } }) settled result

theorem State.verifyFail_fails (s : State) {result : Nat} (small : result < 2 ^ 8) : Refused s (s.verifyFail result) result
    ∧ (s.verifyFail result).life = { s.life with
        chal := none, verifying := false, fails := min 8 (s.life.fails + 1), lockout := s.life.lockout || min 8 (s.life.fails + 1) == 8 } := by
  let u : State := { s with life := { s.life with
    chal := none, verifying := false, fails := min 8 (s.life.fails + 1), lockout := s.life.lockout || min 8 (s.life.fails + 1) == 8 } }
  obtain ⟨m, only⟩ := (u.lifeFail_onlyRegs result).1
  exact ⟨u.lifeFail_refused small, congrArg State.life only⟩

theorem State.lifeSubmit_submitted {s : State} (settled : s.settled) (idle : s.life.verifying = false) (noLockout : s.life.lockout = false)
    (production : s.life.shadow = 2#3) (free : s.life.granted = none) {v : Word} (confirmed : v.toNat / 2 ^ 16 = 0x4C43)
    (returned : v.toNat % 8 = 3) : Submitted s (s.lifeSubmit v) ∧ (s.lifeSubmit v).settled := by
  have asked : (xreqConfirmed v && xreqTarget v == 3 && s.life.shadow == 2#3 && s.life.granted.isNone) = true := by
    simp [(xreqConfirmed_iff v).mpr confirmed, xreqTarget_eq, returned, production, free]
  have submit : s.lifeSubmit v = if s.life.chal.isSome then { s with life := { s.life with verifying := true, xreq := 0 } } else s.verifyFail 4 := by
    rw [State.lifeSubmit, idle, noLockout, Bool.or_self, if_neg Bool.false_ne_true, if_pos asked]
  rw [submit]
  cases chal : s.life.chal with
  | some c => exact ⟨⟨fun _ => ⟨rfl, rfl, rfl⟩, fun h => absurd (chal.symm.trans h) (by simp)⟩, settled⟩
  | none =>
    obtain ⟨refused, life⟩ := s.verifyFail_fails (result := 4) (by decide)
    exact ⟨⟨fun h => absurd h (by simp [chal]), fun _ => ⟨refused, congrArg Life.fails life⟩⟩, settled.verifyFail 4⟩

theorem State.lifeOpen_opened {s : State} (idle : s.life.verifying = false) (noLockout : s.life.lockout = false)
    (production : s.life.shadow = 2#3) : Opened s s.lifeOpen := by
  have fills : s.lifeOpen = { s with
      fresh := s.fresh + 1, life := { s.life with opening := some ((List.range 8).map (Config.entropy s.fresh)), chal := none } } := by
    simp [State.lifeOpen, idle, noLockout, production]
  rw [fills]
  exact ⟨_, by simp, rfl, rfl⟩

theorem State.verifyDone_of_chal {s : State} (busy : s.life.verifying = true) {c : List Word} (chal : s.life.chal = some c) :
    s.verifyDone = if Config.signatureGood c (s.physWord ||| (if s.porter then 0x40000#32 else 0#32)) s.life.resp then
      ({ s with life := { s.life with chal := none, verifying := false } } : State).lifeGrant 3 else s.verifyFail 5 := by
  simp only [State.verifyDone, busy, chal, Bool.not_true, Bool.false_eq_true, if_false]

theorem lockout_iff (lockout : Bool) (n : Nat) : (lockout || min 8 (n + 1) == 8) = true ↔ lockout = true ∨ 7 ≤ n := by
  rw [Bool.or_eq_true, beq_iff_eq]
  exact or_congr_right (by omega)

/-- Settles O51: a request by `State.quiet.lifeXreq`, a session by what OPEN, SUBMIT and the verification's end leave; nothing is held then. -/
theorem lifeCycleRequestsAndSessions : Obligations.LifeCycleRequestsAndSessions := by
  intro s quiet low run power
  refine ⟨fun who v reaches idle => ⟨?_, fun noLockout production => ?_, fun noLockout production free confirmed returned => ?_⟩, fun ws opening => ?_,
    fun idle => ?_, fun c busy chal => ⟨fun good => ?_, fun bad => ?_⟩⟩
  · have noted := quiet.latchWfi
    have work := State.accessWrite_xreq reaches v
    rw [State.latchWfi_wait] at noted work
    obtain ⟨requested, settled⟩ := noted.lifeXreq low run power idle v
    exact Leaves.of_settled rfl work settled requested
  · have work := State.accessWrite_sessOpen reaches
    rw [State.latchWfi_wait] at work
    exact Leaves.of_eq rfl work (State.lifeOpen_opened (s := { s with cpu := { s.cpu with wait := _ } }) idle noLockout production)
  · obtain ⟨submitted, settled⟩ := State.lifeSubmit_submitted quiet.1 idle noLockout production free confirmed returned
    have work : exec (.lifeSessSubmit who v) s = .next (s.lifeSubmit v).settleHeld := congrArg _ (if_pos reaches)
    exact Leaves.of_settled work rfl settled submitted
  · rw [← opening]
    exact congrArg _ (if_pos (by rw [opening]; rfl))
  · exact congrArg _ (if_neg (by rw [idle]; decide))
  · have work := (State.verifyDone_of_chal busy chal).trans (if_pos good)
    let ended : State := { s with life := { s.life with chal := none, verifying := false } }
    obtain ⟨granted, settled⟩ := State.quiet.lifeGrant (s := ended) low run power quiet 3
    exact Leaves.of_settled rfl work settled granted
  · have work := (State.verifyDone_of_chal busy chal).trans (if_neg (by rw [bad]; decide))
    obtain ⟨refused, life⟩ := s.verifyFail_fails (result := 5) (by decide)
    refine Leaves.of_settled rfl work (quiet.1.verifyFail 5) ⟨refused, ?_⟩
    rw [life]
    exact ⟨rfl, rfl, rfl, lockout_iff _ _⟩

end Sys2Proof.Machine
end

section
/-! PROOF. The Weighbridge, the temperature, power states and rails (O50; R31, R400 to R411): what of the governor's inputs the passing of time
leaves, the cycle of L's next step, a rail that fails. -/

namespace Sys2Proof.Machine

/-! ## What time leaves of the governor (R401) -/

/-- What L and T depend on besides the register map. -/
def State.governor (s : State) : Bool × Bool × Byte × BitVec 3 × Nat × Nat × Pitch × Straps :=
  (s.arrayReady, s.pwr.tempHold, s.pwr.temp, s.pwr.throttle, s.pwr.level, s.pwr.since, s.pitch, s.straps)

/-- `t` is `s` after cycles in which only counters moved, none of them L or the time since it changed. -/
structure Governed (s t : State) : Prop where
  counts : OnlyCounts s t
  governor : t.governor = s.governor

theorem Governed.refl (s : State) : Governed s s := ⟨OnlyCounts.refl s, rfl⟩

theorem Governed.trans {s t u : State} (h : Governed s t) (h' : Governed t u) : Governed s u :=
  ⟨h.counts.trans h'.counts, h'.governor.trans h.governor⟩

section
variable {s t : State} (h : Governed s t)
include h

theorem Governed.level : t.pwr.level = s.pwr.level := congrArg (fun x => x.2.2.2.2.1) h.governor
theorem Governed.since : t.pwr.since = s.pwr.since := congrArg (fun x => x.2.2.2.2.2.1) h.governor

theorem Governed.reg {k : Nat} (other : k ∉ cycleKeys) : t.reg k = s.reg k := h.counts.regs k other

theorem Governed.rampStep : t.rampStep = s.rampStep := by
  rw [State.rampStep, State.rampStep, h.reg (by decide)]

/-- T, with the allowance not in force. -/
theorem Governed.target (off : s.enAllow = false) : t.target = s.target := by
  have ready : t.arrayReady = s.arrayReady := congrArg (fun x => x.1) h.governor
  have hold : t.pwr.tempHold = s.pwr.tempHold := congrArg (fun x => x.2.1) h.governor
  have temp : t.pwr.temp = s.pwr.temp := congrArg (fun x => x.2.2.1) h.governor
  have throttle : t.pwr.throttle = s.pwr.throttle := congrArg (fun x => x.2.2.2.1) h.governor
  have off' : t.enAllow = false := h.counts.enAllow.trans off
  rw [State.target, State.target, State.allowHold, State.allowHold, off, off', ready, hold, State.throttle, State.throttle, State.hotAt, State.hotAt,
    h.reg (k := pWEIGH + 0x108) (by decide), temp, throttle, Bool.false_and, Bool.false_and]

theorem Governed.staggerPoint : t.staggerPoint = s.staggerPoint := by
  have pitch : t.pitch = s.pitch := congrArg (fun x => x.2.2.2.2.2.2.1) h.governor
  have straps : t.straps = s.straps := congrArg (fun x => x.2.2.2.2.2.2.2) h.governor
  have mapId : t.mapId = s.mapId := by
    rw [State.mapId, State.mapId, State.ownCore, State.ownCore, State.ownDie, State.ownDie, State.pkg, State.pkg, pitch, straps,
      h.reg (k := pPITCH + 0x114) (by decide)]
  rw [State.staggerPoint, State.staggerPoint, State.logical, State.logical, State.liveId, State.liveId, mapId, h.reg (k := pWEIGH + 0x104) (by decide)]

end

theorem State.leak_governed (s : State) : Governed s s.leak := by
  refine ⟨s.leak_onlyCounts, ?_⟩
  unfold State.leak
  split <;> rfl

theorem State.countGap_governor (s : State) (a n : Nat) : (s.countGap a n).governor = s.governor := by
  unfold State.countGap
  split <;> rfl

theorem State.countCycles_governed (s : State) (a n : Nat) : Governed s (s.countCycles a n) := by
  refine ⟨s.countCycles_onlyCounts a n, ?_⟩
  unfold State.countCycles
  extract_lets p cycles energy gap
  have counted : cycles.governor = s.governor := by
    dsimp only [cycles]
    split <;> rfl
  have charged : energy.governor = cycles.governor := by
    dsimp only [energy]
    split
    · rfl
    · split <;> rfl
  exact (State.countGap_governor energy a n).trans (charged.trans counted)

/-! ## L's next step (R401) -/

/-- A step of L is due in the cycle that begins, of which time since the last change has been counted. -/
theorem State.stepLevel_steps {s : State} (ramp : s.enRamp = true) (apart : s.pwr.level ≠ s.target) (due : s.rampStep ≤ s.pwr.since)
    (ready : s.target < s.pwr.level ∨ s.staggerPoint ≤ s.bell.c) : s.stepLevel
      = { s with pwr := { s.pwr with level := if s.target < s.pwr.level then s.pwr.level - 1 else s.pwr.level + 1, since := 0 } } := by
  refine if_pos ?_
  simp only [ramp, bne_iff_ne, apart, due, Bool.and_eq_true, Bool.or_eq_true, decide_eq_true_eq, ne_eq, not_false_eq_true, ready, and_self]

theorem State.levelSync_ramp {s : State} (ramp : s.enRamp = true) : s.levelSync = s := if_pos (by rw [ramp, Bool.true_or])

theorem State.elapse_target (s : State) (n : Nat) : (s.elapse n).target = s.target := rfl
theorem State.elapse_staggerPoint (s : State) (n : Nat) : (s.elapse n).staggerPoint = s.staggerPoint := rfl

/-- The cycle in which L's step is due, `n` cycles after the present one (R401): L moves by one step toward T. -/
theorem State.cycleAt_steps {s : State} {a : Nat} (off : s.enAllow = false) (ramp : s.enRamp = true) (apart : s.pwr.level ≠ s.target)
    (due : s.rampStep ≤ s.pwr.since + 1) (ready : s.target < s.pwr.level ∨ s.staggerPoint ≤ min a (s.period - 1)) :
    OnlyCounts (s.setAge a) (s.cycleAt a) ∧ (s.cycleAt a).pwr.since = 0
      ∧ (s.cycleAt a).pwr.level = if s.target < s.pwr.level then s.pwr.level - 1 else s.pwr.level + 1 := by
  let u := (s.setAge a).elapse 1
  have target : u.target = s.target := by
    have off' : u.enAllow = false := off
    rw [State.target, State.target, State.allowHold, State.allowHold, off, off', Bool.false_and, Bool.false_and]
    rfl
  have stepped : u.stepLevel = _ := State.stepLevel_steps (s := u) ramp (by rw [target]; exact apart) due (by rw [target]; exact ready)
  have counted := State.countCycles_governed u.stepLevel a 1
  refine ⟨s.cycleAt_onlyCounts a, counted.since.trans (congrArg (fun v : State => v.pwr.since) stepped), ?_⟩
  rw [← target]
  exact counted.level.trans (congrArg (fun v : State => v.pwr.level) stepped)

section
variable {s : State} (off : s.enAllow = false) (ramp : s.enRamp = true)
include off ramp

theorem State.passTo_now {a : Nat} (k : Nat) (there : a ≤ s.age) : s.passTo a k = s := by
  cases k with
  | zero => rfl
  | succ k =>
    rw [State.passTo]
    dsimp only
    rw [State.checkAllow_off off, State.levelSync_ramp ramp, if_pos there]

variable (split : s.bell.splitDone = true) (apply : s.bell.applyDone = true)
include split apply

/-- Time goes on over cycles in which only counters move, to the cycle of L's next step. -/
theorem State.passTo_ramp {a : Nat} (k : Nat) (later : s.age < a) (step : s.rampAge = some a) :
    s.passTo a (k + 1) = ((s.countCycles (s.age + 1) (a - 1 - s.age)).elapse (a - 1 - s.age)).cycleAt a := by
  have noSplit : s.splitAhead = false := by rw [State.splitAhead, split]; rfl
  have noApply : s.applyAhead = false := by rw [State.applyAhead, apply]; rfl
  have noExhaust : s.exhaustAge = none := by simp [State.exhaustAge, off]
  have next : s.nextAge a = a := by
    simp only [State.nextAge, step, noExhaust, noSplit, noApply, Option.getD_some, Option.getD_none, Nat.min_self, Bool.false_eq_true, if_false]
  let v := (s.countCycles (s.age + 1) (a - 1 - s.age)).elapse (a - 1 - s.age)
  have counts : OnlyCounts s v := (s.countCycles_onlyCounts _ _).trans (State.elapse_onlyCounts _ _)
  have there : OnlyCounts (s.setAge a) (v.cycleAt a) := (counts.setAge a).trans (v.cycleAt_onlyCounts a)
  have off' : (v.cycleAt a).enAllow = false := there.enAllow.trans off
  have acts : (v.cycleAt a).offsetActs false false = v.cycleAt a := rfl
  rw [State.passTo]
  dsimp only
  rw [State.checkAllow_off off, State.levelSync_ramp ramp, if_neg (Nat.not_le.mpr later), next, noSplit, noApply, acts, State.checkAllow_off off']
  exact State.passTo_now off' (there.enRamp.trans ramp) k (by rw [there.age, s.setAge_age])

end

/-- RAMP_LEVEL_STEP reaches that cycle, with neither SPLIT nor A nor the allowance before it. -/
theorem State.rampMove_steps {s : State} (on : s.clockOn = true) (off : s.enAllow = false) (ramp : s.enRamp = true) (split : s.bell.splitDone = true)
    (apply : s.bell.applyDone = true) (within : s.bell.c ≤ s.period - 1) (apart : s.pwr.level ≠ s.target)
    (rises : s.pwr.level < s.target → s.staggerPoint ≤ s.bell.c) (most : s.age + max 1 (s.rampStep - s.pwr.since) ≤ s.lastAge) :
    OnlyCounts (s.setAge (s.age + max 1 (s.rampStep - s.pwr.since))) s.rampMove ∧ s.rampMove.pwr.since = 0
      ∧ s.rampMove.pwr.level = if s.target < s.pwr.level then s.pwr.level - 1 else s.pwr.level + 1 := by
  generalize hw : max 1 (s.rampStep - s.pwr.since) = w at most ⊢
  have stagger : s.target < s.pwr.level ∨ s.staggerPoint ≤ s.bell.c := by
    by_cases falls : s.target < s.pwr.level
    · exact .inl falls
    · exact .inr (rises (by omega))
  have age : s.bell.c ≤ s.age := Nat.le_add_right _ _
  have rampAge {t : State} (same : Governed s t) : t.rampAge = some (s.age + w) := by
    have test : (t.enRamp && t.pwr.level != t.target) = true := by
      rw [same.counts.enRamp, ramp, same.level, same.target off]
      simpa using apart
    rw [State.rampAge, if_pos test, same.counts.age, same.rampStep, same.since, same.target off, same.level, same.staggerPoint, hw]
    dsimp only
    rcases stagger with falls | passed
    · rw [if_pos falls]
    · rw [Nat.max_eq_left (by omega), ite_self]
  have leaked : Governed s s.leak := s.leak_governed
  have off' : s.leak.enAllow = false := leaked.counts.enAllow.trans off
  have ramp' : s.leak.enRamp = true := leaked.counts.enRamp.trans ramp
  have bell : s.leak.bell = s.bell := leaked.counts.bell
  have wait : s.age + w - 1 - s.leak.age = w - 1 := by
    rw [leaked.counts.age]
    omega
  have moved : s.rampMove = ((s.leak.countCycles (s.leak.age + 1) (w - 1)).elapse (w - 1)).cycleAt (s.age + w) := by
    have passed := State.passTo_ramp off' ramp' (by rw [bell, split]) (by rw [bell, apply]) 63 (by rw [leaked.counts.age]; omega) (rampAge leaked)
    rw [wait] at passed
    rw [State.rampMove, if_pos on, State.checkAllow_off off, State.levelSync_ramp ramp, rampAge (Governed.refl s)]
    dsimp only
    rw [if_pos most, State.reach, if_pos on, Nat.min_eq_left most]
    exact passed
  let v := s.leak.countCycles (s.leak.age + 1) (w - 1)
  have waited : Governed s v := leaked.trans (State.countCycles_governed _ _ _)
  have target : (v.elapse (w - 1)).target = s.target := (v.elapse_target _).trans (waited.target off)
  have level : (v.elapse (w - 1)).pwr.level = s.pwr.level := waited.level
  have since : (v.elapse (w - 1)).pwr.since = s.pwr.since + (w - 1) := congrArg (· + (w - 1)) waited.since
  have step : (v.elapse (w - 1)).rampStep = s.rampStep := waited.rampStep
  have point : (v.elapse (w - 1)).staggerPoint = s.staggerPoint := (v.elapse_staggerPoint _).trans waited.staggerPoint
  have period : (v.elapse (w - 1)).period = s.period := waited.counts.period
  have steps := State.cycleAt_steps (s := v.elapse (w - 1)) (a := s.age + w) (waited.counts.enAllow.trans off) (waited.counts.enRamp.trans ramp)
    (by rw [target, level]; exact apart)
    (by rw [step, since]; omega) (by rw [target, level, point, period]; exact stagger.imp_right fun passed => by omega)
  obtain ⟨counts, zero, moves⟩ := steps
  rw [moved]
  exact ⟨((waited.counts.trans (State.elapse_onlyCounts _ _)).setAge _).trans counts, zero, by rw [moves, target, level]⟩

/-! ## The temperature (R405, R406) -/

/-- The events of a new temp_code: HOT and TEMP_CRIT where it newly reaches their codes. -/
theorem State.checkTemp_evtRaw (s : State) : s.checkTemp.reg (pWEIGH + 0x10) = s.reg (pWEIGH + 0x10)
    ||| (if s.hotAt ≤ s.pwr.temp.toNat ∧ s.pwr.hotSeen = false then 2#32 else 0#32)
    ||| (if s.critAt ≤ s.pwr.temp.toNat ∧ s.pwr.critSeen = false then 4#32 else 0#32) := by
  let u : State := { s with pwr := s.tempPwr }
  let v : State := if decide (s.hotAt ≤ s.pwr.temp.toNat) && !s.pwr.hotSeen then u.raise pWEIGH 1 else u
  have hot : v.reg (pWEIGH + 0x10) = s.reg (pWEIGH + 0x10) ||| (if s.hotAt ≤ s.pwr.temp.toNat ∧ s.pwr.hotSeen = false then 2#32 else 0#32) := by
    dsimp only [v]
    simp only [Bool.and_eq_true, decide_eq_true_eq, Bool.not_eq_true']
    split
    · exact (u.raise_reg pWEIGH 1 (pWEIGH + 0x10)).trans (if_pos rfl)
    · exact (BitVec.or_zero).symm
  change (if decide (s.critAt ≤ s.pwr.temp.toNat) && !s.pwr.critSeen then v.raiseErr pWEIGH ⟨2, s.pwr.temp.toNat, v.stamp, 0#64⟩ else v).reg _ = _
  simp only [Bool.and_eq_true, decide_eq_true_eq, Bool.not_eq_true']
  rw [← hot]
  split
  · exact (State.capture_evtRaw _ _ _).trans ((v.raise_reg pWEIGH 2 (pWEIGH + 0x10)).trans (if_pos rfl))
  · exact (BitVec.or_zero).symm

theorem State.setTemp_takes {s : State} (on : s.clockOn = true) (code : Byte) : ∃ t : State, s.setTemp code = t
    ∧ OnlyRegs { s with pwr := State.tempPwr { s with pwr := { s.pwr with temp := code } } } t (eventKeys pWEIGH)
    ∧ ((t.reg 0xC010).getLsbD 1 = true ↔ (s.reg 0xC010).getLsbD 1 = true ∨ (s.hotAt ≤ code.toNat ∧ s.pwr.hotSeen = false))
    ∧ ((t.reg 0xC010).getLsbD 2 = true ↔ (s.reg 0xC010).getLsbD 2 = true ∨ (s.critAt ≤ code.toNat ∧ s.pwr.critSeen = false)) := by
  let u : State := { s with pwr := { s.pwr with temp := code } }
  have raw : u.checkTemp.reg 0xC010 = s.reg 0xC010 ||| (if s.hotAt ≤ code.toNat ∧ s.pwr.hotSeen = false then 2#32 else 0#32)
      ||| (if s.critAt ≤ code.toNat ∧ s.pwr.critSeen = false then 4#32 else 0#32) := u.checkTemp_evtRaw
  refine ⟨u.checkTemp, if_pos on, u.checkTemp_onlyRegs, ?_, ?_⟩
  · rw [raw, BitVec.getLsbD_or, BitVec.getLsbD_or, Bool.or_eq_true, Bool.or_eq_true]
    split_ifs <;> simp [*]
  · rw [raw, BitVec.getLsbD_or, BitVec.getLsbD_or, Bool.or_eq_true, Bool.or_eq_true]
    split_ifs <;> simp [*]

theorem tempHold_iff (hold : Bool) (hot crit code : Nat) :
    (decide (crit ≤ code) || (hold && decide ((if crit ≤ hot then crit else hot) ≤ code))) = true ↔ crit ≤ code ∨ (hold = true ∧ min hot crit ≤ code) := by
  have low : (if crit ≤ hot then crit else hot) = min hot crit := by
    split <;> omega
  rw [low, Bool.or_eq_true, Bool.and_eq_true, decide_eq_true_eq, decide_eq_true_eq]

/-! ## The allowance (R403) -/

theorem State.exhaustMove_exhausts {s : State} (on : s.clockOn = true) (force : s.enAllow = true) (sampled : s.pwr.unsampled = false)
    (spent : s.spent = true) (fresh : s.pwr.exhausted = false) : ∃ t : State, s.exhaustMove = t
      ∧ OnlyRegs { s with pwr := { s.pwr with exhausted := true } } t ((pWEIGH + 0x128) :: eventKeys pWEIGH)
      ∧ (t.reg 0xC010).getLsbD 0 = true ∧ t.reg 0xC128 = s.reg 0xC128 + 1#32 ∧ t.target = 0 := by
  let u : State := { s with pwr := { s.pwr with exhausted := true } }
  let v := u.raiseErr pWEIGH ⟨0, s.allow, s.stamp, s.bell.tick.setWidth 64⟩
  let t := v.bump (pWEIGH + 0x128)
  have event : OnlyRegs u v (eventKeys pWEIGH) := u.raiseErr_onlyRegs pWEIGH _
  have only : OnlyRegs u t ((pWEIGH + 0x128) :: eventKeys pWEIGH) :=
    OnlyRegs.trans ⟨event.1, event.2.mono (List.subset_cons_self _ _)⟩ (v.setReg_onlyRegs _ List.mem_cons_self)
  have checked : s.checkAllow = t := if_pos (by rw [force, sampled, spent, fresh]; rfl)
  have force' : t.enAllow = true := (congrArg (BitVec.getLsbD · 0) (only.2 (pWEIGH + 0x100) (by decide))).trans force
  have spent' : t.spent = true := by
    obtain ⟨⟨m, eq⟩, keeps⟩ := only
    have energy : t.pwr.energy = s.pwr.energy := by rw [eq]
    rw [← spent, State.spent, State.spent, State.allow, State.allow, energy, keeps _ (by decide)]
    rfl
  have none : t.exhaustAge = none := by simp [State.exhaustAge, spent']
  refine ⟨t, ?_, only, ?_, ?_, ?_⟩
  · rw [State.exhaustMove]
    simp only [on, if_true, checked, none]
  · have raw : t.reg 0xC010 = u.reg 0xC010 ||| 1#32 :=
      (v.setReg_reg_ne (pWEIGH + 0x128) 0xC010 _ (by decide)).trans ((State.capture_evtRaw _ pWEIGH _).trans ((u.raise_reg pWEIGH 0 0xC010).trans (if_pos rfl)))
    rw [raw, BitVec.getLsbD_or]
    simp
  · exact (v.setReg_reg _ _).trans (congrArg (· + 1#32) (event.2 0xC128 (by decide)))
  · rw [State.target, State.allowHold, force', spent', Bool.or_true]
    rfl

/-! ## Rails (R31) -/

/-- Everything but registers of the map, the RAS unit and whether a machine check is due. -/
def State.unchecked (s : State) : State := { s with regs := [], ras := Ras.init, cpu := { s.cpu with mchkDue := false } }

theorem OnlyRegs.unchecked {s t : State} {ks : List Nat} (h : OnlyRegs s t ks) : t.unchecked = s.unchecked := by
  obtain ⟨⟨m, rfl⟩, -⟩ := h
  rfl

theorem State.addLedger_unchecked (s : State) (type channel level : Nat) (code : Word) (addr : DWord) (fromFw : Bool) :
    (s.addLedger type channel level code addr fromFw).1.unchecked = s.unchecked := by
  unfold State.addLedger
  split <;> rfl

theorem State.machineCheck_unchecked (s : State) (kind : Nat) (tile : Bool) (tag : Nat) (addr : DWord) :
    (s.machineCheck kind tile tag addr).unchecked = { s.unchecked with mchkOut := true } := by
  have setReg (t : State) (k : Nat) (v : Word) : (t.setReg k v).unchecked = t.unchecked := rfl
  have due (t : State) : ({ t with cpu := { t.cpu with mchkDue := true } } : State).unchecked = t.unchecked := rfl
  have out : ({ s with mchkOut := true } : State).unchecked = { s.unchecked with mchkOut := true } := rfl
  have event (t : State) (p : Nat) (e : ErrEvt) : (t.raiseErr p e).unchecked = t.unchecked := (t.raiseErr_onlyRegs p e).unchecked
  have events (t : State) (p : Nat) (es : List ErrEvt) : (t.raiseErrs p es).unchecked = t.unchecked := (t.raiseErrs_onlyRegs p es).unchecked
  simp only [State.machineCheck, State.bump, State.addReg, State.raise, State.orReg, State.setReg64, apply_ite State.unchecked, ite_self, events,
    State.addLedger_unchecked, event, setReg, due, out]

section
variable {s t : State} (h : t.unchecked = { s.unchecked with mchkOut := true })
include h

theorem quiet_of_unchecked (quiet : s.quiet) : t.quiet := by
  have net : t.net = s.net := (congrArg State.net h :)
  have tally : t.tally = s.tally := (congrArg State.tally h :)
  have m1 : t.cpu.m1 = s.cpu.m1 := (congrArg (fun u : State => u.cpu.m1) h :)
  have caches : t.caches = s.caches := (congrArg State.caches h :)
  have dbg : t.dbg = s.dbg := (congrArg State.dbg h :)
  have tile : t.tile = s.tile := (congrArg State.tile h :)
  unfold State.quiet State.settled
  rw [net, tally, m1, caches, dbg, tile]
  exact quiet

end

/-- A rail that a running core needs falls: a machine check, a core reset. -/
theorem State.railLoss_resets {s : State} (quiet : s.quiet) (low : s.rst.wholeLow = false) (run : s.rst.phase = .run)
    (power : s.pwr.state.toNat < 2) (rail : Fin 2) : (s.railLoss rail).settled
      ∧ (s.railLoss rail).pwr.railOk = s.pwr.railOk &&& ~~~(1#2 <<< rail.val) ∧ (s.railLoss rail).mchkOut = true ∧ Draining s (s.railLoss rail) 0 := by
  let u : State := { s with pwr := { s.pwr with
    railOk := s.pwr.railOk &&& ~~~(1#2 <<< rail.val), railUp := if rail = 1 then none else s.pwr.railUp } }
  let t := u.machineCheck 6 false 0 0#64
  have needs : u.needsRail rail = true := by
    rw [State.needsRail]
    have same : u.pwr.state = s.pwr.state := rfl
    rw [same]
    interval_cases s.pwr.state.toNat <;> rfl
  have checked : t.unchecked = { u.unchecked with mchkOut := true } := u.machineCheck_unchecked _ _ _ _
  have rst : t.rst = s.rst := (congrArg State.rst checked :)
  have pwr : t.pwr = u.pwr := (congrArg State.pwr checked :)
  have bell : t.bell = s.bell := (congrArg State.bell checked :)
  have out : t.mchkOut = true := (congrArg State.mchkOut checked :)
  have idle : t.quiet := quiet_of_unchecked checked quiet
  have falls : s.railLoss rail = t.enterReset 0 false false := by
    rw [State.railLoss, if_neg (by rw [low]; decide)]
    refine (if_pos needs).trans (State.requestReset_run ?_ ?_ ?_ 0 false)
    · rw [rst, low]
    · rw [rst, run]
    · rw [pwr]
      exact power
  obtain ⟨phase, kind, fence, queue, div, tally, sees, level, tick⟩ := State.enterReset_drains idle.noneWaiting 0 false false
  obtain ⟨mchk, rails⟩ := t.enterReset_ports 0 false false
  rw [falls]
  refine ⟨idle.enterReset 0 false false, by rw [rails, pwr], mchk.trans out, phase, kind, fence, queue, div, tally, ?_, level, by rw [tick, bell]⟩
  rw [sees, State.machineCheck_seen]
  rfl

/-! ## Requests of a power state (R31, R408 to R410) -/

theorem reqState_eq_one_iff (req : BitVec 3) : reqState req = 1 ↔ req = 1#3 := by
  revert req
  decide

theorem State.fromNap_eq (s : State) : s.fromNap = { s with pwr := { s.pwr with
    state := if s.pwr.state = 2#3 ∧ s.pwr.waking = none ∧ s.pwr.req = 1#3 ∧ s.pwr.railOk.getLsbD 1 = true then 1#3 else s.pwr.state } } := by
  simp only [State.fromNap, Bool.and_eq_true, beq_iff_eq, Option.isNone_iff_eq_none, reqState_eq_one_iff, and_assoc]
  split <;> rfl

section
variable {s : State} (on : s.clockOn = true) (req : BitVec 3)
include on

theorem State.powerReq_run (run : s.pwr.state = 0#3) : s.powerReq req = { s with pwr := { s.pwr with req := req } } := by
  have power : s.pwr.state.toNat = 0 := congrArg BitVec.toNat run
  simp only [State.powerReq, on, Bool.not_true, Bool.false_eq_true, if_false, power]

variable (still : s.pwr.waking = none)
include still

theorem State.powerReq_idleToNap (idle : s.pwr.state = 1#3) :
    s.powerReq 2#3 = { s with pwr := { s.pwr with req := 2#3, state := 2#3, railEn := 1#2 } } := by
  have power : s.pwr.state.toNat = 1 := congrArg BitVec.toNat idle
  simp [State.powerReq, on, power, reqState, still]

theorem State.powerReq_napToIdle (nap : s.pwr.state = 2#3) : s.powerReq 1#3
    = { s with pwr := { s.pwr with req := 1#3, state := if s.pwr.railOk.getLsbD 1 then 1#3 else 2#3, railEn := 3#2 } } := by
  simp [State.powerReq, on, reqState, still, State.fromNap_eq, nap]

theorem State.powerReq_nap (nap : s.pwr.state = 2#3) : s.powerReq 2#3 = { s with pwr := { s.pwr with req := 2#3, railEn := 1#2 } } := by
  have power : s.pwr.state.toNat = 2 := congrArg BitVec.toNat nap
  simp [State.powerReq, on, power, reqState, still]

end

/-- A rail comes up with no reset and no release waiting for it. -/
theorem State.railRise_raises {s : State} (low : s.rst.wholeLow = false) (noWait : s.rst.railWait = none) (noRelease : s.rst.releaseKept = false)
    (rail : Fin 2) : s.railRise rail = { s with pwr := { s.pwr with
      railOk := s.pwr.railOk ||| (1#2 <<< rail.val)
      state := if s.pwr.state = 2#3 ∧ s.pwr.waking = none ∧ s.pwr.req = 1#3 ∧ (s.pwr.railOk.getLsbD 1 = true ∨ rail = 1) then 1#3 else s.pwr.state
      railUp := if rail = 1 ∧ s.pwr.waking.isSome ∧ s.pwr.railUp.isNone then some 0 else s.pwr.railUp } } := by
  have bit : (s.pwr.railOk ||| (1#2 <<< rail.val)).getLsbD 1 = true ↔ s.pwr.railOk.getLsbD 1 = true ∨ rail = 1 := by
    generalize s.pwr.railOk = ok
    revert ok rail
    decide
  simp only [State.railRise, low, Bool.false_eq_true, if_false, State.railsGood, noWait, State.fromNap_eq, State.keptRelease, noRelease, bit]

section
variable {s : State} (run : s.pwr.state = 0#3) (free : s.canRest = true)
include run free

theorem State.rest_idle (req : s.pwr.req = 1#3) : s.rest = { s with pwr := { s.pwr with state := 1#3 } } := by
  simp [State.rest, run, free, req, reqState]

theorem State.rest_nap (req : s.pwr.req = 2#3) : s.rest = { s with pwr := { s.pwr with state := 2#3, railEn := 1#2 } } := by
  simp [State.rest, run, free, req, reqState]

theorem State.rest_off (sleeps : s.canSleep = true) (req : s.pwr.req = 3#3 ∨ s.pwr.req = 4#3) : s.rest = s.railsOff s.pwr.req := by
  rcases req with req | req <;> simp [State.rest, run, free, req, reqState, sleeps]

end

section
variable {s : State} (why : reqState s.pwr.req = 0 ∨ s.wakeSource = true) (still : s.pwr.waking = none)
include why still

theorem State.startWake_idle (idle : s.pwr.state = 1#3) : s.startWake = { s with pwr := { s.pwr with waking := some 0 } } := by
  rcases why with why | why <;> simp [State.startWake, why, still, idle]

theorem State.startWake_nap (nap : s.pwr.state = 2#3) : s.startWake
    = { s with pwr := { s.pwr with waking := some 0, railEn := 3#2, railUp := if s.pwr.railOk.getLsbD 1 then some 0 else none } } := by
  rcases why with why | why <;> simp [State.startWake, why, still, nap]

end

/-- A wake ends in RUN. -/
theorem State.endWake_runs {s : State} (waking : s.pwr.waking.isSome = true)
    (state : s.pwr.state = 1#3 ∨ (s.pwr.state = 2#3 ∧ s.pwr.railUp.isSome = true ∧ s.pwr.railOk.getLsbD 1 = true)) :
    ∃ t : State, s.endWake = t.awake := by
  obtain ⟨n, begun⟩ := Option.isSome_iff_exists.mp waking
  rcases state with idle | ⟨nap, up, good⟩
  · have power : s.pwr.state.toNat = 1 := congrArg BitVec.toNat idle
    exact ⟨s.pass (20 - n), by simp only [State.endWake, power, begun]⟩
  · obtain ⟨m, up⟩ := Option.isSome_iff_exists.mp up
    have power : s.pwr.state.toNat = 2 := congrArg BitVec.toNat nap
    exact ⟨s.pass (64 - m), by simp only [State.endWake, power, begun, up, good, if_true]⟩

/-- Settles O50: the allowance and L by what the cycle in question leaves (`State.exhaustMove_exhausts`, `State.rampMove_steps`), temp_code by
`State.setTemp_takes`, a rail by `State.railLoss_resets`; the power states change as their commands say. -/
theorem powerFollowsItsInputs : Obligations.PowerFollowsItsInputs := by
  intro s on quiet
  have low : s.rst.wholeLow = false := by
    have both := on
    rw [State.clockOn, Bool.and_eq_true, Bool.not_eq_true'] at both
    exact both.2
  refine ⟨fun force sampled spent fresh => ?_, fun ramp off split apply within apart rises => ?_, fun code i named => ?_, fun level => ?_, fun req => ?_,
    fun state rest => ?_, fun why still => ?_, fun rail noWait noRelease => ?_, fun waking state => ?_, fun rail run power => ?_⟩
  · obtain ⟨t, moved, ⟨⟨m, eq⟩, -⟩, event, count, target⟩ := State.exhaustMove_exhausts on force sampled spent fresh
    refine Leaves.of_eq rfl moved ⟨by rw [eq], event, count, target, by rw [eq]⟩
  · dsimp only
    intro most
    obtain ⟨counts, since, level⟩ := State.rampMove_steps on off ramp split apply within apart rises most
    exact ⟨_, rfl, counts.age.trans (s.setAge_age _), (congrArg Bell.tick counts.bell :), counts.seen, level, since⟩
  · obtain ⟨t, takes, ⟨⟨m, eq⟩, -⟩, hot, crit⟩ := State.setTemp_takes on code
    have done : exec i s = .next (s.setTemp code) := by
      simp only [List.mem_cons, List.not_mem_nil, or_false] at named
      rcases named with rfl | rfl | rfl <;> rfl
    refine Leaves.of_eq done takes ⟨by rw [eq]; rfl, ?_, ?_, ?_, hot, crit, by rw [eq]⟩
    · rw [eq]
      exact decide_eq_true_iff
    · rw [eq]
      exact decide_eq_true_iff
    · rw [eq]
      exact tempHold_iff _ _ _ _
  · exact congrArg _ (if_pos on)
  · have settles {t : State} (done : s.powerReq req = t) (settled : t.settled) : exec (.pwrStateReq req) s = .next t := by
      change Host.Outcome.next (s.powerReq req).settleHeld = _
      rw [done, t.settleHeld_settled settled]
    refine ⟨fun run => settles (State.powerReq_run on req run) quiet.1, fun still => ⟨?_, ?_, ?_⟩⟩
    · rintro idle rfl
      exact settles (State.powerReq_idleToNap on still idle) quiet.1
    · rintro nap rfl
      exact settles (State.powerReq_napToIdle on still nap) quiet.1
    · rintro nap rfl
      exact settles (State.powerReq_nap on still nap) quiet.1
  · refine ⟨fun req => congrArg Host.Outcome.next (State.rest_idle state rest req), fun req => congrArg Host.Outcome.next (State.rest_nap state rest req),
      fun sleeps req => Leaves.of_eq rfl (State.rest_off state rest sleeps req) ⟨rfl, rfl, rfl, fun g => Vector.getElem_replicate _, rfl⟩⟩
  · exact ⟨fun idle => congrArg Host.Outcome.next (State.startWake_idle why still idle), fun nap => congrArg Host.Outcome.next (State.startWake_nap why still nap)⟩
  · change Host.Outcome.next (s.railRise rail).settleHeld = _
    rw [State.railRise_raises low noWait noRelease rail]
    exact congrArg Host.Outcome.next (State.settleHeld_settled _ quiet.1)
  · obtain ⟨t, ends⟩ := State.endWake_runs waking state
    exact Leaves.of_eq rfl ends ⟨rfl, rfl⟩
  · obtain ⟨settled, rails, out, draining⟩ := State.railLoss_resets quiet low run power rail
    exact Leaves.of_settled rfl rfl settled ⟨rails, out, draining⟩

end Sys2Proof.Machine
end

section
/-! PROOF. Resets (O49; R417, R425 to R428): what each phase of a reset leaves, the scrub's zeroes, the core's start. -/

namespace Sys2Proof.Machine

/-! ## The maps' apply, the core's start (R392, R393, R417) -/

/-- The staged maps stand as the applied ones. -/
def State.mapped (s : State) : State :=
  { s with pitch := { s.pitch with core := (applyCore [] s.pitch.stagedCore).1, die := s.pitch.stagedDie } }

theorem State.applyMaps_onlyRegs (s : State) : OnlyRegs s.mapped s.applyMaps ([pPITCH + 0x114, pPITCH + 0x118] ++ eventKeys pPITCH) := by
  let t := (s.mapped.setReg (pPITCH + 0x114) (s.reg (pPITCH + 0x110))).bump (pPITCH + 0x118)
  let es := (applyCore [] s.pitch.stagedCore).2.map fun c => (⟨0, c.1, s.stamp, w64 c.2⟩ : ErrEvt)
  have set : OnlyRegs s.mapped t ([pPITCH + 0x114, pPITCH + 0x118] ++ eventKeys pPITCH) :=
    (s.mapped.setReg_onlyRegs _ (by decide)).trans (State.setReg_onlyRegs _ _ (by decide))
  obtain ⟨regs, keeps⟩ := t.raiseErrs_onlyRegs pPITCH es
  exact set.trans ⟨regs, keeps.mono (List.subset_append_right _ _)⟩

/-- The core at `ip`, before the events of its start. -/
def State.fresher (s : State) (ip : DWord) : State :=
  { s with
    cpu := { Cpu.init ip s.cpu.f with ext := s.cpu.ext }
    caches := Caches.init
    xlat := Xlat.init
    boot := { s.boot with offered := [], out := [] }
    bell := { s.bell with splitDone := decide (s.split ≤ s.bell.c), applyDone := decide (s.applyAt ≤ s.bell.c) }
    life := { s.life with oddDue := false }
    rst := { s.rst with phase := if s.ras.fence.isSome then .bad else .run, releaseKept := false } }

/-- The events of a start: READY, and an odd fuse word 0. -/
theorem State.startCore_onlyRegs (s : State) (ip : DWord) : OnlyRegs (s.fresher ip) (s.startCore ip) (eventKeys pRESET ++ eventKeys pLIFE)
    ∧ ((s.startCore ip).reg (pRESET + 0x10)).getLsbD 0 = true := by
  let t := (s.fresher ip).raise pRESET 0
  obtain ⟨regs, keeps⟩ := (s.fresher ip).raise_onlyRegs pRESET 0
  have raised : OnlyRegs (s.fresher ip) t (eventKeys pRESET ++ eventKeys pLIFE) := ⟨regs, keeps.mono (List.subset_append_left _ _)⟩
  have bit : (t.reg (pRESET + 0x10)).getLsbD 0 = true := by
    rw [State.raise_reg, if_pos rfl, BitVec.getLsbD_or, Bool.or_eq_true]
    exact .inr (by decide)
  by_cases odd : s.life.oddDue = true
  · have start : s.startCore ip = t.raiseErr pLIFE ⟨3, 0, t.stamp, (s.fuse 0).setWidth 64⟩ := if_pos odd
    obtain ⟨regs', keeps'⟩ := t.raiseErr_onlyRegs pLIFE ⟨3, 0, t.stamp, (s.fuse 0).setWidth 64⟩
    rw [start]
    refine ⟨raised.trans ⟨regs', keeps'.mono (List.subset_append_right _ _)⟩, ?_⟩
    rw [keeps' _ (by decide)]
    exact bit
  · have none : s.life.oddDue = false := Bool.eq_false_iff.mpr odd
    have same : ({ s.fresher ip with life := s.life } : State) = s.fresher ip := by
      have life : ({ s.life with oddDue := false } : Life) = s.life := by rw [← none]
      exact congrArg (fun l : Life => ({ s.fresher ip with life := l } : State)) life.symm
    have start : s.startCore ip = t := (if_neg odd).trans (congrArg (fun u : State => u.raise pRESET 0) same)
    rw [start]
    exact ⟨raised, bit⟩

/-- The core starts in the state of R417. -/
theorem State.startCore_starts (s : State) (ip : DWord) : Started (s.startCore ip) ip := by
  obtain ⟨⟨⟨m, eq⟩, -⟩, ready⟩ := s.startCore_onlyRegs ip
  refine ⟨?_, ?_, ?_, ?_, ?_, ?_, ?_, ?_, ?_, ready⟩ <;> rw [eq] <;> rfl

/-! ## Fuses (R33, R36) -/

theorem fuseBad_congr {s t : State} (h : t.life.fuses = s.life.fuses) : t.fuseBad = s.fuseBad := by
  rw [State.fuseBad, State.fuseBad, State.rsvdSet, State.rsvdSet, State.fuse, State.fuse, State.fuse, State.fuse, h]

/-- Before the last fuse word sends the core on, only registers and the groups' power change. -/
theorem State.variants_leave (s : State) : ∃ regs groups,
    (s.setBankpwr 0xFFFF#32).unifiedWindow = { s with regs := regs, spx := { s.spx with groups := groups } } := by
  obtain ⟨m, window⟩ := (s.setBankpwr 0xFFFF#32).unifiedWindow_regs
  rw [window]
  unfold State.setBankpwr
  split
  · exact ⟨_, _, rfl⟩
  · exact ⟨m, s.spx.groups, rfl⟩

/-- What the last fuse word leaves of the fuses and the life-cycle state, and the phase it leads to. -/
theorem State.fusesRead_leads (s : State) : s.fusesRead.rst.fuseIdx = s.rst.fuseIdx ∧ s.fusesRead.life.fuses = s.life.fuses
    ∧ s.fusesRead.life.shadow = s.life.shadow
    ∧ s.fusesRead.rst.phase = if s.fuseBad then .bad else if s.porter then (if s.ras.fence.isSome then .bad else .run) else .wait := by
  obtain ⟨regs, groups, variants⟩ := s.variants_leave
  have bad : (s.setBankpwr 0xFFFF#32).unifiedWindow.fuseBad = s.fuseBad := by rw [variants]; rfl
  have porter : (s.setBankpwr 0xFFFF#32).unifiedWindow.porter = s.porter := by rw [variants]; rfl
  rw [State.fusesRead]
  dsimp only
  rw [bad, porter]
  by_cases h : s.fuseBad = true
  · rw [if_pos h, if_pos h, variants]
    exact ⟨rfl, rfl, rfl, rfl⟩
  · by_cases h' : s.porter = true
    · obtain ⟨⟨⟨m, mapped⟩, -⟩, ⟨m', started⟩, -⟩ := And.intro (State.applyMaps_onlyRegs (s.setBankpwr 0xFFFF#32).unifiedWindow)
        (State.startCore_onlyRegs (s.setBankpwr 0xFFFF#32).unifiedWindow.applyMaps 0#64).1
      rw [if_neg h, if_neg h, if_pos h', if_pos h', started, mapped, variants]
      exact ⟨rfl, rfl, rfl, rfl⟩
    · rw [if_neg h, if_neg h, if_neg h', if_neg h', variants]
      exact ⟨rfl, rfl, rfl, rfl⟩

/-- A fuse word (R33). -/
theorem State.fuseWord_takes {s : State} (phase : s.rst.phase = .fuse) (low : s.rst.wholeLow = false) (more : s.rst.fuseIdx < 16) (v : Word) :
    (s.fuseWord v).rst.fuseIdx = s.rst.fuseIdx + 1 ∧ (s.fuseWord v).life.fuses = s.life.fuses.set s.rst.fuseIdx v
      ∧ ((s.fuseWord v).life.shadow = if s.rst.fuseIdx = 0 then (decodeFuse0 v).1 else s.life.shadow)
      ∧ (s.fuseWord v).rst.phase = if s.rst.fuseIdx < 15 then .fuse else if (s.fuseWord v).fuseBad then .bad else if s.porter then
          (if s.ras.fence.isSome then .bad else .run) else .wait := by
  let t : State := { s with
    life := { s.life with fuses := s.life.fuses.set s.rst.fuseIdx v }
    rst := { s.rst with fuseIdx := s.rst.fuseIdx + 1 } }
  let u : State := if s.rst.fuseIdx = 0 then
    State.dbgRecheck { t with life := { t.life with shadow := (decodeFuse0 v).1, oddDue := (decodeFuse0 v).2 } } else t
  have takes : s.fuseWord v = if s.rst.fuseIdx = 15 then u.fusesRead else u :=
    if_pos (by rw [phase, low, decide_eq_true more]; rfl)
  have shadow : u.life.shadow = if s.rst.fuseIdx = 0 then (decodeFuse0 v).1 else s.life.shadow := by
    dsimp only [u]
    split <;> rfl
  have rst : u.rst = t.rst := by
    dsimp only [u]
    split <;> rfl
  have fuses : u.life.fuses = t.life.fuses := by
    dsimp only [u]
    split <;> rfl
  have same : u.porter = s.porter ∧ u.ras = s.ras := by
    dsimp only [u]
    split <;> exact ⟨rfl, rfl⟩
  by_cases last : s.rst.fuseIdx = 15
  · obtain ⟨idx', fuses', shadow', phase'⟩ := u.fusesRead_leads
    rw [takes, if_pos last, if_neg (by omega : ¬s.rst.fuseIdx < 15), fuseBad_congr fuses', idx', fuses', shadow', phase', same.1, same.2]
    exact ⟨congrArg Rst.fuseIdx rst, fuses, shadow, rfl⟩
  · rw [takes, if_neg last, if_pos (by omega : s.rst.fuseIdx < 15)]
    exact ⟨congrArg Rst.fuseIdx rst, fuses, shadow, (congrArg Rst.phase rst).trans phase⟩

/-! ## The scrub (R365, R428) -/

theorem Memory.get_clear_in (m : Memory) {a n x : Nat} (low : a ≤ x) (high : x < a + n) : (m.clear a n).get x = 0#8 := by
  refine Memory.get_none _ _ fun c mem same => ?_
  have kept := (List.mem_filter.mp mem).2
  rw [Bool.or_eq_true, decide_eq_true_eq, decide_eq_true_eq] at kept
  omega

theorem Memory.get_clear_zero (m : Memory) {a n x : Nat} (zero : m.get x = 0#8) : (m.clear a n).get x = 0#8 := by
  by_cases within : a ≤ x ∧ x < a + n
  · exact m.get_clear_in within.1 within.2
  · rw [Memory.clear, Memory.get_filter m (fun y => y < a || a + n ≤ y) x (by rw [Bool.or_eq_true, decide_eq_true_eq, decide_eq_true_eq]; omega)]
    exact zero

/-- A group's part of the scrub. -/
def State.scrubGroup (s : State) (g : Nat) : State :=
  if s.inService g && s.spx.groups[Fin.ofNat 16 g] == .on then (s.loseGroup g).charge 6 (s.build.groupBytes / 32) else s

theorem State.scrubGroups_succ (s : State) (n k : Nat) : s.scrubGroups n (k + 1) = (s.scrubGroup (n - (k + 1))).scrubGroups n k := rfl

/-- What scrubbing groups leaves: all but the scratchpad's contents and the energy. -/
def State.besideGroups (s : State) : State :=
  { s with pwr := { s.pwr with energy := 0 }, spx := { s.spx with mem := [], marks := [], corr := [] } }

theorem State.scrubGroup_beside (s : State) (g : Nat) : (s.scrubGroup g).besideGroups = s.besideGroups := by
  unfold State.scrubGroup
  split <;> rfl

theorem State.scrubGroups_beside (n k : Nat) : ∀ s : State, (s.scrubGroups n k).besideGroups = s.besideGroups := by
  induction k with
  | zero => exact fun _ => rfl
  | succ k ih => exact fun s => (ih _).trans (s.scrubGroup_beside _)

theorem State.scrubGroup_keepsZero {s : State} (g : Nat) {a : Nat} (zero : s.spx.mem.get a = 0#8) : (s.scrubGroup g).spx.mem.get a = 0#8 := by
  unfold State.scrubGroup
  split
  · exact Memory.get_clear_zero _ zero
  · exact zero

theorem State.scrubGroups_keepsZero (n k : Nat) {a : Nat} : ∀ {s : State}, s.spx.mem.get a = 0#8 → (s.scrubGroups n k).spx.mem.get a = 0#8 := by
  induction k with
  | zero => exact fun zero => zero
  | succ k ih => exact fun zero => ih (State.scrubGroup_keepsZero _ zero)

/-- The scrub of the last `k` of `n` groups zeroes those that are in service and ON. -/
theorem State.scrubGroups_zeroes {n g a : Nat} (within : g < n) (k : Nat) : ∀ {s : State}, n - k ≤ g → s.inService g = true →
    s.spx.groups[Fin.ofNat 16 g] = .on → g * s.build.groupBytes ≤ a → a < g * s.build.groupBytes + s.build.groupBytes →
      (s.scrubGroups n k).spx.mem.get a = 0#8 := by
  induction k with
  | zero => omega
  | succ k ih =>
    intro s from_ service on low high
    rw [State.scrubGroups_succ]
    by_cases here : n - (k + 1) = g
    · refine State.scrubGroups_keepsZero n k ?_
      rw [here, State.scrubGroup, if_pos (by rw [service, on]; rfl)]
      exact Memory.get_clear_in _ low high
    · have beside := s.scrubGroup_beside (n - (k + 1))
      have build : (s.scrubGroup (n - (k + 1))).build = s.build := (congrArg State.build beside :)
      have groups : (s.scrubGroup (n - (k + 1))).spx.groups = s.spx.groups := (congrArg (fun t : State => t.spx.groups) beside :)
      have serves : (s.scrubGroup (n - (k + 1))).inService g = s.inService g := (congrArg (fun t : State => t.inService g) beside :)
      refine ih (by omega) (serves.trans service) ?_ ?_ ?_
      · rw [groups]
        exact on
      · rwa [build]
      · rwa [build]

/-- The scrub leaves storage but the scratchpad's zero, and the rest but the energy as it was. -/
theorem State.scrub_leaves (s : State) : s.scrub.besideGroups = { s.besideGroups with
    tile := { s.tile with ops := [], pool := [] }, cpu := { s.cpu with f := Vector.replicate 32 0#64 } } := by
  have scrubbed : (if s.build.s2 then s.scrubGroups 16 16 else (s.zeroUnits 0 s.build.capacity).charge 6 (s.build.capacity / 32)).besideGroups
      = s.besideGroups := by
    split
    · exact State.scrubGroups_beside 16 16 s
    · rfl
  exact congrArg (fun u : State => { u with
    tile := { u.tile with ops := [], pool := [] }, cpu := { u.cpu with f := Vector.replicate 32 0#64 } }) scrubbed

theorem State.scrub_zeroes {s : State} (s2 : s.build.s2 = true) {g : Fin 16} (service : s.inService g.val = true) (on : s.spx.groups[g] = .on) {a : Nat}
    (low : g.val * s.build.groupBytes ≤ a) (high : a < g.val * s.build.groupBytes + s.build.groupBytes) : s.scrub.spx.mem.get a = 0#8 := by
  have here : (Fin.ofNat 16 g.val) = g := Fin.ofNat_val_eq_self g
  have zero := State.scrubGroups_zeroes g.isLt 16 (by omega) service (by simpa only [here] using on) low high
  have scrubs : s.scrub.spx = (s.scrubGroups 16 16).spx := by
    rw [State.scrub, if_pos s2]
  rwa [scrubs]

/-! ## The drain (R398, R425) -/

theorem State.absorbTags_leaves (s : State) : s.absorbTags.2 = s.openTags.length
    ∧ ∃ m, s.absorbTags.1 = { s with regs := m, net := { s.net with tags := s.net.tags.map fun e => { e with absorbed := true } } } := by
  unfold State.absorbTags
  dsimp only
  split
  · next none => exact ⟨none.symm, s.regs, rfl⟩
  · obtain ⟨⟨m, eq⟩, -⟩ := State.raiseErr_onlyRegs ({ s with net := { s.net with tags := s.net.tags.map fun e => { e with absorbed := true } } } : State)
      pFAB ⟨2, s.openTags.length, s.stamp, 0#64⟩
    exact ⟨rfl, m, eq⟩

/-- The drain's end keeps everything settled, what software sees and the outstanding tags. -/
theorem State.endDrain_ends {s : State} (settled : s.settled) : s.endDrain.settled
    ∧ s.endDrain.rst.phase = (if s.rst.scrubWanted then .scrub else if s.rst.fenceDrain then .bad else .held)
    ∧ s.endDrain.net = s.net ∧ s.endDrain.rst.absorbed = s.rst.absorbed ∧ s.endDrain.cpu.sb = [] ∧ s.endDrain.cpu.loads = []
    ∧ s.endDrain.seen = s.seen := by
  unfold State.endDrain
  dsimp only
  split
  · exact ⟨settled, rfl, rfl, rfl, rfl, rfl, rfl⟩
  · exact ⟨settled, rfl, rfl, rfl, rfl, rfl, rfl⟩

/-- The drain at its limit. -/
theorem State.drainOver_ends {s : State} (settled : s.settled) (phase : s.rst.phase = .drain) : s.drainOver.settled
    ∧ s.drainOver.rst.phase = (if s.rst.scrubWanted then .scrub else if s.rst.fenceDrain then .bad else .held)
    ∧ s.drainOver.net.tags = s.net.tags.map (fun e => { e with absorbed := true })
    ∧ s.drainOver.rst.absorbed = s.openTags.length ∧ s.drainOver.cpu.sb = [] ∧ s.drainOver.cpu.loads = [] ∧ s.drainOver.seen = s.seen := by
  let t : State := { s with rst := { s.rst with cycles := max s.rst.cycles s.rst.drainLimit } }
  let u : State := { t.absorbTags.1 with rst := { t.absorbTags.1.rst with absorbed := t.absorbTags.2 } }
  have atLimit : s.drainOver = u.endDrain := if_pos (show (s.rst.phase == .drain) = true by rw [phase]; rfl)
  obtain ⟨count, m, absorbed⟩ := t.absorbTags_leaves
  have uEq : u = { t with
      regs := m, net := { s.net with tags := s.net.tags.map fun e => { e with absorbed := true } }, rst := { t.rst with absorbed := s.openTags.length } } := by
    dsimp only [u]
    rw [absorbed, count]
    rfl
  have settled' : u.settled := by
    rw [uEq]
    exact settled
  obtain ⟨ends, phase', net, number, sb, loads, seen⟩ := State.endDrain_ends settled'
  rw [atLimit]
  refine ⟨ends, phase'.trans ?_, (congrArg Net.tags net).trans ?_, number.trans ?_, sb, loads, seen.trans ?_⟩ <;> (rw [uEq] <;> rfl)

/-! ## The release (R20, R416, R427) -/

/-- A partition reset's maps, where it is one. -/
def State.kindMaps (s : State) : State := if s.rst.kind = 2 then s.applyMaps else s

theorem State.kindMaps_leaves (s : State) : ∃ m, s.kindMaps = { s with regs := m, pitch := if s.rst.kind = 2 then s.mapped.pitch else s.pitch } := by
  unfold State.kindMaps
  split
  · obtain ⟨⟨m, mapped⟩, -⟩ := s.applyMaps_onlyRegs
    exact ⟨m, mapped⟩
  · exact ⟨s.regs, rfl⟩

/-- RESET_START stands. -/
theorem State.kindMaps_start (s : State) : s.kindMaps.reg64 (pRESET + 0x10C) = s.reg64 (pRESET + 0x10C) := by
  obtain ⟨-, keeps⟩ := s.applyMaps_onlyRegs
  unfold State.kindMaps
  split
  · rw [State.reg64, State.reg64, keeps _ (by decide), keeps _ (by decide)]
    rfl
  · rfl

/-- Tile storage and F after SLEEP without a scrub. -/
def State.sleepFill (s : State) : State := if s.rst.sleep && !s.rst.scrubDone then s.sleepStorage else s

theorem State.sleepFill_leaves (s : State) : ∃ fresh ops pool f,
    s.sleepFill = { s with fresh := fresh, tile := { s.tile with ops := ops, pool := pool }, cpu := { s.cpu with f := f } }
      ∧ (s.rst.sleep = false ∨ s.rst.scrubDone = true → f = s.cpu.f ∧ ops = s.tile.ops ∧ pool = s.tile.pool) := by
  by_cases h : (s.rst.sleep && !s.rst.scrubDone) = true
  · refine ⟨_, _, _, _, if_pos h, fun kept => ?_⟩
    rcases kept with kept | kept <;> simp [kept] at h
  · exact ⟨s.fresh, s.tile.ops, s.tile.pool, s.cpu.f, if_neg h, fun _ => ⟨rfl, rfl, rfl⟩⟩

/-- The life-cycle state and the cause of a release. -/
def State.named (s : State) : State := { s with
  life := { s.life with shadow := s.life.granted.getD s.life.shadow, granted := none }
  rst := { s.rst with last := if s.rst.wake then 4 else s.rst.kind + 1, scrubbed := s.rst.scrubDone } }

/-- RESET_CYCLES and the release's events. -/
def State.counted (s : State) : State :=
  let t := s.setReg (pRESET + 0x11C) (w32 (min s.rst.cycles (2 ^ 32 - 1)))
  let u := if t.rst.scrubDone then t else t.raise pRESET 2
  if s.rst.absorbed = 0 then u else u.raiseErr pRESET ⟨1, s.rst.absorbed, u.rst.drainStamp, 0#64⟩

theorem State.counted_onlyRegs (s : State) : OnlyRegs s s.counted ((pRESET + 0x11C) :: eventKeys pRESET) := by
  unfold State.counted
  extract_lets t u
  have set : OnlyRegs s t ((pRESET + 0x11C) :: eventKeys pRESET) := s.setReg_onlyRegs _ List.mem_cons_self
  have raised : OnlyRegs s u ((pRESET + 0x11C) :: eventKeys pRESET) := by
    dsimp only [u]
    split
    · exact set
    · obtain ⟨regs, keeps⟩ := t.raise_onlyRegs pRESET 2
      exact set.trans ⟨regs, keeps.mono (List.subset_cons_self _ _)⟩
  split
  · exact raised
  · obtain ⟨regs, keeps⟩ := u.raiseErr_onlyRegs pRESET ⟨1, s.rst.absorbed, u.rst.drainStamp, 0#64⟩
    exact raised.trans ⟨regs, keeps.mono (List.subset_cons_self _ _)⟩

/-- The state in which the core starts at a release. -/
def State.restarted (s : State) : State := s.kindMaps.sleepFill.named.counted

theorem State.releaseHeld_eq (s : State) : s.releaseHeld
    = State.dbgRecheck { s.restarted.startCore (s.restarted.reg64 (pRESET + 0x10C)) with
      rst := { (s.restarted.startCore (s.restarted.reg64 (pRESET + 0x10C))).rst with sleep := false, wake := false, absorbed := 0 } } := rfl

theorem State.restarted_leaves (s : State) : ∃ regs fresh ops pool f, s.restarted = { s with
      regs := regs, fresh := fresh, tile := { s.tile with ops := ops, pool := pool }, cpu := { s.cpu with f := f }
      pitch := if s.rst.kind = 2 then s.mapped.pitch else s.pitch
      life := { s.life with shadow := s.life.granted.getD s.life.shadow, granted := none }
      rst := { s.rst with last := if s.rst.wake then 4 else s.rst.kind + 1, scrubbed := s.rst.scrubDone } }
    ∧ (s.rst.sleep = false ∨ s.rst.scrubDone = true → f = s.cpu.f ∧ ops = s.tile.ops ∧ pool = s.tile.pool) := by
  obtain ⟨m, maps⟩ := s.kindMaps_leaves
  obtain ⟨fresh, ops, pool, f, fills, kept⟩ := s.kindMaps.sleepFill_leaves
  obtain ⟨⟨m', counts⟩, -⟩ := s.kindMaps.sleepFill.named.counted_onlyRegs
  rw [maps] at kept
  refine ⟨m', fresh, ops, pool, f, ?_, kept⟩
  rw [State.restarted, counts, fills, maps]
  rfl

theorem State.restarted_start (s : State) : s.restarted.reg64 (pRESET + 0x10C) = s.reg64 (pRESET + 0x10C) := by
  obtain ⟨fresh, ops, pool, f, fills, -⟩ := s.kindMaps.sleepFill_leaves
  obtain ⟨-, keeps⟩ := s.kindMaps.sleepFill.named.counted_onlyRegs
  have same : s.kindMaps.sleepFill.named.reg64 (pRESET + 0x10C) = s.kindMaps.reg64 (pRESET + 0x10C) := by
    rw [fills]
    rfl
  rw [State.restarted, State.reg64, keeps _ (by decide), keeps _ (by decide)]
  exact same.trans s.kindMaps_start

/-- The release from a requested reset. -/
theorem State.releaseHeld_releases {s : State} (settled : s.settled) (noFence : s.ras.fence = none) : s.releaseHeld.settled
    ∧ s.releaseHeld.rst.phase = .run ∧ Started s.releaseHeld (s.reg64 (pRESET + 0x10C))
    ∧ s.releaseHeld.rst.last = (if s.rst.wake then 4 else s.rst.kind + 1) ∧ s.releaseHeld.life.shadow = s.life.granted.getD s.life.shadow
    ∧ s.releaseHeld.life.granted = none ∧ (s.rst.kind = 2 → s.releaseHeld.pitch.die = s.pitch.stagedDie)
    ∧ (s.rst.kind ≠ 2 → s.releaseHeld.pitch = s.pitch)
    ∧ (s.rst.sleep = false ∨ s.rst.scrubDone = true → s.releaseHeld.cpu.f = s.cpu.f ∧ s.releaseHeld.tile.ops = s.tile.ops
      ∧ s.releaseHeld.tile.pool = s.tile.pool) := by
  obtain ⟨regs, fresh, ops, pool, f, restarted, kept⟩ := s.restarted_leaves
  have starts := s.restarted.startCore_starts (s.restarted.reg64 (pRESET + 0x10C))
  obtain ⟨⟨⟨m, started⟩, -⟩, -⟩ := s.restarted.startCore_onlyRegs (s.restarted.reg64 (pRESET + 0x10C))
  obtain ⟨held, lost, xinvs, waiting, -, -, miss⟩ := settled
  rw [s.restarted_start] at starts started
  have ends := s.releaseHeld_eq
  rw [s.restarted_start] at ends
  generalize s.restarted.startCore (s.reg64 (pRESET + 0x10C)) = v at starts started ends
  rw [restarted] at started
  have net : v.net = s.net := by rw [started]; rfl
  have tally : v.tally = s.tally := by rw [started]; rfl
  have m1 : v.cpu.m1 = [] := by rw [started]; rfl
  have leaving : v.caches.leaving = [] := by rw [started]; rfl
  have dbg : v.dbg = s.dbg := by rw [started]; rfl
  have phase : v.rst.phase = .run := by
    rw [started]
    change (if s.ras.fence.isSome then Phase.bad else Phase.run) = .run
    rw [noFence]
    rfl
  have pitch : v.pitch = if s.rst.kind = 2 then s.mapped.pitch else s.pitch := by rw [started]; rfl
  rw [ends]
  refine ⟨⟨by rw [← held, ← net]; rfl, by rw [← lost, ← net]; rfl, by rw [← xinvs, ← net]; rfl, by rw [← waiting, ← tally]; rfl, m1, leaving, ?_⟩,
    phase, starts, by rw [started]; rfl, by rw [started]; rfl, by rw [started]; rfl, fun partition => ?_, fun other => pitch.trans (if_neg other), fun stays => ?_⟩
  · exact (ite_eq_right_iff.mpr fun _ => by rw [← miss, ← dbg])
  · exact congrArg Pitch.die (pitch.trans (if_pos partition))
  · obtain ⟨keepsF, keepsOps, keepsPool⟩ := kept stays
    rw [started, ← keepsF, ← keepsOps, ← keepsPool]
    exact ⟨rfl, rfl, rfl⟩

/-- The release from WAIT. -/
theorem State.releaseWait_releases {s : State} (noFence : s.ras.fence = none) : s.releaseWait.rst.phase = .run
    ∧ Started s.releaseWait (s.reg64 (pRESET + 0x10C)) ∧ s.releaseWait.pitch.die = s.pitch.stagedDie := by
  obtain ⟨⟨m, mapped⟩, keeps⟩ := s.applyMaps_onlyRegs
  let t : State := { s.applyMaps with rst := { s.applyMaps.rst with last := 0, scrubbed := true } }
  have start : t.reg64 (pRESET + 0x10C) = s.reg64 (pRESET + 0x10C) := by
    change s.applyMaps.reg64 (pRESET + 0x10C) = _
    rw [State.reg64, State.reg64, keeps _ (by decide), keeps _ (by decide)]
    rfl
  have releases : s.releaseWait = t.startCore (s.reg64 (pRESET + 0x10C)) := congrArg t.startCore start
  obtain ⟨⟨⟨m', started⟩, -⟩, -⟩ := t.startCore_onlyRegs (s.reg64 (pRESET + 0x10C))
  have fence : t.ras.fence = none := by
    dsimp only [t]
    rw [mapped]
    exact noFence
  have die : t.pitch.die = s.pitch.stagedDie := by
    dsimp only [t]
    rw [mapped]
    rfl
  rw [releases]
  refine ⟨?_, t.startCore_starts _, ?_⟩
  · rw [started]
    change (if t.ras.fence.isSome then Phase.bad else Phase.run) = .run
    rw [fence]
    rfl
  · rw [started]
    exact die

/-- Settles O49, phase by phase: `State.fuseWord_takes`, `State.enterReset_drains`, `State.endDrain_ends`, `State.scrub_leaves`,
`State.releaseHeld_releases`, `State.releaseWait_releases`. -/
theorem resetsRunTheirPhases : Obligations.ResetsRunTheirPhases := by
  intro s
  refine ⟨rfl, fun low straps trstn wsel => congrArg _ (if_pos low), fun phase low more v => ⟨_, rfl, State.fuseWord_takes phase low more v⟩,
    fun quiet low run power => ⟨fun k kind => ?_, fun who reaches => ?_⟩, fun quiet phase => ⟨fun done => ?_, ?_⟩,
    fun quiet phase => ⟨fun out => ?_, fun out => ?_⟩, fun quiet phase stays => ?_, fun quiet phase rails clean noFence => ?_,
    fun who reaches phase low clean noFence => ⟨fun on rails => ?_, fun lacks => ?_⟩⟩
  · have enters : (s.requestReset k.toNat false).railsGood = s.enterReset k.toNat false false := by
      rw [State.requestReset_run low run power]
      rfl
    have done : exec (.rstReq k) s = .next (s.requestReset k.toNat false).railsGood.settleHeld := congrArg _ (if_neg kind)
    exact Leaves.of_settled done enters (quiet.enterReset k.toNat false false) (State.enterReset_drains quiet.noneWaiting k.toNat false false)
  · have enters : s.latchWfi.requestReset 0 false = s.latchWfi.enterReset 0 false false :=
      State.requestReset_run (by rw [State.latchWfi_wait, low]) (by rw [State.latchWfi_wait, run]) (by rw [State.latchWfi_wait]; exact power) 0 false
    refine Leaves.of_settled rfl ((State.accessWrite_coreRst reaches).trans enters) (quiet.latchWfi.enterReset 0 false false) ?_
    have drains := State.enterReset_drains quiet.latchWfi.noneWaiting 0 false false
    rw [State.latchWfi_wait] at drains ⊢
    exact drains
  · obtain ⟨settled, next, net, -, sb, loads, seen⟩ := State.endDrain_ends quiet.1
    exact Leaves.of_settled rfl (if_pos (by rw [phase, done]; rfl)) settled ⟨next, congrArg Net.tags net, sb, loads, seen⟩
  · obtain ⟨settled, ends⟩ := State.drainOver_ends quiet.1 phase
    exact Leaves.of_settled rfl rfl settled ends
  · have stays : s.scrubbed = s := if_neg (by rw [out, Bool.and_false]; decide)
    change Host.Outcome.next s.scrubbed.settleHeld = _
    rw [stays, s.settleHeld_settled quiet.1]
  · let t : State := { s.scrub with rst := { s.scrub.rst with scrubDone := true, phase := if s.scrub.rst.fenceDrain then .bad else .held } }
    have scrubs : s.scrubbed = t := if_pos (by rw [phase, out]; rfl)
    have beside := s.scrub_leaves
    have rst : s.scrub.rst = s.rst := (congrArg State.rst beside :)
    have settled : t.settled := by
      have net : t.net = s.net := (congrArg State.net beside :)
      have tally : t.tally = s.tally := (congrArg State.tally beside :)
      have m1 : t.cpu.m1 = s.cpu.m1 := (congrArg (fun u : State => u.cpu.m1) beside :)
      have caches : t.caches = s.caches := (congrArg State.caches beside :)
      have dbg : t.dbg = s.dbg := (congrArg State.dbg beside :)
      unfold State.settled
      rw [net, tally, m1, caches, dbg]
      exact quiet.1
    refine Leaves.of_settled rfl scrubs settled ⟨?_, rfl, rfl, rfl, ?_, fun g s2 service on a low high => State.scrub_zeroes s2 service on low high⟩
    · exact congrArg (fun r : Rst => if r.fenceDrain then Phase.bad else Phase.held) rst
    · exact (congrArg (fun u : State => u.cpu.g) beside :)
  · have stays : s.holdLow = s := if_neg (by rcases stays with rails | taint <;> simp [*])
    change Host.Outcome.next s.holdLow.settleHeld = _
    rw [stays, s.settleHeld_settled quiet.1]
  · obtain ⟨settled, releases⟩ := State.releaseHeld_releases quiet.1 noFence
    exact Leaves.of_settled rfl (if_pos (by rw [phase, rails, clean]; rfl)) settled releases
  · have asks : s.latchWfi.askRelease = s.latchWfi.releaseWait := by
      rw [State.latchWfi_wait]
      refine (if_pos ?_).trans (if_pos ?_)
      · simp [phase, low, clean, noFence]
      · exact (Bool.and_eq_true _ _).mpr ⟨on, beq_iff_eq.mpr rails⟩
    refine Leaves.of_eq rfl ((State.accessWrite_release reaches).trans asks) ?_
    rw [State.latchWfi_wait]
    exact State.releaseWait_releases (s := { s with cpu := { s.cpu with wait := _ } }) noFence
  · refine congrArg Host.Outcome.next ((State.accessWrite_release reaches).trans ?_)
    rw [State.latchWfi_wait]
    refine (if_pos ?_).trans (if_neg ?_)
    · simp [phase, low, clean, noFence]
    · rw [Bool.and_eq_true, beq_iff_eq]
      rintro ⟨on, rails⟩
      rcases lacks with off | bad
      · exact Bool.false_ne_true (off.symm.trans on)
      · exact bad rails

end Sys2Proof.Machine
end

section
/-! PROOF. A write through the debug port need not write its bytes (O52 fails): of a weight-class unit that it covers in part the rest is read from the
weight unit that the unit remembers (R359, R360), and nothing that is assumed says that this holds 32 bytes. Where it holds none the merge puts
the new bytes at the unit's first byte, wherever they were to go. -/

namespace Sys2Proof.Machine

/-- A running core with the wrapper selected and every group ON; window 0 gives unit 0 the weight class, and its mark remembers a weight unit of no bytes. -/
def shortBase : State :=
  let s := State.reset
  { s with
    rst := { Rst.init with phase := .run, wholeLow := false }
    spx := { Spx.init with groups := Vector.replicate 16 .on, marks := [⟨0, 0xF#4, 0#4, 0#288, some []⟩] }
    dbg := { Debug.init with wsel := true }
    regs := [(0x6204, 31#32), (0x6208, 0x8010#32)] }

/-- The doubleword at offset 8 of the scratchpad. -/
def secondDword : BitVec 56 := 0x40000008#56

/-- The write of 5 to the second doubleword leaves its first byte 0. -/
theorem dbgAccess_shortBase :
    ((shortBase.wrapInstr 0x11 .access fun s => s.dbgAccess (.memWrite secondDword 5#64)).settleHeld).spx.mem.get 8 = 0#8 := by
  decide +kernel

/-- Refutes O52: DBG_ACCESS of `shortBase` stores the written bytes at offset 0, not at offset 8. -/
theorem not_debugInstructions : ¬ Obligations.DebugInstructions := by
  unfold Obligations.DebugInstructions
  intro holds
  obtain ⟨-, -, -, -, -, -, -, -, -, -, accesses, -⟩ := holds shortBase (by decide +kernel)
  have quiet : shortBase.quiet := by
    unfold State.quiet State.settled
    decide +kernel
  obtain ⟨-, memory⟩ := accesses quiet
  obtain ⟨-, write⟩ := memory secondDword 8 [] (by decide +kernel) (by decide +kernel)
  obtain ⟨selected, -⟩ := write 5#64 (by decide +kernel)
  obtain ⟨t, done, -, -, bytes⟩ := (selected (by decide +kernel)).1 (by decide +kernel)
  injection done with done
  have first : t.spx.mem.get 8 = 5#8 := bytes 0 (by decide)
  rw [← done] at first
  exact absurd (dbgAccess_shortBase.symm.trans first) (by decide)

end Sys2Proof.Machine
end

section
/-! PROOF. Corrected write-backs, the handshakes of the memory ports, the power of bank groups (O46; R361 to R367, R413 to R415). -/

namespace Sys2Proof.Machine

/-! ## Write-backs (R361) -/

/-- Every word of a unit written over leaves no flipped bit. -/
theorem clearWords_all (fl : UnitFlips) : clearWords fl 0xF#4 = 0#288 := by
  have masks : fl &&& ~~~(BitVec.ofNat 288 ((2 ^ 72 - 1) * 2 ^ (72 * 0))) &&& ~~~(BitVec.ofNat 288 ((2 ^ 72 - 1) * 2 ^ (72 * 1)))
      &&& ~~~(BitVec.ofNat 288 ((2 ^ 72 - 1) * 2 ^ (72 * 2))) &&& ~~~(BitVec.ofNat 288 ((2 ^ 72 - 1) * 2 ^ (72 * 3))) = 0#288 := by
    rw [BitVec.and_assoc, BitVec.and_assoc, BitVec.and_assoc]
    have none : ~~~(BitVec.ofNat 288 ((2 ^ 72 - 1) * 2 ^ (72 * 0))) &&& (~~~(BitVec.ofNat 288 ((2 ^ 72 - 1) * 2 ^ (72 * 1)))
      &&& (~~~(BitVec.ofNat 288 ((2 ^ 72 - 1) * 2 ^ (72 * 2))) &&& ~~~(BitVec.ofNat 288 ((2 ^ 72 - 1) * 2 ^ (72 * 3))))) = 0#288 := by decide +kernel
    rw [none, BitVec.and_zero]
  exact masks

theorem State.mark_unit (s : State) (u : Nat) : (s.mark u).unit = u := by
  unfold State.mark
  cases found : s.spx.marks.find? fun m => m.unit == u with
  | none => rfl
  | some m => exact beq_iff_eq.mp (List.find?_some found :)

/-- A unit reads with the mark that it was given, or with none where that says nothing. -/
theorem State.mark_setMark_flips (s : State) (m : UnitMark) : ((s.setMark m).mark m.unit).flips = m.flips := by
  unfold State.setMark State.mark
  split
  · next clean =>
    have gone : (s.spx.marks.filter fun x => x.unit != m.unit).find? (fun x => x.unit == m.unit) = none := by
      rw [List.find?_filter]
      exact List.find?_eq_none.mpr (by simp)
    simp only [Bool.and_eq_true, decide_eq_true_eq] at clean
    dsimp only
    rw [gone, clean.1.2]
    rfl
  · have below : ((s.spx.marks.filter fun x => x.unit != m.unit).filter fun x => x.unit < m.unit).find? (fun x => x.unit == m.unit) = none := by
      refine List.find?_eq_none.mpr fun x mem => ?_
      have less := of_decide_eq_true (List.mem_filter.mp mem).2
      simp only [beq_iff_eq]
      omega
    dsimp only
    rw [List.find?_append, below, List.find?_cons_of_pos (by simp)]
    rfl

theorem decodeUnit_length (m : UnitMark) (data : List Byte) (fl : UnitFlips) : (decodeUnit false m data fl).data.length = 32 := by
  simp [decodeUnit, List.range_succ, leBytes_length]

/-- A unit's eight-byte words in turn. -/
theorem words_flatMap {bs : List Byte} (len : bs.length = 32) : ((List.range 4).flatMap fun k => (bs.drop (8 * k)).take 8) = bs :=
  take_words len

/-- The oldest corrected unit is written back as it reads. -/
theorem State.corrWriteback_writes {s : State} {u : Nat} {rest : List Nat} (corr : s.spx.corr = u :: rest) (activation : s.weightClass u = false)
    (up : s.unitDown u = false) (good : (decodeUnit false (s.mark u) (s.unitData u) (s.mark u).flips).bad = 0#4) :
    ∃ v : State, v.seen = s.seen ∧ v.spx.corr = rest ∧ ∃ m : UnitMark, m.unit = u ∧ m.flips = 0#288
      ∧ s.corrWriteback = v.putUnit u 0 (decodeUnit false (s.mark u) (s.unitData u) (s.mark u).flips).data m := by
  let t : State := { s with spx := { s.spx with corr := rest } }
  let r := decodeUnit false (s.mark u) (s.unitData u) (s.mark u).flips
  let m : UnitMark := { s.mark u with weight := (s.mark u).weight &&& r.bad, flips := clearWords (s.mark u).flips (~~~r.bad)
                                      base := (s.mark u).baseAfter (s.unitData u) }
  have bytes : ((List.range 4).flatMap fun k => ((if r.bad.getLsbD k then s.unitData u else r.data).drop (8 * k)).take 8) = r.data := by
    simp only [r, good, BitVec.getLsbD_zero, Bool.false_eq_true, if_false]
    exact words_flatMap (decodeUnit_length _ _ _)
  refine ⟨t.charge 6 1, rfl, rfl, m, s.mark_unit u, ?_, ?_⟩
  · change clearWords (s.mark u).flips (~~~r.bad) = 0#288
    rw [good]
    exact clearWords_all _
  · have same : t.weightClass u = false := activation
    have down : t.unitDown u = false := up
    have within : r.beyond = false := rfl
    simp only [t] at same down
    simp only [State.corrWriteback, corr, same, down, Bool.false_and, Bool.or_false, Bool.false_eq_true, if_false]
    rw [if_neg (by exact Bool.false_ne_true)]
    exact congrArg (fun bs => (t.charge 6 1).putUnit u 0 bs m) bytes

/-- What a unit that was put holds. -/
theorem State.putUnit_whole (s : State) {u : Nat} {bs : List Byte} (len : bs.length = 32) {m : UnitMark} (unit : m.unit = u) :
    (s.putUnit u 0 bs m).spx.corr = s.spx.corr.filter (· != u) ∧ ((s.putUnit u 0 bs m).mark u).flips = m.flips
      ∧ (s.putUnit u 0 bs m).unitData u = bs
      ∧ (∀ a, a < 32 * u ∨ 32 * u + 32 ≤ a → (s.putUnit u 0 bs m).spx.mem.get a = s.spx.mem.get a)
      ∧ { (s.putUnit u 0 bs m).seen with spx := s.seen.spx } = s.seen := by
  refine ⟨rfl, ?_, ?_, fun a out => ?_, rfl⟩
  · subst unit
    exact s.mark_setMark_flips m
  · change (s.spx.mem.write (32 * u + 0) bs).read (32 * u) 32 = bs
    have whole := s.spx.mem.read_write (32 * u) bs
    rwa [len] at whole
  · exact s.spx.mem.get_write_other (32 * u + 0) bs a (by omega)

/-! ## Handshakes (R27, R32) -/

/-- A load's destination lies in the pipeline's state. -/
theorem State.writeDest_cpu (s : State) (d : LoadDest) (bs : List Byte) (bad : Bool) : ∃ c, s.writeDest d bs bad = { s with cpu := c } := by
  have setG (n : Fin 32) (v : DWord) : ∃ c, s.setG n v = { s with cpu := c } := by
    unfold State.setG
    split
    · exact ⟨s.cpu, rfl⟩
    · exact ⟨_, rfl⟩
  have setView (wide : Bool) (n : Fin 32) (v : VView) : ∃ c, s.setView wide n v = { s with cpu := c } := by
    cases wide <;> exact ⟨_, rfl⟩
  cases d with
  | g n sgn => exact setG n _
  | f n => exact ⟨_, rfl⟩
  | v wide n => exact setView wide n _
  | el wide n w k => exact setView wide n _
  | crc n sel => exact setG n _

theorem State.settleLoad_cpu (s : State) (id : Nat) : ∃ c, s.settleLoad id = { s with cpu := c } := by
  unfold State.settleLoad
  split
  · split
    · obtain ⟨c, eq⟩ := State.writeDest_cpu ({ s with cpu := { s.cpu with loads := s.cpu.loads.filter fun x => x.id != id } } : State) _ _ _
      rw [eq]
      exact ⟨c, rfl⟩
    · exact ⟨s.cpu, rfl⟩
  · exact ⟨s.cpu, rfl⟩

/-- The delivery of a piece changes the pipeline's state alone. -/
theorem State.deliver_cpu (s : State) (p : Piece) (bs : List Byte) : ∃ c, s.deliver p bs = { s with cpu := c } := by
  obtain ⟨c, eq⟩ := State.settleLoad_cpu (s.modJob p.job fun j =>
    { j with bytes := putBytes j.bytes p.pos ((bs.drop p.off).take p.len), missing := j.missing - p.len }) p.job
  exact ⟨c, eq⟩

/-- A piece that arrives completes its load where it is the last. -/
theorem State.deliver_arrives {s t : State} (loads : t.cpu.loads = s.cpu.loads) (sees : t.seen = s.seen) (p : Piece) (bs : List Byte) :
    Arrived s (t.deliver p bs) p bs := by
  intro job found last good noCrc
  rw [← loads] at found ⊢
  obtain ⟨v, flight, same, done⟩ := State.deliver_last found last bs
  rw [done, good]
  refine ⟨?_, ?_⟩
  · exact (congrArg InFlight.loads (v.writeDest_inFlight _ _ _)).trans (congrArg InFlight.loads flight)
  · rw [v.writeDest_sees noCrc, same, sees]

theorem State.s1Response_delivers {s : State} {q : S1Req} {rest : List S1Req} {p : Piece} (out : s.spx.s1out = q :: rest) (read : q.we = false)
    (piece : q.piece = some p) (data : List Byte) :
    s.s1Response data false = ({ s with spx := { s.spx with s1out := rest } } : State).deliver p data := by
  simp [State.s1Response, out, read, piece]

theorem State.bootResponse_delivers {s : State} {q : BootReq} {rest : List BootReq} {p : Piece} (out : s.boot.out = q :: rest) (header : q.header = none)
    (debug : q.debug = false) (fetch : q.fetch = false) (walk : q.walk = none) (read : q.we = false) (piece : q.piece = some p) (data : DWord) :
    s.bootResponse data false = ({ s with boot := { s.boot with out := rest } } : State).deliver p (leBytes data.toNat 8) := by
  simp [State.bootResponse, out, header, debug, fetch, walk, read, piece]

/-- The image header's length and its check stand in their registers. -/
def State.headerNoted (s : State) : State :=
  let b := s.boot.header.flatMap fun d => leBytes d.toNat 8
  let t := (s.setReg (pRESET + 0x208) (w32 (leNat ((b.drop 0x0C).take 4)))).setReg (pRESET + 0x20C) (w32 (headerCheck s.boot.header s.boot.bad))
  { t with rst := { t.rst with booting := false } }

/-- ENTRY of the image header. -/
def State.headerEntry (s : State) : Nat := leNat (((s.boot.header.flatMap fun d => leBytes d.toNat 8).drop 8).take 4)

/-- A header that is good: fetch starts at its ENTRY (R415). -/
theorem State.headerDone_good {s : State} (good : headerCheck s.boot.header s.boot.bad = 0) : s.headerDone.rst.booting = false
    ∧ s.headerDone.rst.phase = s.rst.phase ∧ s.headerDone.seen = { s.seen with ip := 0xFC000000000000#64 + w64 s.headerEntry } := by
  have done : s.headerDone = { s.headerNoted.setReg64 (pRESET + 0x200) (w64 (0xFC000000000000 + s.headerEntry)) with
    cpu := { s.cpu with ip := w64 (0xFC000000000000 + s.headerEntry) } } := if_pos good
  have ip : w64 (0xFC000000000000 + s.headerEntry) = 0xFC000000000000#64 + w64 s.headerEntry := BitVec.ofNat_add _ _
  rw [done, ip]
  exact ⟨rfl, rfl, rfl⟩

/-- A header that is not. -/
theorem State.headerDone_bad {s : State} (bad : headerCheck s.boot.header s.boot.bad ≠ 0) : s.headerDone.rst.booting = false
    ∧ s.headerDone.rst.phase = .bootfail ∧ s.headerDone.seen = s.seen := by
  let e : ErrEvt := ⟨3, headerCheck s.boot.header s.boot.bad, s.headerNoted.stamp, 0x18#64⟩
  have done : s.headerDone = { s.headerNoted.raiseErr pRESET e with rst := { (s.headerNoted.raiseErr pRESET e).rst with phase := .bootfail } } :=
    if_neg bad
  obtain ⟨⟨m, eq⟩, -⟩ := s.headerNoted.raiseErr_onlyRegs pRESET e
  rw [done, eq]
  exact ⟨rfl, rfl, rfl⟩

/-! ## Groups (R362 to R364) -/

theorem Memory.get_clear (m : Memory) (a n x : Nat) : (m.clear a n).get x = if a ≤ x ∧ x < a + n then 0#8 else m.get x := by
  split
  · next within => exact m.get_clear_in within.1 within.2
  · next out => exact Memory.get_filter m (fun y => y < a || a + n ≤ y) x (by rw [Bool.or_eq_true, decide_eq_true_eq, decide_eq_true_eq]; omega)

/-- A group follows its bit of SPX_BANKPWR. -/
theorem State.followPower_group (s : State) (g : Fin 16) : s.followPower.spx.groups[g] = if !s.inService g.val then s.spx.groups[g] else
    match s.spx.groups[g] with
    | .off => if (s.reg 0x6118).getLsbD g.val then .opening else .off
    | .on => if (s.reg 0x6118).getLsbD g.val then .on else .closing
    | x => x := by
  unfold State.followPower
  dsimp only
  simp only [Fin.getElem_fin, Vector.getElem_ofFn]
  rfl

/-- What of a state tells whether groups are in service, with the scratchpad. -/
def State.banks (s : State) : Build × List Word × BitVec 256 × Spx := (s.build, s.life.fuses, s.ras.retired, s.spx)

/-- A group with a retired bank is out of service. -/
theorem State.inService_retired {s : State} {b : Nat} (retired : s.retired (0x80 + b) = true) : s.inService (b / 8) = false := by
  have bank : 8 * (b / 8) + b % 8 = b := Nat.div_add_mod b 8
  rw [State.inService, Bool.and_eq_false_iff]
  refine .inr (List.all_eq_false.mpr ⟨b % 8, List.mem_range.mpr (Nat.mod_lt b (by decide)), ?_⟩)
  rw [bank, retired]
  simp

theorem OnlyRegs.banks {s t : State} {ks : List Nat} (h : OnlyRegs s t ks) : t.banks = s.banks := by
  obtain ⟨⟨m, rfl⟩, -⟩ := h
  rfl

theorem State.addLedger_banks (s : State) (type channel level : Nat) (code : Word) (addr : DWord) (fromFw : Bool) :
    (s.addLedger type channel level code addr fromFw).1.banks = s.banks := by
  unfold State.addLedger
  split <;> rfl

/-- A fence leaves the banks as they are. -/
theorem State.fenceCore_banks (s : State) (reason : Byte) (reapply fromFw : Bool) : (s.fenceCore reason reapply fromFw).1.banks = s.banks := by
  unfold State.fenceCore
  split
  · rfl
  · extract_lets ras fenced entry r abandoned able dropped net life closed rst drained
    have ledger : r.1.banks = s.banks := by
      unfold r
      split
      · rfl
      · exact fenced.addLedger_banks _ _ _ _ _ _
    have drop : dropped.banks = r.1.banks := by
      unfold dropped
      split <;> rfl
    have drain : drained.banks = dropped.banks := by
      unfold drained
      split <;> rfl
    exact drain.trans (drop.trans ledger)

theorem State.hasChannel_bank {s : State} {b : Nat} (s2 : s.build.s2 = true) (bank : b < s.build.nBanks) : s.hasChannel (0x80 + b) = true := by
  simp [State.hasChannel, s2, bank]

/-- The banks once bank `b` has retired: its group leaves service (R436). -/
def State.banksWithout (s : State) (b : Nat) : Build × List Word × BitVec 256 × Spx :=
  (s.build, s.life.fuses, s.ras.retired ||| (1#256 <<< (0x80 + b)),
    { s.spx with groups := s.spx.groups.set (Fin.ofNat 16 (b / 8)) (leaveService s.spx.groups[Fin.ofNat 16 (b / 8)]) })

theorem State.retireEffect_banks (s : State) (b : Nat) (reapply fromFw : Bool) : (s.retireEffect (0x80 + b) reapply fromFw).1.banks
    = (s.build, s.life.fuses, s.ras.retired,
      { s.spx with groups := s.spx.groups.set (Fin.ofNat 16 (b / 8)) (leaveService s.spx.groups[Fin.ofNat 16 (b / 8)]) }) := by
  unfold State.retireEffect
  rw [if_neg (by omega), if_neg (by omega), if_neg (by omega), if_neg (by omega), if_neg (by omega), if_neg (by omega), if_neg (by omega)]
  simp only [Nat.add_sub_cancel_left]
  split
  · exact State.fenceCore_banks _ _ _ _
  · rfl

/-- A group that leaves service, of what `State.banks` gives. -/
def leaveBank (b : Nat) (x : Build × List Word × BitVec 256 × Spx) : Build × List Word × BitVec 256 × Spx :=
  (x.1, x.2.1, x.2.2.1, { x.2.2.2 with
    groups := x.2.2.2.groups.set (Fin.ofNat 16 (b / 8)) (leaveService x.2.2.2.groups[Fin.ofNat 16 (b / 8)]) })

theorem State.retireChannel_banks {s : State} {b : Nat} (there : s.hasChannel (0x80 + b) = true) (stands : s.retired (0x80 + b) = false)
    (reapply fromFw : Bool) : (s.retireChannel (0x80 + b) reapply fromFw).1.banks = s.banksWithout b := by
  let t : State := { s with ras := { s.ras with retired := s.ras.retired ||| (1#256 <<< (0x80 + b)) } }
  have test : ¬(!s.hasChannel (0x80 + b) || s.retired (0x80 + b)) = true := by
    rw [there, stands]
    decide
  have effect (v : State) (same : v.banks = t.banks) : (v.retireEffect (0x80 + b) reapply fromFw).1.banks = s.banksWithout b :=
    (State.retireEffect_banks v b reapply fromFw).trans (congrArg (leaveBank b) same)
  rw [State.retireChannel, if_neg test]
  refine effect _ ?_
  cases reapply
  · exact State.addLedger_banks _ _ _ _ _ _ _
  · rfl

/-- A bank that is to retire retires, and its group leaves service. -/
theorem State.rasCount_bank {s : State} {b : Nat} (s2 : s.build.s2 = true) (bank : b < s.build.nBanks) (stands : s.retired (0x80 + b) = false)
    (code : Nat) (addr : DWord) : (s.rasCount (0x80 + b) .immediate code addr).banks = s.banksWithout b := by
  have there := State.hasChannel_bank s2 bank
  let t := s.leak.noteErr (0x80 + b) code addr
  have same : t.banks = s.banks := by
    change s.leak.banks = s.banks
    unfold State.leak
    split <;> rfl
  have there' : t.hasChannel (0x80 + b) = true := by
    have build : t.build = s.build := congrArg (fun x => x.1) same
    exact State.hasChannel_bank (by rw [build, s2]) (by rw [build]; exact bank)
  have stands' : t.retired (0x80 + b) = false := by
    have retired : t.ras.retired = s.ras.retired := congrArg (fun x => x.2.2.1) same
    rw [State.retired, retired]
    exact stands
  have counts : s.rasCount (0x80 + b) .immediate code addr = State.flushEvts (t.retireChannel (0x80 + b) false false) := by
    rw [State.rasCount, there, stands]
    rfl
  rw [counts]
  refine ((State.raiseErrs_onlyRegs _ pRAS _).banks.trans (State.retireChannel_banks there' stands' false false)).trans ?_
  exact congrArg (fun x : Build × List Word × BitVec 256 × Spx => (x.1, x.2.1, x.2.2.1 ||| (1#256 <<< (0x80 + b)), ({ x.2.2.2 with
    groups := x.2.2.2.groups.set (Fin.ofNat 16 (b / 8)) (leaveService x.2.2.2.groups[Fin.ofNat 16 (b / 8)]) } : Spx))) same

/-- A group's bytes lost. -/
theorem State.loseGroup_zero (s : State) (g a : Nat) : (s.loseGroup g).spx.mem.get a
    = if g * s.build.groupBytes ≤ a ∧ a < g * s.build.groupBytes + s.build.groupBytes then 0#8 else s.spx.mem.get a :=
  s.spx.mem.get_clear _ _ a

theorem State.setGroup_group (s : State) (g : Fin 16) (x : GroupState) : (s.setGroup g x).spx.groups[g] = x := by
  simp [State.setGroup]

/-- The zero-fill's end (R363). -/
theorem State.groupOpen_opens {s : State} {g : Fin 16} (opening : s.spx.groups[g] = .opening) (filling : s.spx.filling.getLsbD g.val = true)
    (noRelease : s.rst.releaseKept = false) : s.groupOpen g
      = (((s.loseGroup g.val).charge 6 (s.build.groupBytes / 32)).setGroup g .on).followPower := by
  have test : (s.group g == .opening && s.spx.filling.getLsbD g.val) = true := by
    rw [filling, Bool.and_true]
    exact beq_iff_eq.mpr opening
  rw [State.groupOpen, if_pos test]
  exact if_neg fun kept => Bool.false_ne_true (noRelease.symm.trans kept)

/-- A bank of a group in ON or CLOSING loses its power with no read in flight (R364). -/
theorem State.bankLoss_loses {s : State} {b : Nat} (s2 : s.build.s2 = true) (bank : b < s.build.nBanks)
    (group : s.spx.groups[Fin.ofNat 16 (b / 8)] = .on ∨ s.spx.groups[Fin.ofNat 16 (b / 8)] = .closing) (idle : s.spx.reads = []) :
    ∃ u : State, u.banks = ((s.loseGroup (Fin.ofNat 16 (b / 8)).val).setGroup (Fin.ofNat 16 (b / 8)) .off).banks
      ∧ u.seen = (s.loseGroup (Fin.ofNat 16 (b / 8)).val).seen
      ∧ s.bankLoss b = (u.rasCount (0x80 + b) .immediate 0 (w64 ((Fin.ofNat 16 (b / 8)).val * s.build.groupBytes))).followPower := by
  have test : (s.build.s2 && decide (b < s.build.nBanks)
      && (s.group (Fin.ofNat 16 (b / 8)) == .on || s.group (Fin.ofNat 16 (b / 8)) == .closing)) = true := by
    rw [s2, decide_eq_true bank, Bool.true_and, Bool.true_and, Bool.or_eq_true, beq_iff_eq, beq_iff_eq]
    exact group
  have none : ({ s with spx := { s.spx with reads := s.spx.reads.filter fun r => !(32 * r.unit / s.build.groupBytes == (Fin.ofNat 16 (b / 8)).val) } } : State)
      = s := by
    rw [idle, List.filter_nil, ← idle]
  refine ⟨(s.loseGroup (Fin.ofNat 16 (b / 8)).val).setGroup (Fin.ofNat 16 (b / 8)) .off, rfl, rfl, ?_⟩
  rw [State.bankLoss]
  refine (if_pos test).trans ?_
  dsimp only
  rw [none, idle]
  rfl

/-- Once its bank has retired, a group that is OFF stays so. -/
theorem State.rasCount_bank_off {s : State} {b : Nat} (small : b < 128) (s2 : s.build.s2 = true) (bank : b < s.build.nBanks)
    (off : s.spx.groups[Fin.ofNat 16 (b / 8)] = .off) (code : Nat) (addr : DWord) :
    (s.rasCount (0x80 + b) .immediate code addr).retired (0x80 + b) = true
      ∧ (s.rasCount (0x80 + b) .immediate code addr).spx.groups[Fin.ofNat 16 (b / 8)] = .off := by
  by_cases stands : s.retired (0x80 + b) = true
  · have stays : s.rasCount (0x80 + b) .immediate code addr = s := if_pos (by rw [stands, Bool.or_true])
    rw [stays]
    exact ⟨stands, off⟩
  · have banks := State.rasCount_bank s2 bank (Bool.eq_false_iff.mpr stands) code addr
    have retired : (s.rasCount (0x80 + b) .immediate code addr).ras.retired = s.ras.retired ||| (1#256 <<< (0x80 + b)) :=
      congrArg (fun x => x.2.2.1) banks
    have spx : (s.rasCount (0x80 + b) .immediate code addr).spx = (s.banksWithout b).2.2.2 := congrArg (fun x => x.2.2.2) banks
    refine ⟨?_, ?_⟩
    · rw [State.retired, retired, BitVec.getLsbD_or, Bool.or_eq_true]
      exact .inr (by simp [show 128 + b < 256 by omega])
    · rw [spx]
      change (s.spx.groups.set (Fin.ofNat 16 (b / 8)) (leaveService s.spx.groups[Fin.ofNat 16 (b / 8)]))[Fin.ofNat 16 (b / 8)] = .off
      rw [off]
      exact Vector.getElem_set_self _

theorem writeBacksAndHandshakes : WriteBacksAndHandshakes := by
  intro s
  refine ⟨fun u rest corr activation up good => ?_, fun q rest offered room => ?_, fun q rest p data out read piece => ?_, fun q rest data err out write => ?_,
    fun q rest offered porter room => ?_, fun q rest p data out header debug fetch walk read piece => ?_,
    fun q rest data err n out header => ⟨fun other => ?_, fun last => ?_⟩⟩
  · obtain ⟨v, sees, corr', m, unit, clean, writes⟩ := State.corrWriteback_writes corr activation up good
    obtain ⟨left, flips, data, others, rest'⟩ := v.putUnit_whole (decodeUnit_length (s.mark u) (s.unitData u) (s.mark u).flips) unit
    have mem : v.spx.mem = s.spx.mem := congrArg Seen.spx sees
    refine Leaves.of_eq rfl writes ⟨by rw [left, corr'], flips.trans clean, data, fun a out => (others a out).trans (by rw [mem]), ?_⟩
    rw [sees] at rest'
    exact rest'
  · refine congrArg Host.Outcome.next ?_
    simp only [State.s1Accept, offered, room, if_true, Bool.and_eq_true, beq_iff_eq, decide_eq_true_eq]
  · have delivers := State.s1Response_delivers out read piece (leBytes data.toNat 64)
    refine Leaves.of_eq rfl delivers ⟨?_, State.deliver_arrives (s := s) (t := { s with spx := { s.spx with s1out := rest } }) rfl rfl p _⟩
    obtain ⟨c, eq⟩ := State.deliver_cpu ({ s with spx := { s.spx with s1out := rest } } : State) p (leBytes data.toNat 64)
    rw [eq]
  · refine congrArg Host.Outcome.next ?_
    simp [State.s1Response, out, write]
  · refine congrArg Host.Outcome.next ?_
    simp [State.bootAccept, offered, porter, room]
  · have delivers := State.bootResponse_delivers out header debug fetch walk read piece data
    refine Leaves.of_eq rfl delivers ⟨?_, State.deliver_arrives (s := s) (t := { s with boot := { s.boot with out := rest } }) rfl rfl p _⟩
    obtain ⟨c, eq⟩ := State.deliver_cpu ({ s with boot := { s.boot with out := rest } } : State) p (leBytes data.toNat 8)
    rw [eq]
  · refine congrArg Host.Outcome.next ?_
    simp [State.bootResponse, out, header, other]
  · let u : State := { s with boot := { s.boot with out := rest, header := s.boot.header ++ [data], bad := s.boot.bad || err } }
    have ends : s.bootResponse data err = u.headerDone := by
      simp [State.bootResponse, out, header, last, u]
    refine Leaves.of_eq rfl ends ?_
    by_cases good : headerCheck u.boot.header u.boot.bad = 0
    · obtain ⟨booting, phase, sees⟩ := State.headerDone_good good
      exact ⟨booting, fun _ => ⟨phase, sees⟩, fun bad => absurd good bad⟩
    · obtain ⟨booting, phase, sees⟩ := State.headerDone_bad good
      exact ⟨booting, fun zero => absurd zero good, fun _ => ⟨phase, sees⟩⟩

theorem groupsOpenAndClose : GroupsOpenAndClose := by
  intro s g s2
  dsimp only
  refine ⟨fun opening => ?_, fun opening filling noRelease => ?_, fun closing idle => ?_, fun b bank home group idle => ?_⟩
  · exact congrArg Host.Outcome.next (if_pos (by rw [s2, Bool.true_and]; exact beq_iff_eq.mpr opening))
  · refine Leaves.of_eq rfl (State.groupOpen_opens opening filling noRelease) ⟨fun a => s.loseGroup_zero g.val a, rfl, ?_⟩
    rw [State.followPower_group, State.setGroup_group]
    change (if !s.inService g.val then GroupState.on else if (s.reg 0x6118).getLsbD g.val then .on else .closing) = _
    cases s.inService g.val <;> cases (s.reg 0x6118).getLsbD g.val <;> rfl
  · have test : (s.group g == .closing && !s.groupBusy g.val) = true := by
      rw [idle, Bool.not_false, Bool.and_true]
      exact beq_iff_eq.mpr closing
    refine Leaves.of_eq rfl (if_pos test) ⟨fun a => s.loseGroup_zero g.val a, rfl, ?_⟩
    rw [State.followPower_group, State.setGroup_group]
    change (if !s.inService g.val then GroupState.off else if (s.reg 0x6118).getLsbD g.val then .opening else .off) = _
    cases s.inService g.val <;> cases (s.reg 0x6118).getLsbD g.val <;> rfl
  · have here : Fin.ofNat 16 (b.val / 8) = g := by rw [home]; exact Fin.ofNat_val_eq_self g
    subst here
    obtain ⟨u, banks, sees, loses⟩ := State.bankLoss_loses s2 bank group idle
    have build : u.build = s.build := congrArg (fun x => x.1) banks
    have spx : u.spx = ((s.loseGroup (Fin.ofNat 16 (b.val / 8)).val).setGroup (Fin.ofNat 16 (b.val / 8)) .off).spx := congrArg (fun x => x.2.2.2) banks
    have off : u.spx.groups[Fin.ofNat 16 (b.val / 8)] = .off := by rw [spx, State.setGroup_group]
    obtain ⟨retired, stays⟩ := State.rasCount_bank_off b.isLt (by rw [build, s2]) (by rw [build]; exact bank) off 0
      (w64 ((Fin.ofNat 16 (b.val / 8)).val * s.build.groupBytes))
    have counted := (State.rasCount_seen u (0x80 + b.val) .immediate 0 (w64 ((Fin.ofNat 16 (b.val / 8)).val * s.build.groupBytes))).trans sees
    generalize u.rasCount (0x80 + b.val) .immediate 0 (w64 ((Fin.ofNat 16 (b.val / 8)).val * s.build.groupBytes)) = x at loses retired stays counted
    have after := x.followPower_seen.trans counted
    have out : x.inService (Fin.ofNat 16 (b.val / 8)).val = false := (congrArg x.inService home).symm.trans (State.inService_retired retired)
    refine Leaves.of_eq rfl loses ⟨fun a => ?_, ?_, ?_, retired⟩
    · exact (congrArg (fun v : Seen => v.spx.get a) after).trans (s.loseGroup_zero _ a)
    · rw [after]
      rfl
    · rw [State.followPower_group, out]
      exact stays

/-- Settles O46: a write-back by `State.corrWriteback_writes` and `State.putUnit_whole`, answers by `State.deliver_arrives`, the header by
`State.headerDone_good` and `State.headerDone_bad`, groups by `State.loseGroup_zero` and `State.followPower_group`. -/
theorem writeBacksHandshakesAndGroups : Obligations.WriteBacksHandshakesAndGroups := ⟨writeBacksAndHandshakes, groupsOpenAndClose⟩

end Sys2Proof.Machine
end

section
/-! PROOF. A WR need not write its bytes (O43 fails), for the reason that a write of the debug port need not (O52): the rest of a weight-class unit is
taken from the weight unit that its mark remembers, which may hold no bytes. What lets the claim fail for every state before the answer:
answering changes no byte of the scratchpad, for requests that lost their lane are reads at most once more. -/

namespace Sys2Proof.Machine

/-! ## Answers by an error leave the scratchpad's bytes (R375) -/

/-- `t` holds the scratchpad's bytes as `s` does. -/
def State.sameBytes (s t : State) : Prop := t.spx.mem = s.spx.mem

theorem State.sameBytes.trans {s t u : State} (h : s.sameBytes t) (h' : t.sameBytes u) : s.sameBytes u := Eq.trans h' h

theorem sameBytes_of_seen {s t : State} (h : t.seen = s.seen) : s.sameBytes t := congrArg Seen.spx h

theorem State.foldl_sameBytes {α : Type} {f : State → α → State} (keeps : ∀ (t : State) x, t.sameBytes (f t x)) (xs : List α) (s : State) :
    s.sameBytes (xs.foldl f s) := by
  induction xs generalizing s with
  | nil => exact rfl
  | cons x xs ih => exact (keeps s x).trans (ih _)

theorem State.deliver_sameBytes (s : State) (p : Piece) (bs : List Byte) : s.sameBytes (s.deliver p bs) := by
  obtain ⟨c, eq⟩ := s.deliver_cpu p bs
  rw [eq]
  rfl

theorem State.failPiece_sameBytes (s : State) (p : Piece) (kind : Nat) (addr : DWord) : s.sameBytes (s.failPiece p kind addr) := by
  unfold State.failPiece
  split
  · exact rfl
  · next j _ =>
    extract_lets t
    have checked : s.sameBytes t := by
      dsimp only [t]
      split
      · exact rfl
      · exact sameBytes_of_seen (s.machineCheck_seen _ _ _ _)
    obtain ⟨c, eq⟩ := State.settleLoad_cpu (t.modJob p.job fun j => { j with bad := true, missing := j.missing - p.len }) p.job
    rw [eq]
    exact checked

theorem State.installFill_sameBytes (s : State) (f : Fill) (bs : List Byte) : s.sameBytes (s.installFill f bs) := by
  unfold State.installFill
  extract_lets t u
  have placed : s.sameBytes u := by
    dsimp only [u]
    split <;> exact rfl
  exact placed.trans (State.foldl_sameBytes (fun t p => t.deliver_sameBytes p bs) _ _)

theorem State.failFill_sameBytes (s : State) (f : Fill) : s.sameBytes (s.failFill f) := by
  unfold State.failFill
  extract_lets t head debug src u a v
  have dropped : s.sameBytes u := by
    dsimp only [u]
    split <;> exact rfl
  have failed : s.sameBytes v := dropped.trans (State.foldl_sameBytes (fun t p => t.failPiece_sameBytes p 2 a) _ _)
  split
  · exact dropped
  · split
    · exact dropped
    · clear_value head
      cases head with
      | some access => exact failed.trans (sameBytes_of_seen ((State.headLost_seen _).trans (State.machineCheck_seen _ _ _ _ _)))
      | none =>
        dsimp only
        split
        · exact failed.trans (sameBytes_of_seen (State.machineCheck_seen _ _ _ _ _))
        · exact failed

/-- A request that reads, served by this core. -/
theorem State.serveReq_read_sameBytes (s : State) {r : Req} (read : r.opc = 1 ∨ r.opc = 3) : s.sameBytes (s.serveReq r).1 := by
  unfold State.serveReq
  split
  · exact rfl
  · rcases read with mem | reg
    · rw [mem]
      exact sameBytes_of_seen (s.serveMem_read r (by rw [mem]; decide))
    · rw [reg]
      change s.sameBytes (s.serveReg r).1
      unfold State.serveReg
      dsimp only
      rw [if_pos reg]
      split
      · exact rfl
      · split
        · exact rfl
        · exact sameBytes_of_seen (s.readReg_seen _ _)

theorem State.issueFill_sameBytes (s : State) (f : Fill) : s.sameBytes (s.issueFill f) := by
  have sent : s.sameBytes (s.sendReq (s.readReq f.line 64 f.tid false f.tag (.fill f.line f.ic))).1 := by
    have read : (s.readReq f.line 64 f.tid false f.tag (.fill f.line f.ic)).opc = 1 ∨ (s.readReq f.line 64 f.tid false f.tag (.fill f.line f.ic)).opc = 3 := by
      unfold State.readReq
      dsimp only
      split
      · exact .inr rfl
      · exact .inl rfl
    unfold State.sendReq
    dsimp only
    split
    · split
      · exact rfl
      · exact rfl
      · exact s.serveReq_read_sameBytes read
    · split
      · exact rfl
      · exact sameBytes_of_seen (s.sendTagged_seen _ _ _)
  unfold State.issueFill
  dsimp only
  split
  · exact sent.trans (State.installFill_sameBytes _ _ _)
  · exact sent.trans (State.failFill_sameBytes _ _)
  · exact sent

theorem State.prefetchNext_sameBytes (s : State) (ic : Bool) (line page : Nat) (ptag tid : BitVec 16) :
    s.sameBytes (s.prefetchNext ic line page ptag tid) := by
  unfold State.prefetchNext
  dsimp only
  split
  · split
    · split
      · exact rfl
      · exact State.issueFill_sameBytes (State.addFill _ _) _
    · exact rfl
  · exact rfl

theorem State.requestFill_sameBytes (s : State) (f : Fill) : s.sameBytes (s.requestFill f) := by
  unfold State.requestFill
  dsimp only
  split
  · exact (s.issueFill_sameBytes f).trans (State.prefetchNext_sameBytes _ _ _ _ _ _)
  · exact s.issueFill_sameBytes f

theorem State.victimDone_sameBytes (s : State) (set way : Nat) : s.sameBytes (s.victimDone set way) := by
  unfold State.victimDone
  split
  · exact rfl
  · exact (sameBytes_of_seen (s.setFills_seen _)).trans (State.requestFill_sameBytes _ _)

/-- What an error does for a tag. -/
theorem State.useAnswer_err_sameBytes (s : State) (e : TagEntry) (code : Nat) : s.sameBytes (s.useAnswer e (.err code)) := by
  have check (kind : Nat) (tag : Nat) : s.sameBytes (s.machineCheck kind false tag e.pa) := sameBytes_of_seen (s.machineCheck_seen _ _ _ _)
  unfold State.useAnswer
  cases e.use with
  | load p => exact s.failPiece_sameBytes p 2 e.pa
  | moveRead _ n => exact (check 4 e.ptag.toNat).trans (sameBytes_of_seen ((State.headGot_seen _ _).trans (State.freeBytes_seen _ _)))
  | fetch k _ => exact check 2 0
  | walk id => exact sameBytes_of_seen (s.walkGot_seen _ _)
  | fill line ic =>
    dsimp only
    split
    · exact rfl
    · exact s.failFill_sameBytes _
  | victim place => exact (check 2 e.ptag.toNat).trans (State.victimDone_sameBytes _ _ _)
  | debug _ => exact rfl
  | moveWrite => exact check 4 e.ptag.toNat
  | store => exact check 2 e.ptag.toNat
  | sadd => exact check 2 e.ptag.toNat

/-- A request has been served: no byte of the scratchpad changes any more. -/
theorem State.served_sameBytes (s : State) (q : InMsg) : s.sameBytes (s.served q) := by
  have freed : s.sameBytes { s.freeMsg q with net := { (s.freeMsg q).net with lost := [] } } := sameBytes_of_seen (s.freeMsg_seen q)
  refine freed.trans (State.foldl_sameBytes (fun t m => ?_) _ _)
  split
  · split
    · exact (sameBytes_of_seen (t.dropTag_seen _)).trans (State.useAnswer_err_sameBytes _ _ _)
    · exact rfl
  · exact rfl

/-! ## The message -/

/-- A running core of the logical ID 0xFFFC1005 with every group ON, whose lane 0 carries traffic; window 0, which lets fabric writes in, gives unit 0
the weight class, and its mark remembers a weight unit of no bytes. -/
def shortNet : State :=
  let s := State.reset
  { s with
    rst := { Rst.init with phase := .run, wholeLow := false }
    spx := { Spx.init with groups := Vector.replicate 16 .on, marks := [⟨0, 0xF#4, 0#4, 0#288, some []⟩] }
    regs := [(0x6204, 31#32), (0x6208, 0x8510#32)]
    pitch := ⟨[], [], [(5, 0x40000000#32), (6, 0x40000009#32)], [(2, 0x80000000#32)]⟩
    net := { s.net with
      lanes := s.net.lanes.set 0 { Lane.init with up := true, en := true, neg := true, credits := Vector.replicate 4 20, peer := some (2, 1, 0, 0) }
      link := some ⟨2, 0, 2, 1, 0⟩ } }

/-- A WR of 5 to the doubleword at offset 8. -/
def secondWr : InMsg :=
  { lane := 0, vc := 0, flits := 2, ver := 2, cls := 0, opc := 2, rsv := false, pdie := 0, ppitch := 0, ppv := false, pdv := false, phys := false
    su := false, len := 8, tid := 0, src := 0xFFFC1006#32, dst := 0xFFFC1005#32, stamp := 0, addr := 8, tag := 3, data := leBytes 5 8 }

/-- The WR leaves the doubleword's first byte 0. -/
theorem reqWr_shortNet : (shortNet.receive 0 2 secondWr State.requestIn).spx.mem.get 8 = 0#8 := by
  decide +kernel

/-- Refutes O43: the WR of `secondWr` to `shortNet` stores its bytes at offset 0, not at offset 8. -/
theorem not_requestsAreServedAndAnswered : ¬ Obligations.RequestsAreServedAndAnswered := by
  unfold Obligations.RequestsAreServedAndAnswered
  intro holds
  have quiet : shortNet.quiet := by
    unfold State.quiet State.settled
    decide +kernel
  obtain ⟨-, write, -⟩ := holds shortNet secondWr ⟨quiet, by decide +kernel, by decide +kernel⟩
  have getsIt : shortNet.gets 0 2 secondWr := by
    unfold State.gets
    decide +kernel
  obtain ⟨t, done, r, answered, -, bytes, -⟩ := write getsIt (by decide +kernel)
  injection done with done
  have first : r.spx.mem.get 8 = 5#8 := bytes 0 (by decide +kernel)
  have same : t.spx.mem = r.spx.mem := by
    rw [answered]
    exact (sameBytes_of_seen (r.answer_seen _ _ _)).trans (State.served_sameBytes _ _)
  rw [← same, ← done] at first
  exact absurd (reqWr_shortNet.symm.trans first) (by decide)

end Sys2Proof.Machine
end

section
/-! PROOF. A contribution that its tests let in need not be staged as it should (O44 fails): where the arena lies in weight-class units, the rest of a unit
comes from the weight unit that its mark remembers (R359, R360), and nothing that is assumed says that this holds 32 bytes. -/

namespace Sys2Proof.Machine

/-- Rows of four binary32 elements from the own neighbourhood are added. -/
def fourWords : TallyDesc :=
  { dest := 0x1000, arena := 0x2000, idLo := 0xFFFC1000#32, idHi := 0xFFFC1FFF#32, count := 4, expect := 2, replace := true, op := 0, fmt := 0
    doneEn := true, done := 12, wbase := 0 }

/-- A slot of them, whose first row holds the first two of neighbour 0xFFFC1006. -/
def halfRow : TallySlot :=
  { TallySlot.init with
    desc := some fourWords
    armedAt := 1
    rows0 := [⟨0xFFFC1006#32, 8, 0#64⟩] }

/-- The core of `shortNet` in bell 5, its slot 0 `halfRow`; the weight class, and a mark that remembers no bytes, at the unit of the row's elements. -/
def shortArena : State :=
  { shortNet with
    spx := { shortNet.spx with marks := [⟨0x102, 0xF#4, 0#4, 0#288, some []⟩] }
    regs := [(0x6200, 0x2040#32), (0x6204, 0x205F#32), (0x6208, 0x8010#32)]
    bell := { shortNet.bell with tick := 5, unsync := false, splitDone := true, applyDone := false, c := 10 }
    tally := { shortNet.tally with slots := shortNet.tally.slots.set 0 halfRow } }

/-- The row's other two elements, from bell 4. -/
def otherHalf : InMsg :=
  { lane := 0, vc := 2, flits := 2, ver := 2, cls := 2, opc := 1, rsv := false, pdie := 0, ppitch := 0, ppv := false, pdv := false, phys := false
    su := false, len := 8, tid := 0, src := 0xFFFC1006#32, dst := 0xFFFC1005#32, stamp := w64 (4 * 2 ^ 24), addr := 8, tag := 3
    data := leBytes 5 8 }

/-- The contribution leaves the place of its first byte 0. -/
theorem tallyContrib_shortArena : (shortArena.receive 2 1 otherHalf State.tallyIn).spx.mem.get 0x2048 = 0#8 := by
  decide +kernel

/-- Refutes O44: the contribution `otherHalf` to `shortArena` is let in, and its bytes do not stand in their row. -/
theorem not_answersAndMessagesTakeEffect : ¬ Obligations.AnswersAndMessagesTakeEffect := by
  unfold Obligations.AnswersAndMessagesTakeEffect
  rintro ⟨-, messages⟩
  obtain ⟨-, contributions, -⟩ := messages shortArena otherHalf (by decide +kernel) (by decide +kernel)
  have getsIt : shortArena.gets 2 1 otherHalf := by
    unfold State.gets
    decide +kernel
  obtain ⟨-, -, staged⟩ := contributions getsIt (by decide +kernel)
  have open_ : (shortArena.took otherHalf).arenaOpen (tallyMsg (shortArena.content otherHalf)) (some 0) fourWords := by
    unfold State.arenaOpen
    decide +kernel
  obtain ⟨t, done, -, bytes, -⟩ := staged (some 0) false _ (by decide +kernel) open_
  injection done with done
  have first : t.spx.mem.get 0x2048 = 5#8 := bytes 0 (by decide +kernel)
  rw [← done] at first
  exact absurd (tallyContrib_shortArena.symm.trans first) (by decide)

end Sys2Proof.Machine
end

section
/-! PROOF. A discarded flit can retire its lane below the threshold (O45 fails): the leak, where it is due, comes before the count (R434), and of a list of
buckets that names a channel twice it can take away the lower LEVEL that stood before the higher one. Nothing that is assumed excludes such a
list, though no command makes one. -/

namespace Sys2Proof.Machine

/-- Lane 0 is up and enabled; its channel's LEVEL is 1, an entry behind it says 255, and the leak is due. -/
def twoLevels : State :=
  let s := State.reset
  { s with
    rst := { Rst.init with phase := .run, wholeLow := false }
    net := { s.net with lanes := s.net.lanes.set 0 { Lane.init with up := true, en := true } }
    ras := { s.ras with levels := [(0, 1#32), (0, 255#32)], leakDue := true } }

/-- A flit with a wrong CRC retires the lane. -/
theorem flitReject_twoLevels : (twoLevels.flitReject 0 .badCrc).net.lanes[(0 : Fin 2)].retired = true := by
  decide +kernel

/-- Refutes O45: of `twoLevels`, lane 0 retires by one discarded flit, its LEVEL being 1 before. -/
theorem not_lanesFollowTheirSignals : ¬ Obligations.LanesFollowTheirSignals := by
  unfold Obligations.LanesFollowTheirSignals
  intro holds
  obtain ⟨-, -, -, -, -, faults, -⟩ := holds twoLevels 0 1 (by decide)
  have live : twoLevels.live 0 := by
    unfold State.live
    decide +kernel
  obtain ⟨rejects, -⟩ := faults live (by decide +kernel)
  obtain ⟨t, done, lane, -⟩ := rejects (by decide +kernel) .badCrc List.mem_cons_self
  injection done with done
  have retired : t.net.lanes[(0 : Fin 2)].retired = false := by
    rw [lane]
    decide +kernel
  rw [← done] at retired
  exact Bool.false_ne_true (retired.symm.trans flitReject_twoLevels)

end Sys2Proof.Machine
end
